-- ==== Sys2Proof/Word.lean ====
section
/-! DEFINITION. The word types of the module: 64-bit registers (00 R9), 128-bit
floating-point registers (02 R37), bytes of big-endian memory (00 R8), and the index types. -/

namespace Sys2Proof

abbrev W64 := BitVec 64
abbrev W128 := BitVec 128
abbrev Byte := BitVec 8
/-- A line address: physical address bits [47:8]. -/
abbrev Line := BitVec 40
/-- Hardware thread `m = 2 × PCORE + THR` (R165). -/
abbrev ThreadId := Fin 112
abbrev CoreId := Fin 56
abbrev PortId := Fin 12
abbrev McId := Fin 12
/-- PID 0 (the module) and the tenants 1 to 48 (R19). -/
abbrev Pid := Fin 49
/-- Clock island I000 to I112 (R18). -/
abbrev Island := Fin 113

end Sys2Proof
end

