-- ==== Sys2Proof/SyntaxTypes.lean ====
section
/-! DEFINITION. The operand types of the commands. -/

namespace Sys2Proof

/-! ## KZA instruction operands (03) -/

/-- ALU group (R65). -/
inductive AluOp where
  | add | sub | adc | sbc | and | or | xor | andn | sll | srl | sra | rol | ror
  | min | max | minu | maxu
  deriving DecidableEq, Repr

/-- Format B arithmetic with an immediate (R67). -/
inductive ImmOp where
  | addi | addif | subif | andi | ori | xori | muli
  deriving DecidableEq, Repr

/-- Format G shifts (R67). -/
inductive ShiftOp where
  | slli | sllif | srli | srlif | srai | sraif | roli | rori
  deriving DecidableEq, Repr

/-- MULDIV group (R68). -/
inductive MulOp where
  | mul | mulh | mulhu | div | divu | rem | remu
  deriving DecidableEq, Repr

/-- BIT group (R69). -/
inductive BitOp where
  | parD | parB | brevD | brevW | brevB | bswapD | bswapW | bswapH | clz | ctz | popc
  | sextB | sextH | sextW | zextW
  deriving DecidableEq, Repr

/-- CRC polynomials in the order of fn[5:4] (R70). -/
inductive CrcPoly where
  | crc32 | crc32c | crc16 | crc64
  deriving DecidableEq, Repr

/-- Loads (R72). -/
inductive LoadOp where
  | ldb | ldbu | ldh | ldhu | ldw | ldwu | ldd | ldfs | ldfd | ldfq
  deriving DecidableEq, Repr

/-- Stores (R72). -/
inductive StoreOp where
  | stb | sth | stw | std | stfs | stfd | stfq
  deriving DecidableEq, Repr

/-- Format C addressing, or the MEMX group's two registers (R72). -/
inductive AddrMode where
  | disp (rb : BitVec 6) (d : BitVec 14)
  | index (rs rt : BitVec 6)
  deriving DecidableEq, Repr

/-- ATOM group but for STCD (R79). -/
inductive AtomOp where
  | swap | cas | aadd | aand | aor | axor
  deriving DecidableEq, Repr

/-- The target of CALL (26-bit word offset) or of CALLR (R82). -/
inductive CallTarget where
  | rel (disp : BitVec 26)
  | reg (rs : BitVec 6) (imm : BitVec 14)
  deriving DecidableEq, Repr

/-- Formats of the FPB and FPD groups (R92). -/
inductive FpFmt where
  | b32 | b64 | b128 | d64 | d128
  deriving DecidableEq, Repr

/-- Operations of the FPB and FPD groups but DQUANT (R92). -/
inductive FpOp where
  | add | sub | mul | div | sqrt | min | max | cmp
  | cvt (target : FpFmt)
  | cvti (signed : Bool)
  | cvtf (signed : Bool)
  | movfi | movfih | movif | movifh
  | mov | neg | abs
  deriving DecidableEq, Repr

/-! ## Retry and sparing (06) -/

/-- Whose block a Sieve lane holds: a run of Scion's, a job context's, or an inline exchange's (R405, R406). -/
inductive BlockSrc where
  | scion
  | job (p : Pid) (c : Fin 15)
  | exchange (p : Pid) (lidx : BitVec 20)
  deriving DecidableEq, Repr

/-- The checks of R137. Those of a line name it; a store-buffer check names the physical address of the
store (R143). A control-store error names its microaddress and is of one bit or of two (R120). Below them stand the
checks outside the cores, which name their own place: the L3 (R216), the POT cache and a core's granule check cache
(R173), the beats of the rings and die-to-die links 0x69 to 0x71 (R460), and the errors in the memories of Trellis,
Scion, Sieve, Garnet, the counters and Coldframe (R312, R404, R431, R455, R486, R547). -/
inductive Check where
  | l1i (line : Line)
  | l1d (line : Line)
  | intRegs
  | fpRegs
  | intPath
  | binPath
  | decPath
  | decode
  | controlStore (addr : BitVec 15) (single : Bool)
  | l2Clean (line : Line)
  | l2Dirty (line : Line)
  | l2Single
  | checkpoint
  | storeBuffer (addr : BitVec 48)
  | l3Single (line : Line)
  | l3Data (line : Line)
  | l3Tag (line : Line)
  | potCache (gran : BitVec 32)
  | granCheck (gran : BitVec 32)
  | beat (link : Fin 9) (single : Bool)
  | trellisState
  | scionState
  | sieveSingle
  | sieveLane (src : BlockSrc) (k : BitVec 20)
  | sieveState
  | garnetSingle
  | garnetState
  | counterSingle
  | counter (b : Fin 0x73) (k : Fin 8)
  | coldframeSingle
  | coldframeNvm
  deriving DecidableEq, Repr

/-! ## Main memory (10) -/

/-- A wrong symbol of a read: the burst (0 for bytes 0x00 to 0x7F of the line), the codeword within it, and the
device position (R250, R255, R256). -/
structure BadSymbol where
  burst : Bool
  word : BitVec 3
  pos : BitVec 5
  deriving DecidableEq, Repr

/-! ## Coherence (08) -/

/-- Hub-ring stops 32 to 39 (R195): the non-caching agents. -/
inductive HubStop where
  | trellis | sieve | garnet | scion | pot | gatherer | power | coldframe
  deriving DecidableEq, Repr

/-- Who writes without caching: a hub block, or a thread's combining buffer (R199, R211). -/
inductive WriteSource where
  | hub (stop : HubStop)
  | comb (t : ThreadId)
  deriving DecidableEq, Repr

/-! ## Trellis (11, 12, 13) and the job contexts (15, 16) -/

/-- Set 0 or a Virtual Channel Set (R273). -/
abbrev SetNo := Fin 1025

/-- A ring that takes reservations (R276, R346, R417, R444). -/
inductive QueueRef where
  | sq (p : Pid) (set : SetNo) (q : BitVec 6)
  | admin (p : Pid)
  | sieve (p : Pid) (c : Fin 15)
  | garnet (p : Pid) (c : Fin 8)
  deriving DecidableEq, Repr

/-- The header fields of an adapter's message (R321). -/
structure AdapterMsg where
  stream : BitVec 32
  xsn : W64
  gen : BitVec 16
  term : BitVec 16
  path : BitVec 3
  adev : BitVec 32
  status : BitVec 32
  handle : BitVec 21
  deriving DecidableEq, Repr

/-- Whose exchanges an abort ends: a reset partition's, a disabled set's, a disabled queue's. -/
inductive AbortScope where
  | partition
  | set (set : SetNo)
  | queue (set : SetNo) (q : BitVec 6)
  deriving DecidableEq, Repr

/-- The two engines that run jobs. -/
inductive Engine where
  | sieve | garnet
  deriving DecidableEq, Repr

/-! ## Resets and clocks (19) -/

/-- The reference inputs (R487, R488). -/
inductive RefClk where
  | sys
  | port (p : PortId)
  | aux
  deriving DecidableEq, Repr

/-! ## The dictionary (20) -/

/-- A request: a frame of a management port with its source MAC address, or the outstanding in-band request
of a partition (R522, R531). -/
inductive DictReq where
  | frame (port : Bool) (mac : BitVec 48) (pdu : List Byte)
  | inBand (p : Pid)
  deriving DecidableEq, Repr

/-! ## Scion (14) -/

/-- What the join checks 1 to 6 of R397 compare: the partner's installed DRAM, interleave, SCN.PRIV.ADDR,
ROMID, logical cores assigned to partitions, ports that its device table names, and patch. -/
structure JoinPeer where
  dram : BitVec 48
  ways : BitVec 4
  priv : BitVec 18
  romid : BitVec 16
  lcores : BitVec 6
  ports : BitVec 12
  patched : Bool
  pver : BitVec 16
  key : Bool
  csaddr : BitVec 32
  deriving DecidableEq, Repr

end Sys2Proof
end

