-- ==== Sys2Proof/Syntax.lean ====
section
/-! DEFINITION. The commands: one constructor for each row of the table of operations and events. -/

namespace Sys2Proof

/-- A command. Each is one whole step of the module; its docstring is its row of the table. -/
inductive Instr where
  /-- ALU_GROUP (R65): An ALU group instruction (ADD, SUB, ADC, SBC, logical, shift, rotate, MIN/MAX and their
  F forms) reads rs and rt and writes rd, setting SR.FLG for F forms by R66. -/
  | aluGroup (t : ThreadId) (op : AluOp) (f : Bool) (rd rs rt : BitVec 6)
  /-- IMMEDIATE_INSTRUCTIONS (R67): ADDI, ADDIF, SUBIF, ANDI, ORI, XORI or MULI combines rs with the immediate
  into rd. -/
  | immediate (t : ThreadId) (op : ImmOp) (rd rs : BitVec 6) (imm : BitVec 14)
  /-- SHIFTI_GROUP (R67): A shift-immediate instruction shifts or rotates rs by the xop amount into rd. -/
  | shifti (t : ThreadId) (op : ShiftOp) (rd rs : BitVec 6) (amount : BitVec 6)
  /-- LDI (R67): LDI loads the sign-extended imm20 into rd. -/
  | ldi (t : ThreadId) (rd : BitVec 6) (imm : BitVec 20)
  /-- LDU (R67): LDU loads imm20 × 2^12, sign-extended from bit 31, into rd. -/
  | ldu (t : ThreadId) (rd : BitVec 6) (imm : BitVec 20)
  /-- ADDPC (R67): ADDPC writes its own address plus the scaled imm20 into rd. -/
  | addpc (t : ThreadId) (rd : BitVec 6) (imm : BitVec 20)
  /-- LDPC (R67): LDPC loads a literal-pool doubleword relative to its own address, as a load-class
  instruction. -/
  | ldpc (t : ThreadId) (rd : BitVec 6) (imm : BitVec 20)
  /-- MULDIV_GROUP (R68): A MULDIV group instruction multiplies or divides, taking Divide Check on a zero
  divisor and giving the edge results of R95. -/
  | muldiv (t : ThreadId) (op : MulOp) (f : Bool) (rd rs rt : BitVec 6)
  /-- BIT_GROUP (R69): A BIT group instruction computes parity, bit or byte reversal, counts or extension of
  rs into rd. -/
  | bitGroup (t : ThreadId) (op : BitOp) (rd rs : BitVec 6)
  /-- CRC (R71): A CRC group instruction absorbs 1 to 8 data bytes into a CRC state under the selected
  polynomial. -/
  | crc (t : ThreadId) (poly : CrcPoly) (width : BitVec 2) (rd rs rt : BitVec 6)
  /-- LOAD (R72): An integer or floating-point load (including MEMX forms) translates, checks ownership and
  writes its register under the load delay rule. -/
  | load (t : ThreadId) (op : LoadOp) (rd : BitVec 6) (mode : AddrMode)
  /-- STORE (R72): A store instruction translates, checks ownership and enters the store buffer unhardened at
  retirement. -/
  | store (t : ThreadId) (op : StoreOp) (rd : BitVec 6) (mode : AddrMode)
  /-- STNT (R74): STNT or STNTF stores into the thread's non-temporal combining buffer without allocating in
  L1D or L2. -/
  | stnt (t : ThreadId) (f : Bool) (rd rb : BitVec 6) (disp : BitVec 14)
  /-- PREF (R74): PREF requests a line for reading or exclusive ownership by its hint and never raises an
  exception. -/
  | pref (t : ThreadId) (hint rb : BitVec 6) (disp : BitVec 14)
  /-- LDRV (R75): LDRV gains exclusive ownership of the line, loads the doubleword and sets the thread's
  reservation. -/
  | ldrv (t : ThreadId) (rd rb : BitVec 6) (disp : BitVec 14)
  /-- STCD (R75): STCD stores only while the reservation is valid for the line, writes 0 or 1 to rd and
  invalidates the reservation. -/
  | stcd (t : ThreadId) (fail : Bool) (rd rt rs : BitVec 6)
  /-- ATOM_GROUP (R79): An atomic SWAP, CAS, AADD, AAND, AOR or AXOR performs an indivisible read-modify-write
  and returns the old value. -/
  | atomGroup (t : ThreadId) (op : AtomOp) (dbl : Bool) (rd rs rt : BitVec 6)
  /-- BCC (R80): BCC branches when the SR.FLG condition holds. -/
  | bcc (t : ThreadId) (cond : BitVec 4) (disp : BitVec 16)
  /-- BRR (R81): BRR branches on a signed test of register rs. -/
  | brr (t : ThreadId) (cond : BitVec 4) (rs : BitVec 6) (disp : BitVec 16)
  /-- BR (R82): BR branches unconditionally by disp26. -/
  | br (t : ThreadId) (disp : BitVec 26)
  /-- JR (R82): JR writes the link to rd and jumps to rs + imm14. -/
  | jr (t : ThreadId) (rd rs : BitVec 6) (imm : BitVec 14)
  /-- CALL (R82): CALL or CALLR spills when RES = 26, advances the window, writes the return address to c7 and
  transfers. -/
  | call (t : ThreadId) (target : CallTarget)
  /-- RET (R82): RET reads c7, fills the frame below when RES = 1, moves the window back and transfers. -/
  | ret (t : ThreadId)
  /-- NOP (R83): NOP does nothing. -/
  | nop (t : ThreadId)
  /-- ERET (R55): ERET fills if needed, restores SR.STAT and SR.FLG, applies a pending load delay, clears BUSY
  and continues at SR.EPC. -/
  | eret (t : ThreadId)
  /-- SECALL (R86): SECALL enters bank X at Secure level, invalidating the reservation and clearing the
  predictors. -/
  | secall (t : ThreadId)
  /-- HCALL (R83): HCALL raises Hypervisor Call, code 0x08. -/
  | hcall (t : ThreadId)
  /-- TRAP (R83): TRAP raises Trap, code 0x07, with SR.EPC naming the next instruction. -/
  | trap (t : ThreadId) (n : BitVec 8)
  /-- BRK (R83): BRK raises Breakpoint, code 0x09. -/
  | brk (t : ThreadId)
  /-- WFLUSH (R36): WFLUSH spills every resident frame except the current one, oldest first, leaving RES = 1.
  -/
  | wflush (t : ThreadId)
  /-- BAR_C (R235): BAR.C orders cacheable accesses of the masked kinds and refetches younger instructions. -/
  | barC (t : ThreadId) (mask : BitVec 8)
  /-- BAR_T (R235): BAR.T orders cacheable and non-temporal accesses and flushes combining-buffer lines when
  SS or SL is set. -/
  | barT (t : ThreadId) (mask : BitVec 8)
  /-- BAR_S (R241): BAR.S orders all kinds, waits for device stores to be performed or lost, and may take
  Store Loss. -/
  | barS (t : ThreadId) (mask : BitVec 8)
  /-- WAIT (R83): WAIT stops issue until an interrupt that the thread may take is pending. -/
  | wait (t : ThreadId)
  /-- WAIT_WAKE (R83): A pending takeable interrupt ends a WAIT, which continues at the next instruction
  before the interrupt is taken. -/
  | waitWake (t : ThreadId)
  /-- MFSR (R85): MFSR copies a state register into rd subject to the read levels of R40. -/
  | mfsr (t : ThreadId) (rd : BitVec 6) (sr : BitVec 12)
  /-- MTSR (R85): MTSR copies rs into a state register subject to the write levels of R40, applying per-field
  rules. -/
  | mtsr (t : ThreadId) (rs : BitVec 6) (sr : BitVec 12)
  /-- IPISEND (R47): An MTSR to SR.IPISEND sets LVL9 pending on the target thread when it belongs to the same
  partition. -/
  | ipisend (t : ThreadId) (rs : BitVec 6)
  /-- XPOST (R88): XPOST checks the ECB and descriptors, reserves a slot, commits, writes the ECB, sets
  segment flags to Trellis and rings the doorbell. -/
  | xpost (t : ThreadId) (rd rs rt : BitVec 6)
  /-- ECALL (R90): ECALL posts a Sieve or Garnet job descriptor to an engine queue as XPOST does. -/
  | ecall (t : ThreadId) (e : Engine) (rd rs rt : BitVec 6)
  /-- BMOV (R91): BMOV copies bytes in units ending at 256-byte destination boundaries, committing and
  advancing registers per unit. -/
  | bmov (t : ThreadId) (rd rs rt : BitVec 6)
  /-- FPB_GROUP (R92): A binary floating-point instruction computes, converts, compares or moves with rounding
  and flags by the arithmetic chapter. -/
  | fpb (t : ThreadId) (fmt : FpFmt) (op : FpOp) (rd rs rt : BitVec 6)
  /-- FPD_GROUP (R92): A decimal floating-point instruction computes, converts, compares or moves, with
  DDIV.128 and DSQRT.128 as micro-routines. -/
  | fpd (t : ThreadId) (fmt : FpFmt) (op : FpOp) (rd rs rt : BitVec 6)
  /-- DQUANT (R112): DQUANT rounds fs to the exponent of ft under DRM. -/
  | dquant (t : ThreadId) (fmt : FpFmt) (fd fs ft : BitVec 6)
  /-- FMA (R93): FMA.B, FMS.B, FMA.D or FMS.D computes fs × ft ± fa with a single rounding. -/
  | fma (t : ThreadId) (fmt : FpFmt) (sub : Bool) (fd fs ft fa : BitVec 6)
  /-- INTERRUPT_ENTRY (R51): A pending takeable interrupt is taken at a retire-group boundary, highest level
  first, by the entry of R54. -/
  | interruptEntry (t : ThreadId) (mid : Bool)
  /-- TIMER_INTERRUPT (R46): SR.TIME reaching SR.TCMP or SR.TCMPX makes level 8 or level 12 pending. -/
  | timerInterrupt (t : ThreadId)
  /-- CHECKPOINT_HARDEN (R138): A retire group's checkpoint hardens once its checks pass, updating the
  checkpoint array. -/
  | checkpointHarden (t : ThreadId)
  /-- STORE_DRAIN (R232): A store-buffer entry whose stores have hardened gains ownership of its line and is
  written into the L2. -/
  | storeDrain (t : ThreadId) (line : Line)
  /-- BACKLOG_STALL_RELEASE (R377): Retire groups stalled by the Scion backlog proceed once the backlog falls
  below the threshold. -/
  | backlogStallRelease
  /-- COMBINING_TIMEOUT (R233): A combining-buffer line with no store for 1 µs leaves as WrInv or WrInvPart.
  -/
  | combiningTimeout (t : ThreadId) (line : Line)
  /-- CHECK_FIRES (R140): A parity, residue, decode or ECC check fires and the core flushes unhardened work
  and restores the last hardened checkpoint. -/
  | checkFires (c : CoreId) (thr : Bool) (chk : Check)
  /-- SPARING_START (R149): A persistent error or clock-valid drop stops the core, selects a spare, enters
  Recovery Coherence Mode, starts the L2 drain and copies checkpoints. -/
  | sparingStart (c : CoreId) (readOut : Bool)
  /-- SPARING_DRAIN_END (R149): The failing L2's drain ends; the core is deconfigured, interrupts are
  redirected, RCM is left and the spare resumes. -/
  | sparingDrainEnd
  /-- PATCH_LOAD (R133): A write of RST.CSCTL.LOAD = 1 starts a patch load with its ordered checks. -/
  | patchLoad
  /-- PATCH_LOAD_COMPLETE (R134): The patch verification completes; microwords and overrides are copied and
  RST.CSVER updated, or STATUS shows the failure. -/
  | patchLoadComplete
  /-- PATCH_LOCK (R135): A write of RST.CSCTL.LOCK = 1 forbids further patch loads until the next module
  reset. -/
  | patchLock
  /-- POT_ENABLE (R170): Setting POT.BASE.EN locks ADDR and starts enforcing ownership checks. -/
  | potEnable
  /-- POT_CMD (R174): A POT.CMD write checks a run of granules and writes the new entries, or refuses the
  whole run. -/
  | potCmd (v : W64)
  /-- POT_CMD_COMPLETE (R176): Once every holder has acknowledged the invalidation, POT.CMDSTAT reads done. -/
  | potCmdComplete
  /-- GRANULE_SCRUB_COMPLETE (R177): The POT unit finishes zeroing a Scrubbing granule and moves it to Free,
  incrementing GEN. -/
  | granuleScrubComplete (gran : BitVec 32)
  /-- VERSION (R190): Service 0x0000 returns the Rootstock version and RST.CSVER. -/
  | version (t : ThreadId)
  /-- PARTITION_INFORMATION (R190): Service 0x0001 returns the PID, logical cores and granules owned. -/
  | partitionInformation (t : ThreadId)
  /-- SET_STAGE_1_ROOT (R190): Service 0x0010 sets the thread's POT.TS1 root. -/
  | setStage1Root (t : ThreadId)
  /-- SET_STAGE_2_ROOT (R190): Service 0x0011 sets the thread's POT.TS2 root. -/
  | setStage2Root (t : ThreadId)
  /-- SET_HYPERVISOR_ROOT (R190): Service 0x0012 sets the thread's POT.TH root. -/
  | setHypervisorRoot (t : ThreadId)
  /-- TLB_INVALIDATE (R566): Service 0x0013 drops the translation-cache entries of its scope on every core of
  the partition. -/
  | tlbInvalidate (t : ThreadId)
  /-- GRANULE_QUERY (R190): Service 0x0020 returns the POT entry of a granule. -/
  | granuleQuery (t : ThreadId)
  /-- REGISTER_EXCHANGE_WINDOW (R190): Service 0x0021 moves an Owned run to Window and records it with
  Trellis. -/
  | registerExchangeWindow (t : ThreadId)
  /-- DEREGISTER_EXCHANGE_WINDOW (R190): Service 0x0022 returns a Window run to Owned and removes it from
  Trellis. -/
  | deregisterExchangeWindow (t : ThreadId)
  /-- OFFER_SHARED_WINDOW (R178): Service 0x0023 offers a run to a named PID. -/
  | offerSharedWindow (t : ThreadId)
  /-- OFFER_LAPSE (R178): A Shared-Window offer not accepted within 1 s lapses. -/
  | offerLapse (by_ taker : Pid) (gran : BitVec 32) (num : BitVec 17)
  /-- ACCEPT_SHARED_WINDOW (R178): Service 0x0024 accepts a live offer and sets the run to Shared-Window. -/
  | acceptSharedWindow (t : ThreadId)
  /-- WITHDRAW_SHARED_WINDOW (R178): Service 0x0025 returns a Shared-Window run to Window after the shootdown.
  -/
  | withdrawSharedWindow (t : ThreadId)
  /-- GATE_REQUEST (R190): Service 0x0030 maps a logical core to its island and places a gate request in
  PWR.GATEREQ. -/
  | gateRequest (t : ThreadId)
  /-- GATE_STATUS (R190): Service 0x0031 returns PWR.GATEREQ. -/
  | gateStatus (t : ThreadId)
  /-- CLASS_0_RESPONDER (R190): Service 0x0040 sets or clears SR.TID.C0R on a thread of the partition. -/
  | class0Responder (t : ThreadId)
  /-- READ_FAULT_RECORD (R468): Service 0x0050 returns a partition fault record. -/
  | readFaultRecord (t : ThreadId)
  /-- CLEAR_FAULT_RECORD (R468): Service 0x0051 clears a partition fault record as R465 decides. -/
  | clearFaultRecord (t : ThreadId)
  /-- DICTIONARY_POST (R531): Service 0x0060 posts an in-band dictionary request with Operator rights. -/
  | dictionaryPost (t : ThreadId)
  /-- DICTIONARY_POLL (R531): Service 0x0061 returns Pending until the in-band response is copied, then Done.
  -/
  | dictionaryPoll (t : ThreadId)
  /-- PARTITION_RESET (R190): Service 0x0070 resets the calling partition and does not return. -/
  | partitionReset (t : ThreadId)
  /-- LEASE_WRITE (R185): A write of PWR.LEASE0 or LEASE1 sets or clears island leases, releasing a pending
  gate when cleared. -/
  | leaseWrite (hi : Bool) (v : W64)
  /-- GATEREQ (R184): A gate request entering PWR.GATEREQ asks an unleased island to go idle, goes PENDING on
  a leased one, or ungates. -/
  | gatereq (dictionary : Bool) (island : BitVec 7) (action : BitVec 2)
  /-- ISLAND_IDLE (R184): The island's blocks become idle and the whole island is gated, STATUS applied. -/
  | islandIdle
  /-- GATE_IDLE_TIMEOUT (R184): The island not idle within the block idle timeout stays ungated and STATUS
  reads refused. -/
  | gateIdleTimeout
  /-- RDSHARED (R201): A RdShared reaching the home is ordered, snooped with SnpShared and served with a fill
  state by R201. -/
  | rdshared (c : CoreId) (thr : Bool) (line : Line)
  /-- PREFRD (R208): A PrefRd is served as RdShared or dropped with Cmp when the line is active or trackers
  are short. -/
  | prefrd (c : CoreId) (thr : Bool) (line : Line)
  /-- RDOWN (R201): A RdOwn is ordered at the home, snooped with SnpOwn and served with exclusive ownership.
  -/
  | rdown (c : CoreId) (thr : Bool) (line : Line)
  /-- UPGRADE (R201): An Upgrade is snooped with SnpInv and granted, or served as RdOwn when the copy was
  lost. -/
  | upgrade (c : CoreId) (line : Line)
  /-- RDONCE (R210): A non-caching RdOnce is snooped with SnpOnce and served from an L2, the L3 or DRAM. -/
  | rdonce (stop : HubStop) (line : Line)
  /-- WRINV (R210): A full-line WrInv invalidates every copy, writes DRAM and updates the L3, answered by Cmp.
  -/
  | wrinv (src : WriteSource) (line : Line) (data : List Byte)
  /-- WRINVPART (R210): A WrInvPart snoops with SnpOwn, merges masked bytes into the current data and writes
  DRAM once. -/
  | wrinvpart (src : WriteSource) (line : Line) (data : List (BitVec 8 × Byte))
  /-- WBDATA (R196): A write-back is accepted into the home's write queue and L3, joining any active
  transaction, and answered by WbAck. -/
  | wbdata (c : CoreId) (line : Line)
  /-- SNPSHARED (R203): An L2 answers SnpShared from its state and moves to its new state. -/
  | snpshared (c : CoreId) (line : Line)
  /-- SNPOWN (R203): An L2 answers SnpOwn, supplying or writing back data and invalidating. -/
  | snpown (c : CoreId) (line : Line)
  /-- SNPINV (R203): An L2 answers SnpInv with RspI and invalidates, or RspGoneWb from EP. -/
  | snpinv (c : CoreId) (line : Line)
  /-- SNPONCE (R203): An L2 answers SnpOnce, supplying data without giving up ownership except in RCM. -/
  | snponce (c : CoreId) (line : Line)
  /-- SNOOP_HOLD_EXPIRY (R214): An L2 holding a snoop to a reserved line answers it 128 cycles after ownership
  was gained. -/
  | snoopHoldExpiry (t : ThreadId)
  /-- RSPI (R199): An RspI response is combined into the tile and home response. -/
  | rspi (c : CoreId) (line : Line)
  /-- RSPS (R199): An RspS response is combined, showing a shared copy remains. -/
  | rsps (c : CoreId) (line : Line)
  /-- RSPDATA (R204): Data supplied by an L2 reaches the requester, which fills the line, and the home is
  told. -/
  | rspdata (c : CoreId) (line : Line)
  /-- RSPDATAWB (R204): Dirty data returned through the home is written to DRAM and forwarded to the
  requester. -/
  | rspdatawb (c : CoreId) (line : Line)
  /-- RSPGONEWB (R212): Gone-Writeback makes the home serve the requester from the write-back data. -/
  | rspgonewb (c : CoreId) (line : Line)
  /-- DATA (R206): A line arriving from the home fills critical beat first in the state named, restarting the
  load. -/
  | data (line : Line)
  /-- GRANT (R201): A Grant completes an Upgrade and the line becomes M. -/
  | grant (line : Line)
  /-- WBACK (R207): WbAck moves an EP line to I and lets the waiting fill take the way. -/
  | wback (c : CoreId) (line : Line)
  /-- CMP (R210): Cmp completes a non-caching write, RdOnce or dropped PrefRd at its requester. -/
  | cmp (line : Line)
  /-- GRANTACK (R200): GrantAck ends the line's active transaction and the home serves the next queued
  request. -/
  | grantack (line : Line)
  /-- DEVICE_STORE_SEND (R227): A device store leaves the store buffer in page order to its port or block. -/
  | deviceStoreSend (t : ThreadId) (page : BitVec 36)
  /-- FLUSH_READ_TIMER (R238): 10 µs after the oldest unflushed MMIO store, the port queues a flush read and
  starts the timeout. -/
  | flushReadTimer (port : PortId)
  /-- FLUSH_READ_COMPLETE (R238): Any completion of a flush read marks every MMIO store before it as
  performed. -/
  | flushReadComplete (port : PortId)
  /-- MMIO_TIMEOUT (R240): A flush read not completed within TRL.MMIOTO loses every tracked store, fails the
  path and records 0x0120. -/
  | mmioTimeout (port : PortId)
  /-- DEVICE_LOAD_COMPLETE (R242): A device load completion returns data, or an error completion returns all
  0xFF and records 0x0121. -/
  | deviceLoadComplete (t : ThreadId) (good : Bool) (data : List Byte)
  /-- MMIO_LOAD_TIMEOUT (R242): A device load without completion within TIMEOUT returns all 0xFF and records
  0x0121. -/
  | mmioLoadTimeout (t : ThreadId)
  /-- PARTITION_DRAIN_TIMEOUT (R245): Buffers not drained 100 µs into a partition reset are discarded and
  0x0122 is recorded. -/
  | partitionDrainTimeout (p : Pid)
  /-- MC_READ (R250): A controller read of two bursts is decoded by the outer code, corrected, marked or
  poisoned, and returned to the home. -/
  | mcRead (n : McId) (line : Line) (bad : List BadSymbol)
  /-- MC_WRITE (R251): A queued write is drained to DRAM, with poisoned lines written with the poison pattern.
  -/
  | mcWrite (n : McId)
  /-- PATROL_READ (R260): The patrol reads the next channel-local line at its paced interval. -/
  | patrolRead (n : McId) (bad : List BadSymbol)
  /-- SCRUB_WRITEBACK (R262): A conditional scrub write-back is ordered at the home and dropped if a newer
  write was accepted. -/
  | scrubWriteback (n : McId) (line : Line)
  /-- ECS_READ (R254): Hourly the controller reads each rank's ECS result registers and records 0x0306 above
  threshold. -/
  | ecsRead (n : McId) (rank : BitVec 2) (count row : BitVec 32)
  /-- REFRESH (R264): All-bank refresh falls due for a rank every 3.9 µs, or 1.95 µs above 85 °C. -/
  | refresh (n : McId) (rank : BitVec 2)
  /-- RFM (R264): A bank's activation count reaching the DIMM's threshold issues an RFM command. -/
  | rfm (n : McId) (rank : BitVec 2) (bank : BitVec 5)
  /-- TEMPERATURE_POLL (R263): Every 100 ms Coldframe code reads each DIMM temperature sensor, applying limits
  and sensor-failure rules. -/
  | temperaturePoll (n : McId) (dimm : Bool) (reading : Option (BitVec 8))
  /-- DQS_INTERVAL_OSCILLATOR (R267): Every 10 ms per rank the DQS oscillator runs and adjusts the write DQS
  delay. -/
  | dqsIntervalOscillator (n : McId) (rank : BitVec 2)
  /-- READ_CENTRING (R267): Every 1 s per rank the read strobe is re-centred after an all-bank refresh. -/
  | readCentring (n : McId) (rank : BitVec 2)
  /-- FULL_RETRAINING (R268): A temperature change of 10 °C since a rank's last full training starts its
  sliced re-training. -/
  | fullRetraining (n : McId) (rank : BitVec 2)
  /-- RETRAINING_SLICE (R268): A re-training slice of at most 1 µs runs, holding and restoring the row it
  uses. -/
  | retrainingSlice (n : McId) (held : List (Line × List BadSymbol)) (last margin : Bool)
  /-- CHANNEL_TRAINING_COMPLETE (R265): Start-up training of a channel ends with stress offsets applied, or
  fails with FATAL 0x0308. -/
  | channelTrainingComplete (n : McId) (ok narrow : Bool)
  /-- ALERT_N (R270): ALERT_N reports a CA parity error and the controller replays, losing the channel after
  three failures. -/
  | alertN (n : McId) (failedReplays : BitVec 2)
  /-- SQ_DOORBELL_RESERVE (R277): A load of an SQ doorbell (or Admin, Sieve or Garnet job doorbell) reserves
  the next slot in index order or returns OK = 0. -/
  | sqDoorbellReserve (t : ThreadId) (q : QueueRef)
  /-- SQ_READY (R278): A store with OP = 0b01 marks a reserved slot ready. -/
  | sqReady (q : QueueRef) (slot : BitVec 32)
  /-- SQ_RELEASE (R278): A store with OP = 0b10 releases a reserved slot to be skipped. -/
  | sqRelease (q : QueueRef) (slot : BitVec 32)
  /-- CQ_HEAD (R293): A CQ head store advances the head, freeing ledger entries and letting waiting completion
  entries be written. -/
  | cqHead (q : QueueRef) (head : BitVec 32)
  /-- SLOT_VOID (R278): A slot reserved but neither readied nor released within 2 ms becomes void. -/
  | slotVoid (q : QueueRef) (slot : BitVec 32)
  /-- ACCEPTANCE (R284): Trellis takes a ready slot, allocates a ledger entry, assigns the XSN, validates and
  writes the ledger entry. -/
  | acceptance (p : Pid) (set : SetNo) (q : BitVec 6) (lidx : BitVec 20)
  /-- TRANSFORM_COMPLETE (R294): The outbound Sieve and Garnet transform finishes and the egress frame is
  staged with its IV. -/
  | transformComplete (p : Pid) (lidx : BitVec 20)
  /-- EXCHANGE_SEND (R298): An exchange is handed to a port on a usable path as EXCH and EXCHX messages and
  becomes ISSUED. -/
  | exchangeSend (p : Pid) (lidx : BitVec 20) (handle : BitVec 21)
  /-- FIRST_TLP (R290): The first TLP of a send leaves the port, TWIRE is written and Class 0 time is
  measured. -/
  | firstTlp (port : PortId) (cls : BitVec 2)
  /-- ACK (R290): An adapter ACK for a non-terminal exchange moves it to ACKED and closes its redrive window.
  -/
  | ack (port : PortId) (m : AdapterMsg)
  /-- CMPL (R292): An adapter CMPL ends the exchange COMPLETE or FAILED 0x6 and the terminal writes follow. -/
  | cmpl (port : PortId) (m : AdapterMsg) (result : W64)
  /-- ABTCFM (R339): An abort confirmation ends the exchange CANCELLED 0x2. -/
  | abtcfm (port : PortId) (m : AdapterMsg)
  /-- PROBERSP (R299): A PROBERSP restores a failed path when ready and may raise TRL.TERM. -/
  | probersp (port : PortId) (m : AdapterMsg)
  /-- PATHERR (R299): A PATHERR marks the path failed and redrives its exchanges. -/
  | patherr (port : PortId) (m : AdapterMsg)
  /-- STALE (R336): A STALE message is discarded and counted. -/
  | stale (port : PortId) (m : AdapterMsg)
  /-- ADAPTER_DMA_READ (R283): A tagged adapter DMA read is admitted only within a granted segment or staging
  area of the exchange. -/
  | adapterDmaRead (port : PortId) (rid : BitVec 16) (tag : Option (BitVec 24)) (addr : BitVec 48) (len : BitVec 13)
  /-- ADAPTER_DMA_WRITE (R283): A tagged adapter DMA write is admitted within an inbound segment or staging,
  else refused with 0x0605. -/
  | adapterDmaWrite (port : PortId) (rid : BitVec 16) (tag : Option (BitVec 24)) (addr : BitVec 48) (data : List Byte)
  /-- INBOUND_TRANSFORM (R296): Staged inbound data is decrypted and decompressed into inbound segments or the
  exchange fails. -/
  | inboundTransform (p : Pid) (lidx : BitVec 20)
  /-- MSI (R315): An MSI or MSI-X write from an adapter is discarded and counted. -/
  | msi (port : PortId)
  /-- ACK_TIMEOUT (R299): An issued exchange without acknowledgement within TRL.ACKTO marks its path failed.
  -/
  | ackTimeout (p : Pid) (lidx : BitVec 20)
  /-- TRELLIS_LINK_DOWN (R299): A port link going down marks its paths failed and loses its tracked MMIO
  stores. -/
  | trellisLinkDown (port : PortId)
  /-- TRELLIS_LINK_UP (R313): A port link trains up; a retrain below 32 GT/s or MAXW with Class 0 records
  0x0609. -/
  | trellisLinkUp (port : PortId) (speed width : BitVec 4)
  /-- PATH_PROBE (R299): Once a second Trellis sends PROBE on each failed path whose link is up. -/
  | pathProbe
  /-- REDRIVE_WINDOW_EXPIRY (R301): A redrive window running out without a usable path ends the exchange
  FAILED 0x7 or 0x8. -/
  | redriveWindowExpiry (p : Pid) (lidx : BitVec 20)
  /-- ABORT_TIMEOUT (R304): At TRL.ABTO the open exchanges of an abort end CANCELLED 0x3 or 0x1 and QUIESCED
  follows. -/
  | abortTimeout (p : Pid) (sc : AbortScope)
  /-- TRELLIS_PARTITION_RESET (R304): A partition reset reaching Trellis ends reservations, advances
  generations, cancels and aborts exchanges. -/
  | trellisPartitionReset (p : Pid)
  /-- LEDGER_WRITE_RETRY (R308): Once a second Trellis retries a ledger or completion write that R172 refused.
  -/
  | ledgerWriteRetry (p : Pid)
  /-- TRELLIS_ENABLE (R310): Setting TRL.CTXBASE.EN enables Trellis and locks its context and device-table
  addresses. -/
  | trellisEnable
  /-- WITHDRAW (R317): A port withdrawal marks its paths failed without record and waits for its exchanges to
  leave. -/
  | withdraw (port : PortId)
  /-- WITHDRAW_WAIT_END (R317): When no exchange remains on the port, or TRL.ABTO passes, open ones are
  aborted, PERST set and the link disabled. -/
  | withdrawWaitEnd (port : PortId)
  /-- TERM_PROBE_TIMEOUT (R342): After PROBERSP from every usable path or 1 ms, a starting Solo sets TRL.TERM
  and sends FENCE. -/
  | termProbeTimeout
  /-- CREATE_CQ (R354): Admin command 0x01 creates a disabled completion queue. -/
  | createCq (p : Pid)
  /-- CREATE_SQ (R354): Admin command 0x02 creates a disabled submission queue with next XSN 1. -/
  | createSq (p : Pid)
  /-- ENABLE_Q (R354): Admin command 0x03 enables a queue, clearing unaccepted slots left by a reset. -/
  | enableQ (p : Pid)
  /-- DISABLE_Q (R354): Admin command 0x04 disables a queue, ending its exchanges by R306. -/
  | disableQ (p : Pid)
  /-- DELETE_Q (R354): Admin command 0x05 deletes a disabled queue. -/
  | deleteQ (p : Pid)
  /-- CREATE_VCS (R359): Admin command 0x10 creates the lowest free set with quotas and a stage 2 root,
  incrementing its generation. -/
  | createVcs (p : Pid)
  /-- ENABLE_VCS (R350): Admin command 0x11 enables a set. -/
  | enableVcs (p : Pid)
  /-- DISABLE_VCS (R361): Admin command 0x12 increments the generation, disables the set's queues and ends its
  exchanges. -/
  | disableVcs (p : Pid)
  /-- RESET_VCS (R361): Admin command 0x13 disables the set and resets its queue indexes and next XSNs. -/
  | resetVcs (p : Pid)
  /-- REMOVE_VCS (R361): Admin command 0x14 removes the set and returns its quotas. -/
  | removeVcs (p : Pid)
  /-- RESIZE_VCS (R356): Admin command 0x15 changes a set's quotas within the pool. -/
  | resizeVcs (p : Pid)
  /-- QUERY_VCS (R350): Admin command 0x16 returns a set's or the pool's state, generation and usage. -/
  | queryVcs (p : Pid)
  /-- DLOG_START (R363): Admin command 0x20 starts the set's dirty-page log. -/
  | dlogStart (p : Pid)
  /-- DLOG_SWAP (R364): Admin command 0x21 switches the dirty log to a new bitmap and returns the old OVF. -/
  | dlogSwap (p : Pid)
  /-- DLOG_STOP (R364): Admin command 0x22 stops the dirty log and returns OVF. -/
  | dlogStop (p : Pid)
  /-- SCION_ENABLE (R375): Setting SCN.PRIV.EN enables Scion and locks its private region and PAIREN. -/
  | scionEnable
  /-- START_RULE (R366): After a reset with PAIREN = 1 the pins decide Solo or Joining, with a confirmation
  sample for Solo. -/
  | startRule (pairId fence peer : Bool)
  /-- START_RULE_CONFIRM (R366): 10 µs after driving PAIR_ACTIVE high, FENCE_IN and PEER_ACTIVE are sampled
  again to confirm Solo. -/
  | startRuleConfirm (fence peer : Bool)
  /-- START_TIMEOUT (R366): With PAIR_ID = 1, PEER_ACTIVE low for the start timeout lets the module become
  Solo. -/
  | startTimeout (fence : Bool)
  /-- FENCE_IN (R368): FENCE_IN rising idles Trellis transmitters, drops PAIR_ACTIVE and fences the module
  with FATAL 0x0706. -/
  | fenceIn (high : Bool)
  /-- FATAL_HOLD_EXPIRY (R471): After HOLD, with ACT = 1, the reset controller starts a module warm reset. -/
  | fatalHoldExpiry
  /-- LANE_GROUP_UP (R369): A Scion lane group trains up and the link state moves to DEGRADED or UP. -/
  | laneGroupUp (b : Bool)
  /-- LANE_GROUP_DOWN (R369): A Scion lane group fails, recording 0x0701 or taking the link DOWN. -/
  | laneGroupDown (b : Bool)
  /-- LANE_GROUP_RETRAIN (R369): A failed lane group retrains every 1 s. -/
  | laneGroupRetrain (b : Bool)
  /-- LINK_CONTROL_UNIT (R370): A link-control unit arrives; its block is checked and NAKed on failure, and a
  NAK triggers resending. -/
  | linkControlUnit (good nak : Bool)
  /-- HELLO (R372): A HELLO record delivers the partner's PAIR_ID, serial number and nonce. -/
  | hello (pairId : Bool) (serial : W64) (nonce : List Byte)
  /-- SCION_AUTH (R372): An AUTH record is verified; failure holds the link and records 0x070A. -/
  | scionAuth (mac : List Byte)
  /-- SCION_AUTH_RETRY (R372): 1 s after an authentication failure the link tries again. -/
  | scionAuthRetry
  /-- HB_SEND (R374): Every 2 µs a module sends HB ahead of queued records. -/
  | hbSend
  /-- HB (R374): A valid HB resets the miss count; a higher TERM from a Solo or Active partner self-fences. -/
  | hb (role : BitVec 3) (term : BitVec 16) (ep : W64)
  /-- PARTNER_LOST (R392): 30 µs without a valid HB, or link DOWN with PEER_ACTIVE low, makes the Standby
  declare the Active lost. -/
  | partnerLost (peer : Bool)
  /-- UNDO_LOG_APPLIED (R393): With memory restored, cores are released and loaded, TERM set, role Solo, FENCE
  sent and replay begun. -/
  | undoLogApplied (peer : Bool)
  /-- ACTIVE_PARTNER_LOST (R395): 60 µs after the last HB an Active becomes Solo or self-fences by the pins.
  -/
  | activePartnerLost (fence peer : Bool)
  /-- EPOCH_TIMER (R376): The epoch timer expiring closes the open epoch. -/
  | epochTimer
  /-- SHIP_REQUEST (R380): Scion issues a Dirty Log entry and the L2 returns the line as a LINE record or
  reports it shipped. -/
  | shipRequest
  /-- LINE (R384): The Standby undo-logs and writes a shipped line, setting poison when marked. -/
  | line (ep : BitVec 8) (line : Line) (poison : Bool) (data : List Byte)
  /-- REGD (R384): The Standby applies register deltas to the pending register bank. -/
  | regd (ep : BitVec 8) (thr : BitVec 7) (entries : List (BitVec 10 × W64))
  /-- CFGW (R384): The Standby holds a configuration write as a pending record of its epoch. -/
  | cfgw (ep : BitVec 8) (addr : BitVec 48) (value : W64)
  /-- OUT (R384): The Standby holds a Trellis output as a pending record of its epoch. -/
  | out (ep : BitVec 8) (handle : BitVec 21) (stream : BitVec 32) (abort : Bool) (path : BitVec 3) (xsn : W64)
  /-- MMIO (R384): The Standby holds an adapter MMIO store as a pending record. -/
  | mmio (ep : BitVec 8) (addr : BitVec 48) (data : List Byte) (pid : BitVec 6) (thr : BitVec 7)
  /-- MMIOP (R384): The Standby holds a port's cumulative MMIO count as a pending record. -/
  | mmiop (ep : BitVec 8) (port : BitVec 4) (count : W64)
  /-- COMP (R384): The Standby decompresses a COMP record and applies its records. -/
  | comp (ep : BitVec 8) (frame : List Byte)
  /-- IMG (R398): A joiner writes an image page into its mirror. -/
  | img (page : BitVec 36) (data : List Byte)
  /-- SCION_CLOSE (R385): A matching CLOSE commits the epoch at the Standby, which then sends ACK and its
  committed outputs. -/
  | scionClose (ep : W64) (count : BitVec 48) (bytes : W64)
  /-- SWITCH (R398): A joiner commits the switch epoch, sends ACK and becomes Standby. -/
  | switch (ep : W64) (count : BitVec 48) (bytes : W64)
  /-- SCION_ACK (R387): The Active receives ACK, commits the epoch and releases its held outputs in creation
  order. -/
  | scionAck (ep : W64)
  /-- FAIL (R367): A FAIL record makes the partner leave the pair, triggering takeover or Solo. -/
  | fail (reason : BitVec 8)
  /-- SWITCH_OVER (R396): SCN.CTL.SWITCH on an Active stops issue, express-closes and hands over after the
  ACK. -/
  | switchOver
  /-- SWITCH_OVER_TIMEOUT (R396): 1 ms without ACK abandons the switch-over and records 0x070B. -/
  | switchOverTimeout
  /-- JOIN (R397): SCN.CTL.JOIN on a Joining module with an authenticated UP link runs the join checks and
  starts the join. -/
  | join (source : Bool) (peer : JoinPeer)
  /-- JOIN_WRITEBACK_END (R398): The source's write-back of every M and O line ends and image shipping starts.
  -/
  | joinWritebackEnd
  /-- IMG_SEND (R398): The source sends the next DRAM page as IMG at the configured image rate. -/
  | imgSend
  /-- JOIN_IMAGE_COMPLETE (R398): The image is sent; the joiner checks the patch digest and the source sends
  the switch epoch. -/
  | joinImageComplete
  /-- JOIN_END (R399): The link leaving UP or a module failing ends the join and the joiner restarts. -/
  | joinEnd
  /-- SIEVE_BLOCK_START (R406): A free Sieve lane takes the next block by source priority. -/
  | sieveBlockStart (comp : Bool)
  /-- SIEVE_BLOCK_COMPLETE (R415): A lane finishes a block, verifies it and writes it, ending the job when it
  is the last. -/
  | sieveBlockComplete (src : BlockSrc) (k : BitVec 20) (glitches : Fin 3)
  /-- COMPRESS (R412): Job OP 0x1 compresses the input segments into a Sieve Frame at the given level. -/
  | compress (p : Pid) (c : Fin 15)
  /-- DECOMPRESS (R413): Job OP 0x2 checks the frame header and index and decompresses every block. -/
  | decompress (p : Pid) (c : Fin 15)
  /-- DECOMPRESS_A_RANGE (R422): Job OP 0x3 decodes only the blocks covering the requested raw range. -/
  | decompressARange (p : Pid) (c : Fin 15)
  /-- BIND_ENABLE (R419): Writing BIND.EN = 1 enables a Sieve or Garnet context when rings, set and quota
  check out. -/
  | bindEnable (e : Engine) (p : Pid) (c : Fin 15) (set : BitVec 11) (level : BitVec 4)
  /-- BIND_DISABLE (R428): Writing BIND.EN = 0 stops a context, aborting its jobs with status 0x20. -/
  | bindDisable (e : Engine) (p : Pid) (c : Fin 15)
  /-- AES_CBC_ENCRYPT (R443): GOP 0x10 encrypts with AES-CBC under a hardware IV and PKCS#7 padding. -/
  | aesCbcEncrypt (p : Pid) (c : Fin 8)
  /-- AES_CBC_DECRYPT (R443): GOP 0x11 decrypts AES-CBC and checks the padding. -/
  | aesCbcDecrypt (p : Pid) (c : Fin 8)
  /-- AES_CTR_ENCRYPT (R443): GOP 0x20 encrypts with AES-CTR under a hardware IV. -/
  | aesCtrEncrypt (p : Pid) (c : Fin 8)
  /-- AES_CTR_DECRYPT (R443): GOP 0x21 decrypts AES-CTR. -/
  | aesCtrDecrypt (p : Pid) (c : Fin 8)
  /-- AES_GCM_ENCRYPT (R443): GOP 0x30 encrypts with AES-GCM, emitting IV, ciphertext and tag. -/
  | aesGcmEncrypt (p : Pid) (c : Fin 8)
  /-- AES_GCM_DECRYPT (R443): GOP 0x31 decrypts and verifies AES-GCM. -/
  | aesGcmDecrypt (p : Pid) (c : Fin 8)
  /-- AES_XTS_ENCRYPT (R443): GOP 0x40 encrypts one XTS data unit. -/
  | aesXtsEncrypt (p : Pid) (c : Fin 8)
  /-- AES_XTS_DECRYPT (R443): GOP 0x41 decrypts one XTS data unit. -/
  | aesXtsDecrypt (p : Pid) (c : Fin 8)
  /-- KEY_EXPORT (R438): GOP 0x50 wraps an exportable slot's key under a KEK slot. -/
  | keyExport (p : Pid) (c : Fin 8)
  /-- KEY_IMPORT (R438): GOP 0x51 unwraps a key into an EMPTY slot with a fresh instance. -/
  | keyImport (p : Pid) (c : Fin 8)
  /-- KEY_GENERATE (R438): GOP 0x52 fills an EMPTY slot from the DRBG with a fresh instance. -/
  | keyGenerate (p : Pid) (c : Fin 8)
  /-- KEY_ZERO (R438): GOP 0x53 zeroes a slot, which becomes EMPTY. -/
  | keyZero (p : Pid) (c : Fin 8)
  /-- KEY_QUERY (R438): GOP 0x54 returns a slot's attributes, state, instance and next counter. -/
  | keyQuery (p : Pid) (c : Fin 8)
  /-- SHA (R443): GOP 0x60–0x64 computes a SHA-2 or SHA-3 digest. -/
  | sha (p : Pid) (c : Fin 8)
  /-- HMAC_GENERATE (R443): GOP 0x70–0x72 computes an HMAC. -/
  | hmacGenerate (p : Pid) (c : Fin 8)
  /-- HMAC_VERIFY (R443): GOP 0x78–0x7A computes an HMAC and compares it with EXPECT. -/
  | hmacVerify (p : Pid) (c : Fin 8)
  /-- ECDSA_P_384_VERIFY (R443): GOP 0x80 verifies an ECDSA P-384 signature twice and compares verdicts. -/
  | ecdsaP384Verify (p : Pid) (c : Fin 8)
  /-- GARNET_UNIT_COMPLETE (R448): A lane's two datapaths finish a 4 KiB unit and the agreed result is
  written. -/
  | garnetUnitComplete (lane : Fin 16) (agree : Bool)
  /-- KEY_STORE_ENABLE (R439): Setting GNT.KSBASE.EN recovers the KSK from copy A or B or draws a new one. -/
  | keyStoreEnable
  /-- PSLOT_WRITE (R435): A GNT.PSLOT write zeroes slots leaving the range and sets the partition's slot
  range. -/
  | pslotWrite (p : Pid) (v : W64)
  /-- FAULT_ACK (R463): Writing FLT.CTL.ACK = 1 marks an unacknowledged record acknowledged. -/
  | faultAck (b : BitVec 7)
  /-- FAULT_CLEAR (R465): Writing FLT.CTL.CLR = 1 clears a record, or is refused while its cause persists. -/
  | faultClear (b : BitVec 7)
  /-- COUNTER_EVENT (R473): A counted event increments an enabled counter, setting OVF on wrap. -/
  | counterEvent (b : Fin 0x73) (event : BitVec 12) (thr : Bool)
  /-- SNAPSHOT (R480): A Gatherer context's interval falls due; blocks latch counters and records are written
  to the ring. -/
  | snapshot (g : Fin 16) (late : Bool)
  /-- SAMPLE_TAG (R483): At a pseudo-random point in each 2^N instructions the core tags one instruction or
  drops the tag. -/
  | sampleTag (c : CoreId) (thr : Bool)
  /-- SAMPLE_RECORD (R484): A tagged instruction retires, flushes or faults and its sample record is written.
  -/
  | sampleRecord (c : CoreId) (outcome exc src : BitVec 8) (daddr : W64) (fd di ic cr : BitVec 16)
  /-- CLOCK_VALID_RISE (R488): An island's PLL locks and 64 stable cycles pass, raising clock-valid. -/
  | clockValidRise (i : Island)
  /-- CLOCK_VALID_DROP (R491): Clock-valid dropping puts the island in reset-hold and reacts by island. -/
  | clockValidDrop (i : Island)
  /-- REFCLK_LOSS (R488): A reference clock without edges for its limit drops clock-valid of dependent
  islands. -/
  | refclkLoss (ref : RefClk)
  /-- AUX_POWER_ON (R500): AUX passing 2.6 V ends the AUX cold reset and start-up begins. -/
  | auxPowerOn (errs : List (Fin 64 × Bool))
  /-- AUX_COLD_RESET (R495): AUX below 2.5 V for 10 µs resets everything and turns the MAIN regulators off. -/
  | auxColdReset
  /-- MAIN_POWER_GOOD (R500): Every rail in regulation asserts MAIN power-good and the reset controller
  releases islands. -/
  | mainPowerGood (errs : List (Fin 64 × Bool))
  /-- MAIN_POWER_GOOD_LOSS (R495): MAIN below 38 V or a rail out of regulation causes a module cold reset and
  Sleep. -/
  | mainPowerGoodLoss
  /-- RESET_N (R495): RESET_N low for 1 µs causes a module cold reset held while low. -/
  | resetN
  /-- WARM_N (R495): WARM_N low for 1 µs causes a module warm reset. -/
  | warmN (low : Bool)
  /-- MODULE_COLD_RESET (R494): A module cold reset clears all MAIN-domain state and reruns start-up from
  power-good. -/
  | moduleColdReset (src : BitVec 8)
  /-- MODULE_WARM_RESET (R494): A module warm reset drains to DRAM, enters self-refresh and restarts keeping
  memory. -/
  | moduleWarmReset (src : BitVec 8)
  /-- RST_CMD_MODULE_COLD (R497): RST.CMD with KIND 0x2 and the key starts a module cold reset. -/
  | rstCmdModuleCold (key : BitVec 16)
  /-- RST_CMD_MODULE_WARM (R497): RST.CMD with KIND 0x3 and the key starts a module warm reset. -/
  | rstCmdModuleWarm (key : BitVec 16)
  /-- RST_CMD_PARTITION (R497): RST.CMD with KIND 0x4 and the key resets a partition. -/
  | rstCmdPartition (p : BitVec 6) (key : BitVec 16)
  /-- RST_CMD_CORE (R497): RST.CMD with KIND 0x5 and the key resets a spare or deconfigured core. -/
  | rstCmdCore (c : BitVec 6) (key : BitVec 16)
  /-- PARTITION_THREAD_START (R502): Once QUIESCED and engine contexts read disabled, Rootstock starts the
  partition's threads by ERET. -/
  | partitionThreadStart (t : ThreadId) (p : Pid) (lcore : BitVec 6) (c0r : Bool)
  /-- WATCHDOG_ENABLE (R497): Setting RST.WDOG.EN starts the watchdog. -/
  | watchdogEnable
  /-- HBEAT (R497): Any write of RST.HBEAT restarts the watchdog period. -/
  | hbeat
  /-- WATCHDOG_EXPIRY (R497): No heartbeat within RST.WDOG.MS causes a module warm reset. -/
  | watchdogExpiry
  /-- BLOCK_RESET_AND_RELEASE (R499): RST.BLKCTL CMD 0b01 idles, resets and then releases an island. -/
  | blockResetAndRelease (i : Island)
  /-- BLOCK_RESET_AND_HOLD (R499): RST.BLKCTL CMD 0b10 idles and resets an island and holds it. -/
  | blockResetAndHold (i : Island)
  /-- BLOCK_RELEASE (R499): RST.BLKCTL CMD 0b11 releases a held island while its clock-valid holds. -/
  | blockRelease (i : Island)
  /-- BLOCK_IDLE (R499): The island's blocks go idle and reset is asserted for 64 cycles. -/
  | blockIdle (i : Island)
  /-- BLOCK_IDLE_TIMEOUT (R499): RST.IDLETO passing forces the island reset and records 0x0114. -/
  | blockIdleTimeout (i : Island)
  /-- ROOTSTOCK_IMAGE_VERIFIED (R501): The Rootstock image is read and verified, falling back to IMGB, and the
  boot thread is released. -/
  | rootstockImageVerified (failing : List CoreId) (a b : Bool) (image record : List Byte) (entry start : W64)
  /-- ENTER_DOZE (R505): PWR.CTL.REQ = 0b01 drains and enters Doze unless refused. -/
  | enterDoze
  /-- ENTER_SLEEP (R505): PWR.CTL.REQ = 0b10 enters Sleep unless refused. -/
  | enterSleep
  /-- WAKE (R505): A wake source returns the module from Doze or Sleep to Run. -/
  | wake (src : BitVec 4)
  /-- ISSUE_LIMIT (R506): A junction sensor at 93 °C limits its tile to 4 issues per cycle, lifted below 90
  °C. -/
  | issueLimit (tile : Fin 4) (celsius : BitVec 7)
  /-- THERMAL_TRIP (R506): A junction at 100 °C drives THERM_N, records FATAL 0x0B02 and enters Sleep. -/
  | thermalTrip
  /-- HARDWARE_BACKSTOP (R557): At 105 °C Coldframe hardware turns the MAIN regulators off within 100 µs. -/
  | hardwareBackstop
  /-- OPEN (R524): An OPEN PDU starts a session and the module answers CHALLENGE with a nonce. -/
  | openSession (port : Bool) (mac : BitVec 48) (pdu : List Byte) (n : BitVec 16)
  /-- AUTH (R524): An AUTH PDU is verified; the module answers OPENED or refuses and audits. -/
  | auth (port : Bool) (mac : BitVec 48) (pdu : List Byte) (durable : Bool)
  /-- AUTH_TIMEOUT (R524): No AUTH within 1 s of CHALLENGE ends the opening. -/
  | authTimeout (session : BitVec 16)
  /-- LOCKOUT_END (R528): A locked-out role accepts OPEN again after the Lockout Time. -/
  | lockoutEnd (role : BitVec 3)
  /-- CLOSE (R528): A CLOSE PDU closes the session. -/
  | close (port : Bool) (mac : BitVec 48) (pdu : List Byte)
  /-- SESSION_IDLE_TIMEOUT (R528): A session without a valid request for the Idle Timeout closes. -/
  | sessionIdleTimeout (session : BitVec 16)
  /-- READ (R523): A READ request returns an object's value. -/
  | read (req : DictReq)
  /-- WRITE (R512): A WRITE request is checked, audited and applied to an object by its effect class. -/
  | write (req : DictReq) (durable : Bool)
  /-- READSEG (R527): A READSEG returns a 1,024-byte segment of a BLOB snapshot. -/
  | readseg (req : DictReq)
  /-- WRITESEG (R527): A WRITESEG stages a BLOB segment, applying the object at the final segment. -/
  | writeseg (req : DictReq) (durable : Bool)
  /-- SEGMENT_EXPIRY (R527): A read snapshot or write staging idle for 10 s is discarded. -/
  | segmentExpiry (session : BitVec 16) (obj : BitVec 24) (write : Bool)
  /-- DESCRIBE (R511): A DESCRIBE request returns an object's rights, default, persistence and effect. -/
  | describe (req : DictReq)
  /-- SUBSCRIBE (R529): A SUBSCRIBE request adds an object to the session's subscriptions. -/
  | subscribe (req : DictReq)
  /-- UNSUBSCRIBE (R529): An UNSUBSCRIBE request removes a subscription. -/
  | unsubscribe (req : DictReq)
  /-- NOTIFICATION (R529): A subscribed object's change sends a notification, at most one per 100 ms. -/
  | notification (session : BitVec 16) (obj : BitVec 24)
  /-- OTHER_FRAME (R522): A frame of another EtherType or an unparsable PDU is discarded and counted. -/
  | otherFrame
  /-- POWER_COMMAND (R516): A write of Power Command requests Run, Doze or Sleep. -/
  | powerCommand (req : DictReq) (durable : Bool)
  /-- MODULE_RESET_OBJECT (R516): A write of Module Reset starts an AUX cold, module cold or module warm reset
  after the response. -/
  | moduleResetObject (req : DictReq) (durable : Bool)
  /-- GATE_REQUEST_OBJECT (R516): A write of Gate Request places a request in PWR.GATEREQ with SRC =
  dictionary. -/
  | gateRequestObject (req : DictReq) (durable : Bool)
  /-- KEK_LOAD (R521): A KEK Load write unwraps a KEK under the session key into an EMPTY slot. -/
  | kekLoad (req : DictReq) (durable : Bool)
  /-- PARTITION_START (R517): Control value 1 starts a stopped partition. -/
  | partitionStart (req : DictReq) (durable : Bool)
  /-- PARTITION_STOP (R517): Control value 2 resets the partition and holds its threads. -/
  | partitionStop (req : DictReq) (durable : Bool)
  /-- CONTROL_RESET (R517): Control value 3 resets the partition, refused while it is resetting. -/
  | controlReset (req : DictReq) (durable : Bool)
  /-- CFM_CHG (R513): A read of CFM.CHG removes the oldest queued effect-S object number, which Rootstock
  applies. -/
  | cfmChg (t : ThreadId)
  /-- CFM_STCS (R546): A read of CFM.STCS latches the matching CFM.STCN for the thread. -/
  | cfmStcs (t : ThreadId)
  /-- MAKER_DEBUG (R535): A write of 1 to Maker Debug with MAKER_EN high zeroes keys and starts the
  zeroisation reset. -/
  | makerDebug (req : DictReq) (durable high : Bool)
  /-- ZEROISATION_COMPLETE (R536): DRAM is zeroed; a MAKERCNT bit is set and maker debug opens if MAKER_EN is
  still high. -/
  | zeroisationComplete (high : Bool)
  /-- STC_ADVANCE (R539): Each Coldframe cycle advances the STC by the servo-controlled increment. -/
  | stcAdvance
  /-- SYNC (R542): A PTP Sync (with Follow_Up) updates the offset and steers or steps the STC. -/
  | sync (port : Bool) (source : BitVec 80) (domain : BitVec 8) (t1 : BitVec 80)
  /-- ANNOUNCE (R541): A PTP Announce feeds the best master clock choice and UTC offset. -/
  | announce (port : Bool) (source : BitVec 80) (domain prio1 cls acc : BitVec 8) (var : BitVec 16) (prio2 : BitVec 8) (gm : W64) (steps utc : BitVec 16)
  /-- DELAY_RESP (R541): A PTP Delay_Resp completes a delay request-response measurement. -/
  | delayResp (port : Bool) (source : BitVec 80) (domain : BitVec 8) (seq : BitVec 16) (t4 : BitVec 80)
  /-- ANNOUNCE_RECEIPT_TIMEOUT (R542): Missing Announce or Sync puts the STC into HOLDOVER and records 0x0D02.
  -/
  | announceReceiptTimeout (announce : Bool)
  /-- HOLDOVER_LIMIT_EXPIRY (R542): After the Holdover Limit the sync state becomes FREE. -/
  | holdoverLimitExpiry
  /-- PPS_IN (R543): A PPS_IN rising edge marks a second boundary and steers the STC. -/
  | ppsIn (high : Bool)
  /-- PPS_IN_MISSING (R543): Three missing PPS_IN edges lead to HOLDOVER. -/
  | ppsInMissing
  /-- PPS_OUT (R543): At each STC second boundary PPS_OUT rises for 100 ms when enabled. -/
  | ppsOut
  /-- STC_ALARM (R545): The STC reaching the alarm fires once, waking from Sleep and notifying. -/
  | stcAlarm
  /-- REGISTER_WRITE (R10): A write to a module register with no row of its own updates its fields by access
  code and R11. -/
  | registerWrite (addr : BitVec 48) (value : W64)
  /-- ILLEGAL_INSTRUCTION (R60): An instruction word with an unassigned major opcode, an unlisted fn or xop, a
  non-zero must-be-zero field or an integer register field of 40–63 takes Illegal Instruction. -/
  | illegalInstruction (t : ThreadId) (word : BitVec 32)
  /-- MAIN_RETURN (R552): MAIN rising above 39 V lets Coldframe enable the regulators, applying the pending
  module cold reset and leaving Sleep when AUTOON = 1. -/
  | mainReturn
  /-- RESET_N_RELEASE (R495): RESET_N returning high ends the held module cold reset, and start-up proceeds
  from step 6 of R500. -/
  | resetNRelease
  /-- MANAGEMENT_PORT_LINK_DOWN (R547): A 10BASE-T1S management port losing its link clears CFM.STAT.LINK and
  records CORRECTED 0x0D06. -/
  | managementPortLinkDown (port : Bool)
  /-- MANAGEMENT_PORT_LINK_UP (R546): A management port regaining its link sets CFM.STAT.LINK, and the
  persisting cause of 0x0D06 ends. -/
  | managementPortLinkUp (port : Bool)
  /-- REGISTER_READ (R10): A read of a module register with read-side behaviour, such as an RC field, SCN.STAT
  or PWR.GATEREQ, returns the value and then clears it or ends the pending level 15 or level 13. -/
  | registerRead (t : ThreadId) (addr : BitVec 48)
  /-- DELAY_REQUEST (R541): At the master's logMinDelayReqInterval the module sends a PTP Delay_Req and
  timestamps it for the delay request-response measurement. -/
  | delayRequest
  /-- DMA_CEILING_INTERVAL (R358): Each 10 µs measurement interval of a DMA ceiling ends, and Trellis admits
  the DMA requests it held for exceeding that ceiling. -/
  | dmaCeilingInterval (p : Pid) (set : SetNo)
  /-- ECDSA_VERIFY_COMPLETE (R433): The ECDSA unit finishes its two sequential P-384 verifications, compares
  the verdicts and completes the job. -/
  | ecdsaVerifyComplete (p : Pid) (c : Fin 8) (agree : Bool)
  deriving DecidableEq, Repr

end Sys2Proof
end

