-- ==== Sys2Proof/Decode.lean ====
section
/-! DEFINITION. The encodings of the KZA instructions (03 R58-R62 and the tables of 03), and the reading of a
word by the table's bits, which spells no command: no row of the table has bits. -/

namespace Sys2Proof

/-- Field `[hi:lo]` of an instruction word, `n` bits wide. -/
def wordField (n : Nat) (w : BitVec 32) (lo : Nat) : BitVec n := (w >>> lo).setWidth n

def wOp (w : BitVec 32) : Nat := (wordField 6 w 26).toNat
def wRd (w : BitVec 32) : BitVec 6 := wordField 6 w 20
def wRs (w : BitVec 32) : BitVec 6 := wordField 6 w 14
def wRt (w : BitVec 32) : BitVec 6 := wordField 6 w 8
def wFn (w : BitVec 32) : Nat := (wordField 8 w 0).toNat
def wImm (w : BitVec 32) : BitVec 14 := wordField 14 w 0

/-- An integer register field (R28, R60). -/
def intReg (r : BitVec 6) : Bool := decide (r.toNat < 40)

def optIf {α : Type} (c : Bool) (x : α) : Option α := if c then some x else none

/-- ALU group: operation and F form (R65). -/
def aluFn (fn : Nat) : Option (AluOp × Bool) :=
  match fn with
  | 0x00 => some (.add, false) | 0x01 => some (.add, true)
  | 0x02 => some (.sub, false) | 0x03 => some (.sub, true)
  | 0x04 => some (.adc, false) | 0x05 => some (.adc, true)
  | 0x06 => some (.sbc, false) | 0x07 => some (.sbc, true)
  | 0x08 => some (.and, false) | 0x09 => some (.and, true)
  | 0x0A => some (.or, false) | 0x0B => some (.or, true)
  | 0x0C => some (.xor, false) | 0x0D => some (.xor, true)
  | 0x0E => some (.andn, false) | 0x0F => some (.andn, true)
  | 0x10 => some (.sll, false) | 0x11 => some (.sll, true)
  | 0x12 => some (.srl, false) | 0x13 => some (.srl, true)
  | 0x14 => some (.sra, false) | 0x15 => some (.sra, true)
  | 0x16 => some (.rol, false) | 0x18 => some (.ror, false)
  | 0x20 => some (.min, false) | 0x22 => some (.max, false)
  | 0x24 => some (.minu, false) | 0x26 => some (.maxu, false)
  | _ => none

/-- Format B arithmetic (R67). -/
def immOp (op : Nat) : Option ImmOp :=
  match op with
  | 0x02 => some .addi | 0x03 => some .addif | 0x04 => some .subif | 0x05 => some .andi
  | 0x06 => some .ori | 0x07 => some .xori | 0x08 => some .muli
  | _ => none

/-- Format G shifts, by xop[13:8] (R67). -/
def shiftFn (x : Nat) : Option ShiftOp :=
  match x with
  | 0 => some .slli | 1 => some .sllif | 2 => some .srli | 3 => some .srlif
  | 4 => some .srai | 5 => some .sraif | 6 => some .roli | 8 => some .rori
  | _ => none

/-- MULDIV group (R68). -/
def mulFn (fn : Nat) : Option (MulOp × Bool) :=
  match fn with
  | 0x00 => some (.mul, false) | 0x01 => some (.mul, true)
  | 0x02 => some (.mulh, false) | 0x04 => some (.mulhu, false)
  | 0x08 => some (.div, false) | 0x09 => some (.div, true)
  | 0x0A => some (.divu, false) | 0x0B => some (.divu, true)
  | 0x0C => some (.rem, false) | 0x0E => some (.remu, false)
  | _ => none

/-- BIT group (R69). -/
def bitFn (fn : Nat) : Option BitOp :=
  match fn with
  | 0x00 => some .parD | 0x01 => some .parB | 0x04 => some .brevD | 0x05 => some .brevW
  | 0x06 => some .brevB | 0x08 => some .bswapD | 0x09 => some .bswapW | 0x0A => some .bswapH
  | 0x0C => some .clz | 0x0D => some .ctz | 0x0E => some .popc
  | 0x10 => some .sextB | 0x11 => some .sextH | 0x12 => some .sextW | 0x13 => some .zextW
  | _ => none

/-- CRC polynomials by fn[5:4] (R70). -/
def crcPoly (n : BitVec 2) : CrcPoly :=
  match n.toNat with
  | 0 => .crc32 | 1 => .crc32c | 2 => .crc16 | _ => .crc64

/-- Loads by opcode, and by the MEMX group's fn (R72). -/
def loadOpc (op : Nat) : Option LoadOp :=
  match op with
  | 0x11 => some .ldb | 0x12 => some .ldbu | 0x13 => some .ldh | 0x14 => some .ldhu
  | 0x15 => some .ldw | 0x16 => some .ldwu | 0x17 => some .ldd
  | 0x1C => some .ldfs | 0x1D => some .ldfd | 0x1E => some .ldfq
  | _ => none

def loadFn (fn : Nat) : Option LoadOp :=
  match fn with
  | 0x00 => some .ldb | 0x01 => some .ldbu | 0x02 => some .ldh | 0x03 => some .ldhu
  | 0x04 => some .ldw | 0x05 => some .ldwu | 0x06 => some .ldd
  | 0x10 => some .ldfs | 0x11 => some .ldfd | 0x12 => some .ldfq
  | _ => none

/-- Stores by opcode, and by the MEMX group's fn (R72). -/
def storeOpc (op : Nat) : Option StoreOp :=
  match op with
  | 0x18 => some .stb | 0x19 => some .sth | 0x1A => some .stw | 0x1B => some .std
  | 0x1F => some .stfs | 0x20 => some .stfd | 0x21 => some .stfq
  | _ => none

def storeFn (fn : Nat) : Option StoreOp :=
  match fn with
  | 0x08 => some .stb | 0x09 => some .sth | 0x0A => some .stw | 0x0B => some .std
  | 0x18 => some .stfs | 0x19 => some .stfd | 0x1A => some .stfq
  | _ => none

def LoadOp.isF : LoadOp → Bool
  | .ldfs | .ldfd | .ldfq => true
  | _ => false

def StoreOp.isF : StoreOp → Bool
  | .stfs | .stfd | .stfq => true
  | _ => false

/-- ATOM group but for STCD: operation and doubleword form (R79). -/
def atomFn (fn : Nat) : Option (AtomOp × Bool) :=
  match fn with
  | 0x00 => some (.swap, false) | 0x01 => some (.swap, true)
  | 0x02 => some (.cas, false) | 0x03 => some (.cas, true)
  | 0x04 => some (.aadd, false) | 0x05 => some (.aadd, true)
  | 0x06 => some (.aand, false) | 0x07 => some (.aand, true)
  | 0x08 => some (.aor, false) | 0x09 => some (.aor, true)
  | 0x0A => some (.axor, false) | 0x0B => some (.axor, true)
  | _ => none

/-- SYS group: xop[13:8], then xop[7:0] (R83, R84). -/
def sysFn (t : ThreadId) (x : Nat) (arg : BitVec 8) : Option Instr :=
  match x with
  | 0x00 => optIf (arg == 0) (.nop t)
  | 0x01 => optIf (arg == 0) (.eret t)
  | 0x02 => optIf (arg == 0) (.secall t)
  | 0x03 => optIf (arg == 0) (.hcall t)
  | 0x04 => some (.trap t arg)
  | 0x05 => optIf (arg == 0) (.brk t)
  | 0x06 => optIf (arg == 0) (.wflush t)
  | 0x08 => optIf (arg != 0 && decide (arg.toNat < 16)) (.barC t arg)
  | 0x09 => optIf (arg != 0 && decide (arg.toNat < 16)) (.barT t arg)
  | 0x0A => optIf (arg != 0 && decide (arg.toNat < 16)) (.barS t arg)
  | 0x0C => optIf (arg == 0) (.wait t)
  | _ => none

/-- Formats by fn[7:6] (R92). -/
def fpbFmt (n : BitVec 2) : Option FpFmt :=
  match n.toNat with
  | 0 => some .b32 | 1 => some .b64 | 2 => some .b128 | _ => none

def fpdFmt (n : BitVec 2) : Option FpFmt :=
  match n.toNat with
  | 0 => some .d64 | 1 => some .d128 | _ => none

/-- What the rd, rs and rt fields of an operation must be: an integer register, an f register, or 0. -/
inductive FieldKind where
  | int | fp | zero
  deriving DecidableEq, Repr

def FieldKind.ok (k : FieldKind) (r : BitVec 6) : Bool :=
  match k with
  | .int => intReg r
  | .fp => true
  | .zero => r == 0

/-- FPB and FPD operations but DQUANT, with the kinds of rd, rs and rt (R92). -/
def fpFn (n : Nat) : Option (FpOp × FieldKind × FieldKind × FieldKind) :=
  match n with
  | 0x00 => some (.add, .fp, .fp, .fp) | 0x01 => some (.sub, .fp, .fp, .fp)
  | 0x02 => some (.mul, .fp, .fp, .fp) | 0x03 => some (.div, .fp, .fp, .fp)
  | 0x04 => some (.sqrt, .fp, .fp, .zero)
  | 0x05 => some (.min, .fp, .fp, .fp) | 0x06 => some (.max, .fp, .fp, .fp)
  | 0x08 => some (.cmp, .zero, .fp, .fp)
  | 0x10 => some (.cvt .b32, .fp, .fp, .zero) | 0x11 => some (.cvt .b64, .fp, .fp, .zero)
  | 0x12 => some (.cvt .b128, .fp, .fp, .zero) | 0x13 => some (.cvt .d64, .fp, .fp, .zero)
  | 0x14 => some (.cvt .d128, .fp, .fp, .zero)
  | 0x18 => some (.cvti true, .int, .fp, .zero) | 0x19 => some (.cvti false, .int, .fp, .zero)
  | 0x1A => some (.cvtf true, .fp, .int, .zero) | 0x1B => some (.cvtf false, .fp, .int, .zero)
  | 0x20 => some (.movfi, .int, .fp, .zero) | 0x21 => some (.movfih, .int, .fp, .zero)
  | 0x22 => some (.movif, .fp, .int, .zero) | 0x23 => some (.movifh, .fp, .int, .zero)
  | 0x24 => some (.mov, .fp, .fp, .zero) | 0x25 => some (.neg, .fp, .fp, .zero)
  | 0x26 => some (.abs, .fp, .fp, .zero)
  | _ => none

/-- MOVFI and MOVFIH accept every fn[7:6] (R92). -/
def fmtFree (n : Nat) : Bool := n == 0x20 || n == 0x21

/-- The operation of an FPB or FPD word. -/
def fpWord (dec : Bool) (w : BitVec 32) : Option (FpFmt × FpOp) :=
  let n := wFn w % 64
  let sel : BitVec 2 := wordField 2 w 6
  let fmt := if fmtFree n then some (if dec then .d64 else .b32) else if dec then fpdFmt sel else fpbFmt sel
  match fmt, fpFn n with
  | some f, some (op, a, b, c) => optIf (a.ok (wRd w) && b.ok (wRs w) && c.ok (wRt w)) (f, op)
  | _, _ => none

/-- Format C addressing. -/
def wDisp (w : BitVec 32) : AddrMode := .disp (wRs w) (wImm w)

/-- The three register fields of format A name integer registers. -/
def ints3 (w : BitVec 32) : Bool := intReg (wRd w) && intReg (wRs w) && intReg (wRt w)

/-- Opcodes 0x01 to 0x10 (R65-R71). -/
def decodeLow (t : ThreadId) (w : BitVec 32) : Option Instr :=
  let imm20 : BitVec 20 := wordField 20 w 0
  match wOp w with
  | 0x01 => match aluFn (wFn w) with
    | some (op, f) => optIf (ints3 w) (.aluGroup t op f (wRd w) (wRs w) (wRt w))
    | none => none
  | 0x09 => match shiftFn (wordField 6 w 8).toNat with
    | some op => optIf (intReg (wRd w) && intReg (wRs w) && (wordField 2 w 6 : BitVec 2) == 0)
        (.shifti t op (wRd w) (wRs w) (wordField 6 w 0))
    | none => none
  | 0x0A => match bitFn (wFn w) with
    | some op => optIf (intReg (wRd w) && intReg (wRs w) && wRt w == 0) (.bitGroup t op (wRd w) (wRs w))
    | none => none
  | 0x0B => optIf (ints3 w && wFn w % 16 == 0) (.crc t (crcPoly (wordField 2 w 4)) (wordField 2 w 6) (wRd w) (wRs w) (wRt w))
  | 0x0C => match mulFn (wFn w) with
    | some (op, f) => optIf (ints3 w) (.muldiv t op f (wRd w) (wRs w) (wRt w))
    | none => none
  | 0x0D => optIf (intReg (wRd w)) (.ldi t (wRd w) imm20)
  | 0x0E => optIf (intReg (wRd w)) (.ldu t (wRd w) imm20)
  | 0x0F => optIf (intReg (wRd w)) (.addpc t (wRd w) imm20)
  | 0x10 => optIf (intReg (wRd w)) (.ldpc t (wRd w) imm20)
  | op => match immOp op with
    | some o => optIf (intReg (wRd w) && intReg (wRs w)) (.immediate t o (wRd w) (wRs w) (wImm w))
    | none => none

/-- Opcodes 0x11 to 0x27 (R72-R79). -/
def decodeMem (t : ThreadId) (w : BitVec 32) : Option Instr :=
  let rd := wRd w
  let rb := intReg (wRs w)
  match wOp w with
  | 0x22 =>
    let ri := rb && intReg (wRt w)
    match loadFn (wFn w), storeFn (wFn w) with
    | some op, _ => optIf (ri && (op.isF || intReg rd)) (.load t op rd (.index (wRs w) (wRt w)))
    | none, some op => optIf (ri && (op.isF || intReg rd)) (.store t op rd (.index (wRs w) (wRt w)))
    | none, none => none
  | 0x23 => optIf (rb && intReg rd) (.ldrv t rd (wRs w) (wImm w))
  | 0x24 =>
    if wFn w = 0x10 then optIf (ints3 w) (.stcd t false rd (wRt w) (wRs w))
    else match atomFn (wFn w) with
      | some (op, d) => optIf (ints3 w) (.atomGroup t op d rd (wRs w) (wRt w))
      | none => none
  | 0x25 => optIf (rb && intReg rd) (.stnt t false rd (wRs w) (wImm w))
  | 0x26 => optIf rb (.stnt t true rd (wRs w) (wImm w))
  | 0x27 => optIf rb (.pref t rd (wRs w) (wImm w))
  | op => match loadOpc op, storeOpc op with
    | some o, _ => optIf (rb && (o.isF || intReg rd)) (.load t o rd (wDisp w))
    | none, some o => optIf (rb && (o.isF || intReg rd)) (.store t o rd (wDisp w))
    | none, none => none

/-- Opcodes 0x28 to 0x3A (R80-R93). -/
def decodeHigh (t : ThreadId) (w : BitVec 32) : Option Instr :=
  let cond : BitVec 4 := wordField 4 w 22
  let brs : BitVec 6 := wordField 6 w 16
  let rd := wRd w
  let rs := wRs w
  match wOp w with
  | 0x28 => optIf (cond != 15 && brs == 0) (.bcc t cond (wordField 16 w 0))
  | 0x29 => optIf (decide (cond.toNat < 8) && intReg brs) (.brr t cond brs (wordField 16 w 0))
  | 0x2A => some (.br t (wordField 26 w 0))
  | 0x2B => some (.call t (.rel (wordField 26 w 0)))
  | 0x2C => optIf (intReg rd && intReg rs) (.jr t rd rs (wImm w))
  | 0x2D => optIf (rd == 0 && intReg rs) (.call t (.reg rs (wImm w)))
  | 0x2E => optIf (rd == 0 && rs == 0 && wImm w == 0) (.ret t)
  | 0x2F => if rd == 0 && rs == 0 then sysFn t (wordField 6 w 8).toNat (wordField 8 w 0) else none
  | 0x30 => optIf (intReg rd && rs == 0 && (wordField 2 w 12 : BitVec 2) == 0) (.mfsr t rd (wordField 12 w 0))
  | 0x31 =>
    if rd == 0 && intReg rs && (wordField 2 w 12 : BitVec 2) == 0 then
      some (if (wordField 12 w 0 : BitVec 12) = 0x008 then .ipisend t rs else .mtsr t rs (wordField 12 w 0))
    else none
  | 0x32 => match fpWord false w with
    | some (f, op) => some (.fpb t f op rd rs (wRt w))
    | none => none
  | 0x33 =>
    if wFn w % 64 = 0x30 then match fpdFmt (wordField 2 w 6) with
      | some f => some (.dquant t f rd rs (wRt w))
      | none => none
    else match fpWord true w with
      | some (f, op) => some (.fpd t f op rd rs (wRt w))
      | none => none
  | 0x34 => fma fpbFmt false
  | 0x35 => fma fpbFmt true
  | 0x36 => fma fpdFmt false
  | 0x37 => fma fpdFmt true
  | 0x38 => optIf (ints3 w && wFn w == 0) (.xpost t rd rs (wRt w))
  | 0x39 => optIf (ints3 w && decide (wFn w < 2)) (.ecall t (if wFn w = 0 then .sieve else .garnet) rd rs (wRt w))
  | 0x3A => optIf (ints3 w && wFn w == 0 && rd != 0 && rs != 0 && wRt w != 0 && rd != rs && rd != wRt w && rs != wRt w)
      (.bmov t rd rs (wRt w))
  | _ => none
where
  fma (fmt : BitVec 2 → Option FpFmt) (sub : Bool) : Option Instr :=
    match fmt (wordField 2 w 6) with
    | some f => some (.fma t f sub (wRd w) (wRs w) (wRt w) (wordField 6 w 0))
    | none => none

/-- The instruction that a word is; none where it takes Illegal Instruction (R60, R62). A store-conditional is
given as one that the module does not fail. -/
def decodeKza (t : ThreadId) (w : BitVec 32) : Option Instr :=
  if wOp w ≤ 0x10 then decodeLow t w
  else if wOp w ≤ 0x27 then decodeMem t w
  else decodeHigh t w

/-! ## The encoder -/

/-- Format A: opcode, rd, rs, rt, fn (R58). -/
def wordA (op : BitVec 6) (rd rs rt : BitVec 6) (fn : BitVec 8) : BitVec 32 := op ++ rd ++ rs ++ rt ++ fn
/-- Formats B and C: opcode, rd, rs, imm14. -/
def wordB (op : BitVec 6) (rd rs : BitVec 6) (imm : BitVec 14) : BitVec 32 := op ++ rd ++ rs ++ imm
/-- Format D: opcode, rd, imm20. -/
def wordD (op : BitVec 6) (rd : BitVec 6) (imm : BitVec 20) : BitVec 32 := op ++ rd ++ imm
/-- Format E: opcode, cond, rs, disp16. -/
def wordE (op : BitVec 6) (cond : BitVec 4) (rs : BitVec 6) (disp : BitVec 16) : BitVec 32 := op ++ cond ++ rs ++ disp

def aluCode : AluOp → BitVec 8
  | .add => 0x00 | .sub => 0x02 | .adc => 0x04 | .sbc => 0x06 | .and => 0x08 | .or => 0x0A | .xor => 0x0C
  | .andn => 0x0E | .sll => 0x10 | .srl => 0x12 | .sra => 0x14 | .rol => 0x16 | .ror => 0x18
  | .min => 0x20 | .max => 0x22 | .minu => 0x24 | .maxu => 0x26

/-- Is the F form one that R65 lists? -/
def aluF : AluOp → Bool
  | .rol | .ror | .min | .max | .minu | .maxu => false
  | _ => true

def immCode : ImmOp → BitVec 6
  | .addi => 0x02 | .addif => 0x03 | .subif => 0x04 | .andi => 0x05 | .ori => 0x06 | .xori => 0x07 | .muli => 0x08

def shiftCode : ShiftOp → BitVec 6
  | .slli => 0 | .sllif => 1 | .srli => 2 | .srlif => 3 | .srai => 4 | .sraif => 5 | .roli => 6 | .rori => 8

def mulCode : MulOp → BitVec 8
  | .mul => 0x00 | .mulh => 0x02 | .mulhu => 0x04 | .div => 0x08 | .divu => 0x0A | .rem => 0x0C | .remu => 0x0E

/-- Is the F form one that R68 lists? -/
def mulF : MulOp → Bool
  | .mul | .div | .divu => true
  | _ => false

def bitCode : BitOp → BitVec 8
  | .parD => 0x00 | .parB => 0x01 | .brevD => 0x04 | .brevW => 0x05 | .brevB => 0x06 | .bswapD => 0x08
  | .bswapW => 0x09 | .bswapH => 0x0A | .clz => 0x0C | .ctz => 0x0D | .popc => 0x0E | .sextB => 0x10
  | .sextH => 0x11 | .sextW => 0x12 | .zextW => 0x13

def crcCode : CrcPoly → BitVec 2
  | .crc32 => 0 | .crc32c => 1 | .crc16 => 2 | .crc64 => 3

/-- Opcode, and fn in the MEMX group (R72). -/
def loadCode : LoadOp → BitVec 6 × BitVec 8
  | .ldb => (0x11, 0x00) | .ldbu => (0x12, 0x01) | .ldh => (0x13, 0x02) | .ldhu => (0x14, 0x03)
  | .ldw => (0x15, 0x04) | .ldwu => (0x16, 0x05) | .ldd => (0x17, 0x06)
  | .ldfs => (0x1C, 0x10) | .ldfd => (0x1D, 0x11) | .ldfq => (0x1E, 0x12)

def storeCode : StoreOp → BitVec 6 × BitVec 8
  | .stb => (0x18, 0x08) | .sth => (0x19, 0x09) | .stw => (0x1A, 0x0A) | .std => (0x1B, 0x0B)
  | .stfs => (0x1F, 0x18) | .stfd => (0x20, 0x19) | .stfq => (0x21, 0x1A)

/-- An access of format C, or of the MEMX group. -/
def memWord (code : BitVec 6 × BitVec 8) (rd : BitVec 6) : AddrMode → BitVec 32
  | .disp rb d => wordB code.1 rd rb d
  | .index rs rt => wordA 0x22 rd rs rt code.2

def AddrMode.ok : AddrMode → Bool
  | .disp rb _ => intReg rb
  | .index rs rt => intReg rs && intReg rt

def atomCode : AtomOp → BitVec 8
  | .swap => 0x00 | .cas => 0x02 | .aadd => 0x04 | .aand => 0x06 | .aor => 0x08 | .axor => 0x0A

/-- fn[7:6] of a binary and of a decimal format (R92). -/
def FpFmt.binSel : FpFmt → Option (BitVec 2)
  | .b32 => some 0 | .b64 => some 1 | .b128 => some 2 | _ => none
def FpFmt.decSel : FpFmt → Option (BitVec 2)
  | .d64 => some 0 | .d128 => some 1 | _ => none

def fpCode : FpOp → BitVec 6
  | .add => 0x00 | .sub => 0x01 | .mul => 0x02 | .div => 0x03 | .sqrt => 0x04 | .min => 0x05 | .max => 0x06
  | .cmp => 0x08 | .cvt .b32 => 0x10 | .cvt .b64 => 0x11 | .cvt .b128 => 0x12 | .cvt .d64 => 0x13
  | .cvt .d128 => 0x14 | .cvti true => 0x18 | .cvti false => 0x19 | .cvtf true => 0x1A | .cvtf false => 0x1B
  | .movfi => 0x20 | .movfih => 0x21 | .movif => 0x22 | .movifh => 0x23 | .mov => 0x24 | .neg => 0x25
  | .abs => 0x26

/-- A word of the FPB or FPD group; MOVFI and MOVFIH stand in the first format of their group. -/
def fpEncode (dec : Bool) (fmt : FpFmt) (op : FpOp) (rd rs rt : BitVec 6) : Option (BitVec 32) :=
  let code := fpCode op
  let first := fmt == if dec then .d64 else .b32
  match fpFn code.toNat, if dec then fmt.decSel else fmt.binSel with
  | some (_, a, b, c), some sel => optIf (a.ok rd && b.ok rs && c.ok rt && (!fmtFree code.toNat || first))
      (wordA (if dec then 0x33 else 0x32) rd rs rt (sel ++ code))
  | _, _ => none

/-- A word of the SYS group (R83). -/
def sysWord (x : BitVec 6) (arg : BitVec 8) : BitVec 32 := wordA 0x2F 0 0 x arg

def barOk (mask : BitVec 8) : Bool := mask != 0 && decide (mask.toNat < 16)

/-- The thread and the word of an instruction whose operands its encoding admits; none for every other
command. -/
def encodeKza : Instr → Option (ThreadId × BitVec 32)
  | .aluGroup t op f rd rs rt => optIf (intReg rd && intReg rs && intReg rt && (!f || aluF op))
      (t, wordA 0x01 rd rs rt (aluCode op ||| BitVec.ofNat 8 f.toNat))
  | .immediate t op rd rs imm => optIf (intReg rd && intReg rs) (t, wordB (immCode op) rd rs imm)
  | .shifti t op rd rs amount => optIf (intReg rd && intReg rs) (t, 0x09#6 ++ rd ++ rs ++ shiftCode op ++ 0#2 ++ amount)
  | .bitGroup t op rd rs => optIf (intReg rd && intReg rs) (t, wordA 0x0A rd rs 0 (bitCode op))
  | .crc t poly width rd rs rt => optIf (intReg rd && intReg rs && intReg rt)
      (t, wordA 0x0B rd rs rt (width ++ crcCode poly ++ 0#4))
  | .muldiv t op f rd rs rt => optIf (intReg rd && intReg rs && intReg rt && (!f || mulF op))
      (t, wordA 0x0C rd rs rt (mulCode op ||| BitVec.ofNat 8 f.toNat))
  | .ldi t rd imm => optIf (intReg rd) (t, wordD 0x0D rd imm)
  | .ldu t rd imm => optIf (intReg rd) (t, wordD 0x0E rd imm)
  | .addpc t rd imm => optIf (intReg rd) (t, wordD 0x0F rd imm)
  | .ldpc t rd imm => optIf (intReg rd) (t, wordD 0x10 rd imm)
  | .load t op rd mode => optIf (mode.ok && (op.isF || intReg rd)) (t, memWord (loadCode op) rd mode)
  | .store t op rd mode => optIf (mode.ok && (op.isF || intReg rd)) (t, memWord (storeCode op) rd mode)
  | .ldrv t rd rb d => optIf (intReg rb && intReg rd) (t, wordB 0x23 rd rb d)
  | .stcd t fail rd rt rs => optIf (!fail && intReg rd && intReg rs && intReg rt) (t, wordA 0x24 rd rs rt 0x10)
  | .atomGroup t op dbl rd rs rt => optIf (intReg rd && intReg rs && intReg rt)
      (t, wordA 0x24 rd rs rt (atomCode op ||| BitVec.ofNat 8 dbl.toNat))
  | .stnt t f rd rb d => optIf (intReg rb && (f || intReg rd)) (t, wordB (if f then 0x26 else 0x25) rd rb d)
  | .pref t hint rb d => optIf (intReg rb) (t, wordB 0x27 hint rb d)
  | .bcc t cond d => optIf (cond != 15) (t, wordE 0x28 cond 0 d)
  | .brr t cond rs d => optIf (decide (cond.toNat < 8) && intReg rs) (t, wordE 0x29 cond rs d)
  | .br t d => some (t, 0x2A#6 ++ d)
  | .call t (.rel d) => some (t, 0x2B#6 ++ d)
  | .jr t rd rs imm => optIf (intReg rd && intReg rs) (t, wordB 0x2C rd rs imm)
  | .call t (.reg rs imm) => optIf (intReg rs) (t, wordB 0x2D 0 rs imm)
  | .ret t => some (t, wordB 0x2E 0 0 0)
  | .nop t => some (t, sysWord 0x00 0)
  | .eret t => some (t, sysWord 0x01 0)
  | .secall t => some (t, sysWord 0x02 0)
  | .hcall t => some (t, sysWord 0x03 0)
  | .trap t n => some (t, sysWord 0x04 n)
  | .brk t => some (t, sysWord 0x05 0)
  | .wflush t => some (t, sysWord 0x06 0)
  | .barC t mask => optIf (barOk mask) (t, sysWord 0x08 mask)
  | .barT t mask => optIf (barOk mask) (t, sysWord 0x09 mask)
  | .barS t mask => optIf (barOk mask) (t, sysWord 0x0A mask)
  | .wait t => some (t, sysWord 0x0C 0)
  | .mfsr t rd sr => optIf (intReg rd) (t, wordB 0x30 rd 0 (0#2 ++ sr))
  | .mtsr t rs sr => optIf (intReg rs && sr != 0x008) (t, wordB 0x31 0 rs (0#2 ++ sr))
  | .ipisend t rs => optIf (intReg rs) (t, wordB 0x31 0 rs 0x008)
  | .fpb t fmt op rd rs rt => (fpEncode false fmt op rd rs rt).map fun w => (t, w)
  | .fpd t fmt op rd rs rt => (fpEncode true fmt op rd rs rt).map fun w => (t, w)
  | .dquant t fmt rd rs rt => fmt.decSel.map fun sel => (t, wordA 0x33 rd rs rt (sel ++ 0x30#6))
  | .fma t fmt sub rd rs rt fa =>
    match fmt.binSel, fmt.decSel with
    | some sel, _ => some (t, wordA (if sub then 0x35 else 0x34) rd rs rt (sel ++ fa))
    | none, some sel => some (t, wordA (if sub then 0x37 else 0x36) rd rs rt (sel ++ fa))
    | none, none => none
  | .xpost t rd rs rt => optIf (intReg rd && intReg rs && intReg rt) (t, wordA 0x38 rd rs rt 0)
  | .ecall t e rd rs rt => optIf (intReg rd && intReg rs && intReg rt)
      (t, wordA 0x39 rd rs rt (if e = .sieve then 0 else 1))
  | .bmov t rd rs rt => optIf (intReg rd && intReg rs && intReg rt && rd != 0 && rs != 0 && rt != 0 &&
      rd != rs && rd != rt && rs != rt) (t, wordA 0x3A rd rs rt 0)
  | _ => none

/-- The command that a word spells by the table's bits: the table gives bits to no row. -/
def decodeTableWord (_nbits _w : Nat) : Option Instr := none

end Sys2Proof
end

