-- ==== Sys2Proof/Machine/Map.lean ====
section
/-! DEFINITION. A sparse map as plain data: pairs in rising key order, none equal to what an
unlisted key reads as, so that equal maps are equal lists. Memory, register files and module
registers are such maps. -/

namespace Sys2Proof.Machine

abbrev Map (α : Type) := List (Nat × α)

/-- The value at key `k`; `d k` where `k` is not listed. -/
def Map.get {α : Type} (d : Nat → α) : Map α → Nat → α
  | [], k => d k
  | (j, v) :: m, k => if k = j then v else if k < j then d k else Map.get d m k

/-- The map with key `k` removed. -/
def Map.erase {α : Type} : Map α → Nat → Map α
  | [], _ => []
  | (j, v) :: m, k => if k = j then m else if k < j then (j, v) :: m else (j, v) :: Map.erase m k

/-- The map with `k` listed as `v`. -/
def Map.put {α : Type} : Map α → Nat → α → Map α
  | [], k, v => [(k, v)]
  | (j, w) :: m, k, v =>
    if k = j then (j, v) :: m else if k < j then (k, v) :: (j, w) :: m else (j, w) :: Map.put m k v

/-- The map whose key `k` reads `v`: the entry is removed when `v` is the default. -/
def Map.set {α : Type} [DecidableEq α] (d : Nat → α) (m : Map α) (k : Nat) (v : α) : Map α :=
  if v = d k then Map.erase m k else Map.put m k v

/-- Keys strictly rise from `lo`, and no entry holds its key's default. -/
def Map.wfFrom {α : Type} [DecidableEq α] (d : Nat → α) : Nat → Map α → Bool
  | _, [] => true
  | lo, (j, v) :: m => decide (lo ≤ j) && decide (v ≠ d j) && Map.wfFrom d (j + 1) m

/-- The canonical form. -/
def Map.wf {α : Type} [DecidableEq α] (d : Nat → α) (m : Map α) : Bool := Map.wfFrom d 0 m

end Sys2Proof.Machine
end

