-- ==== Sys2Proof/Machine/Bits.lean ====
section
/-! DEFINITION. Bit fields (R8, R12) and big-endian byte lists. -/

namespace Sys2Proof.Machine

/-- Field `[hi:lo]` of a word, as a number (R8). -/
def fld {w : Nat} (x : BitVec w) (hi lo : Nat) : Nat := (x.toNat / 2 ^ lo) % 2 ^ (hi + 1 - lo)

/-- Bit `[i]`. -/
def bit {w : Nat} (x : BitVec w) (i : Nat) : Bool := x.getLsbD i

/-- `x` with field `[hi:lo]` set to the low bits of `v`. -/
def setFld {w : Nat} (x : BitVec w) (hi lo : Nat) (v : Nat) : BitVec w :=
  BitVec.ofNat w (x.toNat - fld x hi lo * 2 ^ lo + (v % 2 ^ (hi + 1 - lo)) * 2 ^ lo)

def setBit {w : Nat} (x : BitVec w) (i : Nat) (b : Bool) : BitVec w := setFld x i i b.toNat

/-- `n` as `k` bytes, most significant first (R8). -/
def toBytes (k n : Nat) : List Byte :=
  (List.range k).map fun i => BitVec.ofNat 8 (n / 2 ^ (8 * (k - 1 - i)))

/-- The number that a byte list holds, most significant byte first (R8). -/
def ofBytes (bs : List Byte) : Nat := bs.foldl (fun n b => n * 256 + b.toNat) 0

/-- Doubleword at byte offset `off` of a structure (R12). -/
def dwordAt (bs : List Byte) (off : Nat) : W64 := BitVec.ofNat 64 (ofBytes ((bs.drop off).take 8))

/-- Bytes padded with zeros, or cut, to length `n`. -/
def fit (n : Nat) (bs : List Byte) : List Byte := (bs ++ List.replicate (n - bs.length) 0).take n

/-- A structure of doublewords as bytes. -/
def dwords (ws : List W64) : List Byte := ws.flatMap fun w => toBytes 8 w.toNat

/-- A doubleword built from `(hi, lo, value)` fields; bits not named are zero. -/
def pack (fs : List (Nat × Nat × Nat)) : W64 := fs.foldl (fun x f => setFld x f.1 f.2.1 f.2.2) 0

/-- Sign extension of the low `n` bits to 64. -/
def sext64 {w : Nat} (n : Nat) (x : BitVec w) : W64 := (x.setWidth n).signExtend 64

def zext64 {w : Nat} (x : BitVec w) : W64 := x.setWidth 64

end Sys2Proof.Machine
end

