-- ==== Sys2Proof/Machine/Fp.lean ====
section
/-! DEFINITION. Binary and decimal floating point (04 R97-R116): formats, exact results, one
rounding, and the five exception flags. Everything here is a function of its operands. -/

namespace Sys2Proof.Machine

/-- A floating-point format. A finite value is `coef × base ^ exp` with `coef < base ^ p` and
`etiny ≤ exp ≤ etop` (R97, R98). -/
structure Fmt where
  dec : Bool
  w : Nat
  p : Nat
  etiny : Int
  etop : Int
  deriving DecidableEq, Repr

def Fmt.b32 : Fmt := ⟨false, 32, 24, -149, 104⟩
def Fmt.b64 : Fmt := ⟨false, 64, 53, -1074, 971⟩
def Fmt.b128 : Fmt := ⟨false, 128, 113, -16494, 16271⟩
def Fmt.d64 : Fmt := ⟨true, 64, 16, -398, 369⟩
def Fmt.d128 : Fmt := ⟨true, 128, 34, -6176, 6111⟩

def Fmt.base (f : Fmt) : Nat := if f.dec then 10 else 2

/-- A datum: a NaN with its payload, an infinity, or a finite number. -/
inductive Num where
  | nan (sig sign : Bool) (payload : Nat)
  | inf (sign : Bool)
  | fin (sign : Bool) (coef : Nat) (exp : Int)
  deriving DecidableEq, Repr

/-- The default quiet NaN (R100). -/
def Num.dflt : Num := .nan false false 0

def Num.sign : Num → Bool
  | .nan _ s _ => s
  | .inf s => s
  | .fin s _ _ => s

def Num.isNan : Num → Bool
  | .nan .. => true
  | _ => false

def Num.isSnan : Num → Bool
  | .nan s _ _ => s
  | _ => false

/-- The value with its sign inverted; a NaN is left alone (the subtract forms, R105, R111). -/
def Num.negate : Num → Num
  | .inf s => .inf (!s)
  | .fin s c e => .fin (!s) c e
  | n => n

/-! ## Declets (R99) -/

/-- The number 0 to 999 that a 10-bit declet stands for, the 24 non-canonical ones included. -/
def decletVal (d : Nat) : Nat :=
  let b := fun i => (d / 2 ^ i) % 2
  let p := b 9; let q := b 8; let r := b 7; let s := b 6; let t := b 5; let u := b 4
  let v := b 3; let w := b 2; let x := b 1; let y := b 0
  let l := fun (a c e : Nat) => 4 * a + 2 * c + e
  if v = 0 then 100 * l p q r + 10 * l s t u + l w x y
  else if w = 0 ∧ x = 0 then 100 * l p q r + 10 * l s t u + (8 + y)
  else if w = 0 then 100 * l p q r + 10 * (8 + u) + l s t y
  else if x = 0 then 100 * (8 + r) + 10 * l s t u + l p q y
  else if s = 0 ∧ t = 0 then 100 * (8 + r) + 10 * (8 + u) + l p q y
  else if s = 0 then 100 * (8 + r) + 10 * l p q u + (8 + y)
  else if t = 0 then 100 * l p q r + 10 * (8 + u) + (8 + y)
  else 100 * (8 + r) + 10 * (8 + u) + (8 + y)

/-- The canonical declet of a number 0 to 999. -/
def decletOf (n : Nat) : Nat :=
  let h := n / 100 % 10; let t := n / 10 % 10; let o := n % 10
  let d := h % 2; let hh := t % 2; let m := o % 2
  let jk := (o / 2) % 4; let fg := (t / 2) % 4
  match decide (8 ≤ h), decide (8 ≤ t), decide (8 ≤ o) with
  | false, false, false => h * 128 + t * 16 + o
  | false, false, true => h * 128 + t * 16 + 8 + m
  | false, true, false => h * 128 + (jk * 2 + hh) * 16 + 10 + m
  | true, false, false => (jk * 2 + d) * 128 + t * 16 + 12 + m
  | true, true, false => (jk * 2 + d) * 128 + hh * 16 + 14 + m
  | true, false, true => (fg * 2 + d) * 128 + (2 + hh) * 16 + 14 + m
  | false, true, true => h * 128 + (4 + hh) * 16 + 14 + m
  | true, true, true => d * 128 + (6 + hh) * 16 + 14 + m

/-- The number that `k` declets hold. -/
def decletsVal : Nat → Nat → Nat
  | 0, _ => 0
  | k + 1, x => decletsVal k (x / 1024) * 1000 + decletVal (x % 1024)

/-- A number below `1000 ^ k` as `k` declets. -/
def decletsOf : Nat → Nat → Nat
  | 0, _ => 0
  | k + 1, n => decletsOf k (n / 1000) * 1024 + decletOf (n % 1000)

/-! ## Reading and writing a format -/

/-- Number of declets of a decimal format, and the width of its exponent continuation (R98). -/
def Fmt.nd (f : Fmt) : Nat := (f.p - 1) / 3
def Fmt.ec (f : Fmt) : Nat := f.w - 6 - 10 * f.nd
/-- Width of a binary format's exponent field (R97). -/
def Fmt.ew (f : Fmt) : Nat := f.w - f.p

def readBin (f : Fmt) (x : W128) : Num :=
  let frac := x.toNat % 2 ^ (f.p - 1)
  let e := x.toNat / 2 ^ (f.p - 1) % 2 ^ f.ew
  let s := x.getLsbD (f.w - 1)
  if e = 2 ^ f.ew - 1 then
    if frac = 0 then .inf s
    else .nan (decide (frac < 2 ^ (f.p - 2))) s (frac % 2 ^ (f.p - 2))
  else if e = 0 then .fin s frac f.etiny
  else .fin s (frac + 2 ^ (f.p - 1)) (f.etiny + (e : Int) - 1)

def readDec (f : Fmt) (x : W128) : Num :=
  let s := x.getLsbD (f.w - 1)
  let g := x.toNat / 2 ^ (f.w - 6) % 32
  let ec := x.toNat / 2 ^ (10 * f.nd) % 2 ^ f.ec
  let t := decletsVal f.nd (x.toNat % 2 ^ (10 * f.nd))
  if g = 31 then .nan (x.getLsbD (f.w - 7)) s (if t < 10 ^ (f.p - 1) then t else 0)
  else if g = 30 then .inf s
  else
    let eh := if 24 ≤ g then g / 2 % 4 else g / 8
    let d := if 24 ≤ g then 8 + g % 2 else g % 8
    .fin s (d * 10 ^ (f.p - 1) + t) ((eh * 2 ^ f.ec + ec : Nat) + f.etiny)

/-- The datum in the low bits of a register (R37, R97, R98). -/
def Fmt.read (f : Fmt) (x : W128) : Num := if f.dec then readDec f x else readBin f x

def signBit (f : Fmt) (s : Bool) : Nat := if s then 2 ^ (f.w - 1) else 0

def writeBin (f : Fmt) : Num → Nat
  | .inf s => signBit f s + (2 ^ f.ew - 1) * 2 ^ (f.p - 1)
  | .nan sig s pl => signBit f s + (2 ^ f.ew - 1) * 2 ^ (f.p - 1)
      + (if sig then 0 else 2 ^ (f.p - 2)) + pl % 2 ^ (f.p - 2)
  | .fin s c e =>
    if c < 2 ^ (f.p - 1) then signBit f s + c
    else signBit f s + (e - f.etiny + 1).toNat * 2 ^ (f.p - 1) + (c - 2 ^ (f.p - 1))

def writeDec (f : Fmt) : Num → Nat
  | .inf s => signBit f s + 30 * 2 ^ (f.w - 6)
  | .nan sig s pl => signBit f s + 31 * 2 ^ (f.w - 6) + (if sig then 2 ^ (f.w - 7) else 0)
      + decletsOf f.nd (pl % 10 ^ (f.p - 1))
  | .fin s c e =>
    let b := (e - f.etiny).toNat
    let d := c / 10 ^ (f.p - 1) % 10
    let eh := b / 2 ^ f.ec % 4
    let g := if 8 ≤ d then 24 + eh * 2 + d % 2 else eh * 8 + d
    signBit f s + g * 2 ^ (f.w - 6) + b % 2 ^ f.ec * 2 ^ (10 * f.nd)
      + decletsOf f.nd (c % 10 ^ (f.p - 1))

/-- The register value of a datum, upper bits zero (R37, R99). -/
def Fmt.write (f : Fmt) (n : Num) : W128 :=
  BitVec.ofNat 128 (if f.dec then writeDec f n else writeBin f n)

/-! ## Flags and modes -/

/-- Exception flags in the order of SR.FPSR[4:0] (R44). -/
structure Fl where
  nv : Bool
  dz : Bool
  of : Bool
  uf : Bool
  nx : Bool
  deriving DecidableEq, Repr

def Fl.none : Fl := ⟨false, false, false, false, false⟩
def Fl.inv : Fl := ⟨true, false, false, false, false⟩
def Fl.bits (f : Fl) : Nat :=
  16 * f.nv.toNat + 8 * f.dz.toNat + 4 * f.of.toNat + 2 * f.uf.toNat + f.nx.toNat

/-- Rounding modes (R44). -/
inductive Rm where
  | rne | rz | up | dn | rna
  deriving DecidableEq, Repr

def Rm.ofBits : Nat → Rm
  | 0 => .rne
  | 1 => .rz
  | 2 => .up
  | 3 => .dn
  | _ => .rna

/-- What an operation reads of SR.FPSR: both modes, FTZ, DAZ and the underflow trap enable. -/
structure Env where
  brm : Rm
  drm : Rm
  ftz : Bool
  daz : Bool
  ufe : Bool
  deriving DecidableEq, Repr

def Env.ofFpsr (x : W64) : Env :=
  ⟨Rm.ofBits (fld x 20 18), Rm.ofBits (fld x 23 21), bit x 17, bit x 16, bit x 9⟩

def Env.rm (v : Env) (f : Fmt) : Rm := if f.dec then v.drm else v.brm

/-! ## Exact magnitudes and the one rounding (R101-R104, R111) -/

/-- An exact positive magnitude: a rational `num / den × base ^ k`, or the square root of it. -/
structure Mag where
  num : Nat
  den : Nat
  k : Int
  root : Bool
  deriving DecidableEq, Repr

def Mag.int (c : Nat) (e : Int) : Mag := ⟨c, 1, e, false⟩

/-- `⌊√n⌋`, one bit of the root at a time. -/
def isqrtAux (n : Nat) : Nat → Nat → Nat
  | 0, r => r
  | i + 1, r => let r' := r + 2 ^ i; isqrtAux n i (if r' * r' ≤ n then r' else r)

def isqrt (n : Nat) : Nat := isqrtAux n (n.log2 / 2 + 1) 0

/-- Number of digits of `n > 0` in base 2 or 10. -/
def numLen (b n : Nat) : Nat :=
  if b = 2 then n.log2 + 1
  else
    let e := n.log2 * 30103 / 100000
    if n < 10 ^ e then e else if n < 10 ^ (e + 1) then e + 1 else e + 2

/-- `⌊2x / b ^ e⌋` of the magnitude `x`, and whether the quotient is exact. -/
def Mag.twice (b : Nat) (x : Mag) (e : Int) : Nat × Bool :=
  if x.root then
    let n := 4 * x.num * b ^ (x.k - 2 * e).toNat
    let d := x.den * b ^ (2 * e - x.k).toNat
    let r := isqrt (n / d)
    (r, decide (n % d = 0) && decide (r * r = n / d))
  else
    let n := 2 * x.num * b ^ (x.k - e).toNat
    let d := x.den * b ^ (e - x.k).toNat
    (n / d, decide (n % d = 0))

/-- An exponent at which the magnitude has `p` or `p + 1` whole digits. -/
def Mag.guess (b p : Nat) (x : Mag) : Int :=
  if x.root then
    let n := x.num * b ^ (x.k % 2).toNat / x.den
    (numLen b (isqrt n) : Int) + x.k / 2 - p - 1
  else (numLen b x.num : Int) - numLen b x.den + x.k - p

/-- The exponent at which the magnitude has at most `p` whole digits, tried upward from `e`. -/
def fitExp (b p : Nat) (x : Mag) : Nat → Int → Int
  | 0, e => e
  | n + 1, e => if (x.twice b e).1 / 2 < b ^ p then e else fitExp b p x n (e + 1)

def roundUp (rm : Rm) (neg : Bool) (q half : Nat) (sticky : Bool) : Bool :=
  match rm with
  | .rne => half == 1 && (sticky || q % 2 == 1)
  | .rz => false
  | .up => !neg && (half == 1 || sticky)
  | .dn => neg && (half == 1 || sticky)
  | .rna => half == 1

/-- The magnitude rounded to a multiple of `b ^ e`: the coefficient, and whether it is inexact. -/
def roundAt (b : Nat) (rm : Rm) (neg : Bool) (x : Mag) (e : Int) : Nat × Bool :=
  let t := x.twice b e
  let q := t.1 / 2
  let half := t.1 % 2
  (if roundUp rm neg q half (!t.2) then q + 1 else q, half == 1 || !t.2)

/-- Trailing zeros of a decimal coefficient removed while its exponent is below `ip` (R111). -/
def strip (ip : Int) : Nat → Nat → Int → Nat × Int
  | 0, c, e => (c, e)
  | n + 1, c, e => if e < ip ∧ c % 10 = 0 then strip ip n (c / 10) (e + 1) else (c, e)

def clampE (f : Fmt) (e : Int) : Int := max f.etiny (min e f.etop)

/-- What an overflow delivers (R102). -/
def overflowed (f : Fmt) (rm : Rm) (neg : Bool) : Num :=
  let m := Num.fin neg (f.base ^ f.p - 1) f.etop
  match rm with
  | .rne => .inf neg
  | .rna => .inf neg
  | .rz => m
  | .up => if neg then m else .inf neg
  | .dn => if neg then .inf neg else m

/-- A result and its flags. -/
structure FpOut where
  val : Num
  fl : Fl
  deriving DecidableEq, Repr

def FpOut.exact (n : Num) : FpOut := ⟨n, .none⟩
def FpOut.invalid : FpOut := ⟨.dflt, .inv⟩

/-- A non-zero exact magnitude rounded once to the format, with preferred exponent `ip` for an
exact decimal result (R101-R104, R109, R111). -/
def roundTo (f : Fmt) (v : Env) (neg : Bool) (x : Mag) (ip : Int) : FpOut :=
  let b := f.base
  let rm := v.rm f
  let e0 := fitExp b f.p x 4 (x.guess b f.p)
  let u := roundAt b rm neg x e0
  let eu := if u.1 = b ^ f.p then e0 + 1 else e0
  let tiny := if f.dec then decide (e0 < f.etiny) else decide (eu < f.etiny)
  let e := max e0 f.etiny
  let r := roundAt b rm neg x e
  let c := if r.1 = b ^ f.p then b ^ (f.p - 1) else r.1
  let e' := if r.1 = b ^ f.p then e + 1 else e
  if f.etop < e' then ⟨overflowed f rm neg, ⟨false, false, true, false, true⟩⟩
  else if tiny && v.ftz && !f.dec then ⟨.fin neg 0 f.etiny, ⟨false, false, false, true, true⟩⟩
  else
    let ce := if f.dec && !r.2 then strip (clampE f ip) (2 * f.p) c e' else (c, e')
    ⟨.fin neg ce.1 ce.2, ⟨false, false, false, tiny && (r.2 || v.ufe), r.2⟩⟩

def zeroTo (f : Fmt) (neg : Bool) (ip : Int) : FpOut :=
  .exact (.fin neg 0 (if f.dec then clampE f ip else f.etiny))

/-- A finite exact result: zero, or rounded. -/
def finish (f : Fmt) (v : Env) (neg : Bool) (x : Mag) (ip : Int) : FpOut :=
  if x.num = 0 then zeroTo f neg ip else roundTo f v neg x ip

/-! ## Operands -/

/-- A binary subnormal read as a zero while DAZ is set (R104). -/
def dazed (f : Fmt) (v : Env) : Num → Num
  | .fin s c e => if !f.dec && v.daz && decide (c < 2 ^ (f.p - 1)) then .fin s 0 e else .fin s c e
  | n => n

def Fmt.operand (f : Fmt) (v : Env) (x : W128) : Num := dazed f v (f.read x)

/-- The quiet NaN taken from NaN operands: the first signalling one, else the first quiet (R106). -/
def pickNan (l : List Num) : Option Num :=
  ((l.find? Num.isSnan).orElse fun _ => l.find? Num.isNan).map fun n =>
    match n with
    | .nan _ s p => .nan false s p
    | n => n

def nanOut (l : List Num) (k : FpOut) : FpOut :=
  match pickNan l with
  | some n => ⟨n, { Fl.none with nv := l.any Num.isSnan }⟩
  | none => k

/-! ## Operations -/

/-- The exact sum of two finite terms, rounded (R105, R111). -/
def addFin (f : Fmt) (v : Env) (s1 : Bool) (c1 : Nat) (e1 : Int) (s2 : Bool) (c2 : Nat) (e2 : Int) : FpOut :=
  let e := min e1 e2
  let a : Int := (if s1 then -1 else 1) * (c1 * f.base ^ (e1 - e).toNat : Nat)
  let b : Int := (if s2 then -1 else 1) * (c2 * f.base ^ (e2 - e).toNat : Nat)
  let t := a + b
  if t = 0 then zeroTo f (if c1 = 0 ∧ c2 = 0 ∧ s1 = s2 then s1 else v.rm f == .dn) e
  else finish f v (decide (t < 0)) (.int t.natAbs e) e

def fpAdd (f : Fmt) (v : Env) (a b : Num) : FpOut :=
  nanOut [a, b] <|
    match a, b with
    | .inf s, .inf t => if s = t then .exact (.inf s) else .invalid
    | .inf s, _ => .exact (.inf s)
    | _, .inf t => .exact (.inf t)
    | .fin s1 c1 e1, .fin s2 c2 e2 => addFin f v s1 c1 e1 s2 c2 e2
    | _, _ => .invalid

def fpSub (f : Fmt) (v : Env) (a b : Num) : FpOut := fpAdd f v a b.negate

def fpMul (f : Fmt) (v : Env) (a b : Num) : FpOut :=
  nanOut [a, b] <|
    match a, b with
    | .inf s, .inf t => .exact (.inf (s != t))
    | .inf s, .fin t c _ => if c = 0 then .invalid else .exact (.inf (s != t))
    | .fin s c _, .inf t => if c = 0 then .invalid else .exact (.inf (s != t))
    | .fin s1 c1 e1, .fin s2 c2 e2 => finish f v (s1 != s2) (.int (c1 * c2) (e1 + e2)) (e1 + e2)
    | _, _ => .invalid

def fpDiv (f : Fmt) (v : Env) (a b : Num) : FpOut :=
  nanOut [a, b] <|
    match a, b with
    | .inf _, .inf _ => .invalid
    | .inf s, .fin t _ _ => .exact (.inf (s != t))
    | .fin s _ _, .inf t => zeroTo f (s != t) f.etiny
    | .fin s1 c1 e1, .fin s2 c2 e2 =>
      if c2 = 0 then
        if c1 = 0 then .invalid else ⟨.inf (s1 != s2), { Fl.none with dz := true }⟩
      else finish f v (s1 != s2) ⟨c1, c2, e1 - e2, false⟩ (e1 - e2)
    | _, _ => .invalid

def fpSqrt (f : Fmt) (v : Env) (a : Num) : FpOut :=
  nanOut [a] <|
    match a with
    | .inf s => if s then .invalid else .exact (.inf false)
    | .fin s c e =>
      if c = 0 then zeroTo f s (e / 2)
      else if s then .invalid
      else finish f v false ⟨c, 1, e, true⟩ (e / 2)
    | _ => .invalid

/-- `a × b + c` with a single rounding (R93, R105, R111). -/
def fpFma (f : Fmt) (v : Env) (a b c : Num) : FpOut :=
  let zi := match a, b with
    | .inf _, .fin _ d _ => d == 0
    | .fin _ d _, .inf _ => d == 0
    | _, _ => false
  match pickNan [a, b, c] with
  | some n => ⟨n, { Fl.none with nv := zi || [a, b, c].any Num.isSnan }⟩
  | none =>
    if zi then .invalid
    else
      let ps := a.sign != b.sign
      match a, b, c with
      | .fin _ c1 e1, .fin _ c2 e2, .fin s3 c3 e3 => addFin f v ps (c1 * c2) (e1 + e2) s3 c3 e3
      | .fin _ _ _, .fin _ _ _, .inf t => .exact (.inf t)
      | _, _, .inf t => if ps = t then .exact (.inf t) else .invalid
      | _, _, _ => .exact (.inf ps)

/-- Sign of `a - b` for finite or infinite values: less, equal or greater. -/
def numCmp (b : Nat) (x y : Num) : Ordering :=
  let key : Num → Int → Int := fun n e =>
    match n with
    | .fin s c k => (if s then -1 else 1) * (c * b ^ (k - e).toNat : Nat)
    | _ => 0
  match x, y with
  | .inf s, .inf t => if s = t then .eq else if s then .lt else .gt
  | .inf s, _ => if s then .lt else .gt
  | _, .inf t => if t then .gt else .lt
  | .fin _ _ e1, .fin _ _ e2 => compare (key x (min e1 e2)) (key y (min e1 e2))
  | _, _ => .eq

def Num.exp : Num → Int
  | .fin _ _ e => e
  | _ => 0

def Num.isZero : Num → Bool
  | .fin _ c _ => c == 0
  | _ => false

/-- Is `a` the smaller operand, under the order of R107? -/
def minIsFirst (f : Fmt) (a b : Num) : Bool :=
  match numCmp f.base a b with
  | .lt => true
  | .gt => false
  | .eq =>
    if a.isZero && b.isZero && a.sign != b.sign then a.sign
    else decide (a.exp ≤ b.exp)

/-- A number delivered as a result without arithmetic on it: FTZ and tininess still apply
(R103, R104, R109). -/
def deliver (f : Fmt) (v : Env) : Num → FpOut
  | .fin s c e =>
    let tiny := decide (c ≠ 0) && decide ((numLen f.base c : Int) + e < f.etiny + f.p)
    if tiny && v.ftz && !f.dec then ⟨.fin s 0 f.etiny, ⟨false, false, false, true, true⟩⟩
    else ⟨.fin s c e, { Fl.none with uf := tiny && v.ufe }⟩
  | n => .exact n

def fpMinMax (f : Fmt) (v : Env) (isMax : Bool) (a b : Num) : FpOut :=
  if a.isSnan || b.isSnan then .invalid
  else if a.isNan && b.isNan then nanOut [a] .invalid
  else if a.isNan then deliver f v b
  else if b.isNan then deliver f v a
  else deliver f v (if minIsFirst f a b != isMax then a else b)

/-- FCMPF and DCMPF: N, Z, V and the flags (R92, R107). -/
def fpCmp (f : Fmt) (a b : Num) : (Bool × Bool × Bool) × Fl :=
  if a.isNan || b.isNan then
    ((false, false, true), { Fl.none with nv := a.isSnan || b.isSnan })
  else
    match numCmp f.base a b with
    | .lt => ((true, false, false), .none)
    | .eq => ((false, true, false), .none)
    | .gt => ((false, false, false), .none)

/-- The magnitude of `c × base ^ e` in base `b`. -/
def magIn (src b : Nat) (c : Nat) (e : Int) : Mag :=
  if src = b then .int c e
  else if 0 ≤ e then .int (c * src ^ e.toNat) 0
  else ⟨c, src ^ (-e).toNat, 0, false⟩

/-- A NaN converted between two formats (R106). -/
def convNan (f g : Fmt) (s : Bool) (p : Nat) : Num :=
  if f.dec != g.dec then .dflt
  else if f.dec then .nan false s (if p < 10 ^ (g.p - 1) then p else 0)
  else if g.p ≤ f.p then .nan false s (p / 2 ^ (f.p - g.p))
  else .nan false s (p * 2 ^ (g.p - f.p))

/-- FCVT and DCVT from format `f` to format `g` (R92, R101, R106, R111, R115). -/
def fpConv (f g : Fmt) (v : Env) : Num → FpOut
  | .nan sig s p => ⟨convNan f g s p, { Fl.none with nv := sig }⟩
  | .inf s => .exact (.inf s)
  | .fin s c e =>
    let ip := if f.dec then e else if c = 0 then 0 else g.etop
    finish g v s (magIn f.base g.base c e) ip

/-- FCVTI, FCVTIU, DCVTI and DCVTIU: the 64-bit integer and the flags (R116). -/
def fpToInt (f : Fmt) (v : Env) (signed : Bool) (n : Num) : Nat × Fl :=
  let hi : Int := if signed then 2 ^ 63 - 1 else 2 ^ 64 - 1
  let lo : Int := if signed then -(2 ^ 63) else 0
  let enc : Int → Nat := fun i => (i % 2 ^ 64).toNat
  match n with
  | .nan .. => (0, .inv)
  | .inf s => (enc (if s then lo else hi), .inv)
  | .fin s c e =>
    let r := roundAt f.base (v.rm f) s (.int c e) 0
    let i : Int := if s then -(r.1 : Int) else r.1
    if hi < i then (enc hi, .inv)
    else if i < lo then (enc lo, .inv)
    else (enc i, { Fl.none with nx := r.2 })

/-- FCVTF, FCVTFU, DCVTF and DCVTFU (R111, R115). -/
def fpOfInt (f : Fmt) (v : Env) (signed : Bool) (x : W64) : FpOut :=
  let i : Int := if signed then x.toInt else x.toNat
  let ip := if i = 0 then 0 else f.etop
  finish f v (decide (i < 0)) (magIn 2 f.base i.natAbs 0) ip

/-- DQUANT (R105, R112): it has no underflow, so with UFE = 1 a tiny result of it does not trap. DESIGN CHOICE: log 175. -/
def fpQuant (f : Fmt) (v : Env) (a b : Num) : FpOut :=
  nanOut [a, b] <|
    match a, b with
    | .inf s, .inf _ => .exact (.inf s)
    | .fin s c e, .fin _ _ t =>
      let r := roundAt f.base (v.rm f) s (.int c e) t
      if f.base ^ f.p ≤ r.1 then .invalid
      else ⟨.fin s r.1 t, { Fl.none with nx := r.2 }⟩
    | _, _ => .invalid

/-- The move forms: `0` copies, `1` inverts and `2` clears the sign; nothing else changes (R92). -/
def fpMove (f : Fmt) (kind : Nat) (x : W128) : W128 :=
  let body := x.toNat % 2 ^ f.w
  let top := 2 ^ (f.w - 1)
  BitVec.ofNat 128 <|
    if kind = 0 then body
    else if kind = 1 then (if body < top then body + top else body - top)
    else body % top

end Sys2Proof.Machine
end

