-- ==== Sys2Proof/Machine/Flags.lean ====
section
/-! DEFINITION. Integer results and the flags N, Z, V, C (03 R65-R71, R80, R81; 04 R94-R96). -/

namespace Sys2Proof.Machine

/-- SR.FLG (R41). -/
structure Nzvc where
  n : Bool
  z : Bool
  v : Bool
  c : Bool
  deriving DecidableEq, Repr

def Nzvc.word (f : Nzvc) : W64 :=
  BitVec.ofNat 64 (8 * f.n.toNat + 4 * f.z.toNat + 2 * f.v.toNat + f.c.toNat)

def Nzvc.ofWord (x : W64) : Nzvc := ⟨bit x 3, bit x 2, bit x 1, bit x 0⟩

/-- N and Z of a result, with the V and C that its kind gives (R66). -/
def nzvc (r : W64) (v c : Bool) : Nzvc := ⟨r.msb, r == 0, v, c⟩

/-- Does an exact signed sum fall outside 64 bits? -/
def sovf (i : Int) : Bool := decide (i < -(2 ^ 63)) || decide (2 ^ 63 ≤ i)

/-- `a + b + c`: C is the carry out of bit 63, V signed overflow (R66). -/
def addFlags (a b : W64) (c : Bool) : Nzvc :=
  nzvc (a + b + BitVec.ofNat 64 c.toNat) (sovf (a.toInt + b.toInt + c.toNat))
    (decide (2 ^ 64 ≤ a.toNat + b.toNat + c.toNat))

/-- `a - b - borrow`: C is 1 when no borrow occurs, V signed overflow (R66). -/
def subFlags (a b : W64) (borrow : Bool) : Nzvc :=
  nzvc (a - b - BitVec.ofNat 64 borrow.toNat) (sovf (a.toInt - b.toInt - borrow.toNat))
    (decide (b.toNat + borrow.toNat ≤ a.toNat))

def minMax (lt takeLarger : Bool) (a b : W64) : W64 := if lt != takeLarger then a else b

/-- The ALU group's results (R65). -/
def aluVal (op : AluOp) (a b : W64) (c : Bool) : W64 :=
  let k := fld b 5 0
  match op with
  | .add => a + b
  | .sub => a - b
  | .adc => a + b + BitVec.ofNat 64 c.toNat
  | .sbc => a - b - BitVec.ofNat 64 (!c).toNat
  | .and => a &&& b
  | .or => a ||| b
  | .xor => a ^^^ b
  | .andn => a &&& ~~~b
  | .sll => a <<< k
  | .srl => a >>> k
  | .sra => a.sshiftRight k
  | .rol => a.rotateLeft k
  | .ror => a.rotateRight k
  | .min => minMax (a.slt b) false a b
  | .max => minMax (a.slt b) true a b
  | .minu => minMax (a.ult b) false a b
  | .maxu => minMax (a.ult b) true a b

/-- The last bit that a shift by `k` moves out: 0 for an amount of zero (R66). -/
def lastOut (left : Bool) (a : W64) (k : Nat) : Bool :=
  k != 0 && (if left then a.getLsbD (64 - k) else a.getLsbD (k - 1))

/-- The flags of the ALU group's F forms (R66). -/
def aluFlags (op : AluOp) (a b : W64) (c : Bool) : Nzvc :=
  let k := fld b 5 0
  let r := aluVal op a b c
  match op with
  | .add => addFlags a b false
  | .adc => addFlags a b c
  | .sub => subFlags a b false
  | .sbc => subFlags a b (!c)
  | .sll => nzvc r false (lastOut true a k)
  | .srl => nzvc r false (lastOut false a k)
  | .sra => nzvc r false (lastOut false a k)
  | _ => nzvc r false false

/-- Has the operation an F form (R65)? -/
def aluHasF : AluOp → Bool
  | .rol | .ror | .min | .max | .minu | .maxu => false
  | _ => true

/-- A MULDIV result and the flags of its F form; none is Divide Check (R68, R94, R95). -/
def mulDiv (op : MulOp) (a b : W64) : Option (W64 × Nzvc) :=
  let up := a.toNat * b.toNat
  let sp := a.toInt * b.toInt
  let lo := a * b
  match op with
  | .mul => some (lo, nzvc lo (decide (sp ≠ lo.toInt)) (decide (2 ^ 64 ≤ up)))
  | .mulh => let r := BitVec.ofInt 64 (sp / 2 ^ 64); some (r, nzvc r false false)
  | .mulhu => let r := BitVec.ofNat 64 (up / 2 ^ 64); some (r, nzvc r false false)
  | .div =>
    if b = 0 then none
    else let q := BitVec.ofInt 64 (a.toInt.tdiv b.toInt)
         some (q, nzvc q (sovf (a.toInt.tdiv b.toInt)) false)
  | .divu => if b = 0 then none else let q := a / b; some (q, nzvc q false false)
  | .rem =>
    if b = 0 then none
    else let r := BitVec.ofInt 64 (a.toInt.tmod b.toInt); some (r, nzvc r false false)
  | .remu => if b = 0 then none else let r := a % b; some (r, nzvc r false false)

def mulHasF : MulOp → Bool
  | .mul | .div | .divu => true
  | _ => false

/-- The low `n` bits in reverse order. -/
def bitRev (n : Nat) (x : Nat) : Nat :=
  (List.range n).foldl (fun r i => r * 2 + x / 2 ^ i % 2) 0

/-- The low `n` bytes in reverse order. -/
def byteRev (n : Nat) (x : Nat) : Nat :=
  (List.range n).foldl (fun r i => r * 256 + x / 256 ^ i % 256) 0

def popCount (n x : Nat) : Nat := (List.range n).foldl (fun c i => c + x / 2 ^ i % 2) 0

/-- A byte-wise map over the 8 bytes of a register. -/
def mapBytes (f : Nat → Nat) (x : Nat) : Nat :=
  (List.range 8).foldl (fun r i => r + f (x / 256 ^ i % 256) * 256 ^ i) 0

/-- The BIT group (R69). -/
def bitVal (op : BitOp) (a : W64) : W64 :=
  let x := a.toNat
  match op with
  | .parD => BitVec.ofNat 64 (popCount 64 x % 2)
  | .parB => BitVec.ofNat 64
      ((List.range 8).foldl (fun r k => r + popCount 8 (x / 256 ^ k % 256) % 2 * 2 ^ k) 0)
  | .brevD => BitVec.ofNat 64 (bitRev 64 x)
  | .brevW => BitVec.ofNat 64 (bitRev 32 x)
  | .brevB => BitVec.ofNat 64 (mapBytes (bitRev 8) x)
  | .bswapD => BitVec.ofNat 64 (byteRev 8 x)
  | .bswapW => BitVec.ofNat 64 (byteRev 4 x)
  | .bswapH => BitVec.ofNat 64 (byteRev 2 x)
  | .clz => BitVec.ofNat 64 (if x = 0 then 64 else 63 - x.log2)
  | .ctz => BitVec.ofNat 64 (((List.range 64).find? fun i => x / 2 ^ i % 2 = 1).getD 64)
  | .popc => BitVec.ofNat 64 (popCount 64 x)
  | .sextB => sext64 8 a
  | .sextH => sext64 16 a
  | .sextW => sext64 32 a
  | .zextW => BitVec.ofNat 64 (x % 2 ^ 32)

/-- State width, constant and bit order of a CRC polynomial (R70). -/
def crcWidth : CrcPoly → Nat
  | .crc32 | .crc32c => 32
  | .crc16 => 16
  | .crc64 => 64

def crcConst : CrcPoly → Nat
  | .crc32 => 0xEDB88320
  | .crc32c => 0x82F63B78
  | .crc16 => 0x1021
  | .crc64 => 0x42F0E1EBA9EA3693

def crcReflected : CrcPoly → Bool
  | .crc32 | .crc32c => true
  | _ => false

/-- One bit step of the CRC (R71). -/
def crcBit (p : CrcPoly) (c : Nat) : Nat :=
  if crcReflected p then
    if c % 2 = 1 then (c / 2) ^^^ crcConst p else c / 2
  else if c / 2 ^ (crcWidth p - 1) % 2 = 1 then ((c * 2) ^^^ crcConst p) % 2 ^ (crcWidth p)
  else c * 2 % 2 ^ (crcWidth p)

/-- Eight bit steps. -/
def crcByte (p : CrcPoly) (c : Nat) (b : Nat) : Nat :=
  let c0 := if crcReflected p then c ^^^ b else c ^^^ (b * 2 ^ (crcWidth p - 8))
  (List.range 8).foldl (fun c _ => crcBit p c) c0

/-- CRC over the low `k` bytes of `data`, most significant byte first (R71). -/
def crcVal (k : Nat) (p : CrcPoly) (state data : W64) : W64 :=
  BitVec.ofNat 64 ((toBytes k (data.toNat % 256 ^ k)).foldl
    (fun c b => crcByte p c b.toNat) (state.toNat % 2 ^ (crcWidth p)))

/-- BCC's conditions; none is the illegal condition 0xF (R80). -/
def bccTaken (cond : Nat) (f : Nzvc) : Option Bool :=
  match cond with
  | 0 => some f.z
  | 1 => some (!f.z)
  | 2 => some f.c
  | 3 => some (!f.c)
  | 4 => some f.n
  | 5 => some (!f.n)
  | 6 => some f.v
  | 7 => some (!f.v)
  | 8 => some (f.c && !f.z)
  | 9 => some (!f.c || f.z)
  | 10 => some (f.n == f.v)
  | 11 => some (f.n != f.v)
  | 12 => some (!f.z && f.n == f.v)
  | 13 => some (f.z || f.n != f.v)
  | 14 => some true
  | _ => none

/-- BRR's conditions; 0x8 to 0xF are illegal (R81). -/
def brrTaken (cond : Nat) (x : W64) : Option Bool :=
  match cond with
  | 0 => some (x == 0)
  | 1 => some (x != 0)
  | 2 => some x.msb
  | 3 => some (!x.msb)
  | 4 => some (x.msb || x == 0)
  | 5 => some (!x.msb && x != 0)
  | 6 => some (bit x 0)
  | 7 => some (!bit x 0)
  | _ => none

end Sys2Proof.Machine
end

