-- ==== Sys2Proof/Config.lean ====
section
/-! DEFINITION. The free values of the model: constants with no body, so that no proof can see
a value of them. Each is named in the assumption log. -/

namespace Sys2Proof.Config

/-- Free value number `n`, 64 bits: DRBG output, nonces, choices the spec leaves open (DESIGN CHOICE, log 8). -/
opaque freeWord : Nat → BitVec 64
/-- Free choice number `n` (DESIGN CHOICE, log 8). -/
opaque freeBool : Nat → Bool
/-- The raw DEFLATE stream that the compressor emits for a block, by the number of candidates that it examines and whether
it matches lazily (R412). The spec fixes that it is one function of its input (R407), not which stream it is (DESIGN CHOICE, log 9). -/
opaque deflateStream : Nat → Bool → List (BitVec 8) → List (BitVec 8)
/-- The device key of the option bytes (19 R492), never readable by software (DESIGN CHOICE, log 6). -/
opaque deviceKey : Nat
/-- The provisioning key, which the module derives from DEVKEY (20 R520); the derivation is not
stated (DESIGN CHOICE, log 10). -/
opaque provisioningKey : List (BitVec 8)
/-- The Rootstock version number that service 0x0000 returns (07 R190); no value is stated. -/
opaque rootstockVersion : BitVec 64
/-- The key derived from the Scion pairing key for copy B (16 R439); the derivation is not stated. DESIGN CHOICE: log 137. -/
opaque pairingKek : List (BitVec 8) → List (BitVec 8)

/-- Is the completion interrupt of a queue (by its stream, or by 2^32 + the key of an Admin Queue or job
context) raised on a thread of its partition (2 × LCORE + THR)? The spec does not say on which (02 R50; DESIGN CHOICE, log 20). -/
opaque irqTo : Nat → Nat → Bool

/-- The payload of a DESCRIBE response for an object (20 R511); its layout is not stated. DESIGN CHOICE: log 85. -/
opaque describeBytes : Nat → List (BitVec 8)

/-- The set of the L2 TLB that a page has, by its base and size: the spec does not state the index (07 R167; DESIGN
CHOICE, log 24). -/
opaque tlbSet : Nat → Nat → Nat

/-- The ROM word at a microaddress and the 9-bit code over a word's upper 151 bits: the spec gives neither (05 R119,
R120; DESIGN CHOICE, log 150). -/
opaque romWord : Nat → BitVec 160
opaque secded : BitVec 151 → BitVec 9
/-- What the micro-operations of UOP and DOP compute, from IMM, the instruction's operand fields and two sources, the
V and C that a UOP leaves, the N, Z, V and C of a DOP comparison, and when COND holds: the spec does not say
(05 R121; DESIGN CHOICE, log 150). -/
opaque microUop : Nat → BitVec 32 → BitVec 18 → BitVec 64 → BitVec 64 → BitVec 64
opaque microVc : Nat → BitVec 32 → BitVec 18 → BitVec 64 → BitVec 64 → BitVec 2
opaque microDop : Nat → BitVec 32 → BitVec 128 → BitVec 128 → BitVec 128
opaque microDopCmp : Nat → BitVec 128 → BitVec 128 → BitVec 4
opaque microCond : Nat → BitVec 4 → BitVec 4 → Bool → Bool

/-- Levels of the GPIO inputs at an STC time, in ns, and a step of the free counter: the integrator's (21 R556; DESIGN CHOICE, log 84). -/
opaque gpioIn : Nat → Nat → BitVec 16

/-- Stavvowa's PCI-SIG vendor ID, as a root port's own configuration header reports it (12 R318); no value is stated.
DESIGN CHOICE: log 179. -/
opaque vendorId : BitVec 16

/-- Bytes of egress staging in the Trellis context area (R295). DESIGN CHOICE: log 165. -/
opaque stagingBytes : Nat

end Sys2Proof.Config
end

