-- ==== Sys2Proof/Machine/RegTable.lean ====
section
/-! DEFINITION. Every module register of the spec's register maps: address, fields, access codes,
reset values and ranges (00 R9-R11, 01 R23, and the map named beside each row). -/

namespace Sys2Proof.Machine

/-- Access codes (R10). Reserved bits are those no field covers. -/
inductive Acc where
  | rw | ro | wo | w1c | w1s | rc | rwl
  deriving DecidableEq, Repr

/-- A field `[hi:lo]`, its reset value and the values a write may give it (R11). -/
structure Field where
  name : String
  hi : Nat
  lo : Nat
  acc : Acc
  reset : Nat
  min : Nat
  max : Nat
  deriving DecidableEq, Repr

/-- A field with no stated range. -/
def fd (name : String) (hi lo : Nat) (acc : Acc) (reset : Nat := 0) : Field :=
  ⟨name, hi, lo, acc, reset, 0, 2 ^ (hi + 1 - lo) - 1⟩

/-- A field with a stated range. -/
def fr (name : String) (hi lo : Nat) (acc : Acc) (reset min max : Nat) : Field :=
  ⟨name, hi, lo, acc, reset, min, max⟩

/-- A register or an array of registers: its address and, outermost first, stride and count of
each index. -/
structure RegRow where
  base : Nat
  dims : List (Nat × Nat)
  fields : List Field
  deriving DecidableEq, Repr

/-- The module registers by name (R13, R23). -/
inductive Reg where
  | rstCause | rstCmd | rstBlkctl | rstIdleto | rstWdog | rstHbeat | rstCsver | rstCsctl
  | rstCsaddr | rstCsstat | rstCoresvc | rstCorespare | rstCoredeconf | rstRtycfg | rstRtystat
  | clkValid0 | clkValid1 | clkLoss | pwrCtl | pwrStat | pwrLease0 | pwrLease1 | pwrGatereq
  | fltRec | fltAddr | fltTsec | fltTns | fltInfo | fltCtl | fltPend0 | fltPend1 | fltFatal
  | fltFcfg | fltRoute | fltProute | fltPrec | fltPaddr | fltPtsec | fltPtns | fltPinfo | pmcCtl
  | pmcCnt | pmcOwn | pmcSctl | pmcSbuf | pmcGctl | pmcGbuf | pmcGmask0 | pmcGmask1 | pmcGstat
  | potBase | potCmd | potCmdstat | potSxroot | potPfdis | potTs1 | potTs2 | potTh | trlRdwin
  | trlAckto | trlAbto | trlOut | trlLatecnt | trlCtxbase | trlDtbase | trlTerm | trlLbase
  | trlPcfg | trlPstat | trlPgen | trlAq | trlPoola | trlPoolb | trlPortst | trlPlink | trlParb
  | trlPc0 | trlMmioto | scnCtl | scnStat | scnEpoch | scnEpcfg | scnPriv | scnJcfg | scnBklg
  | sveStat | gntKsbase | gntStat | gntInst | gntPslot | mcCfg | mcScrub | mcErrcnt | mcDevmark
  | mcTemp | mcTrain | cfmStcs | cfmStcn | cfmChg | cfmStat | sveJring | sveCring | sveBind
  | gntJring | gntCring | gntBind
  deriving DecidableEq, Repr

/-- The register maps. -/
def Reg.row : Reg → RegRow
  -- RST.CAUSE (R497)
  | .rstCause => ⟨0xFF0000000000, [],
      [fd "KIND" 63 60 .ro,
       fd "SOURCE" 55 48 .ro,
       fd "SEC" 47 0 .ro]⟩
  -- RST.CMD (R497)
  | .rstCmd => ⟨0xFF0000000008, [],
      [fd "KIND" 63 60 .wo,
       fd "PID" 53 48 .wo,
       fd "PCORE" 37 32 .wo,
       fd "KEY" 15 0 .wo]⟩
  -- RST.BLKCTL (R497)
  | .rstBlkctl => ⟨0xFF0000000010, [],
      [fr "ISLAND" 54 48 .rw 0 0 112,
       fd "CMD" 41 40 .wo,
       fd "FORCED" 3 3 .ro,
       fd "STATUS" 2 0 .ro]⟩
  -- RST.IDLETO (R497)
  | .rstIdleto => ⟨0xFF0000000018, [],
      [fr "US" 19 0 .rw 0x64 10 10000]⟩
  -- RST.WDOG (R497)
  | .rstWdog => ⟨0xFF0000000020, [],
      [fd "EN" 63 63 .w1s,
       fr "MS" 31 0 .rw 0x3e8 100 60000]⟩
  -- RST.HBEAT (R497)
  | .rstHbeat => ⟨0xFF0000000028, [],
      [fd "BEAT" 63 0 .wo]⟩
  -- RST.CSVER (R132)
  | .rstCsver => ⟨0xFF0000800000, [],
      [fd "ROMID" 63 48 .ro 1,
       fd "PVER" 47 32 .ro,
       fd "PWORDS" 29 16 .ro,
       fd "KEY" 8 8 .ro,
       fd "PATCHED" 0 0 .ro]⟩
  -- RST.CSCTL (R132)
  | .rstCsctl => ⟨0xFF0000800008, [],
      [fd "LOCK" 1 1 .w1s,
       fd "LOAD" 0 0 .wo]⟩
  -- RST.CSADDR (R132)
  | .rstCsaddr => ⟨0xFF0000800010, [],
      [fd "ADDR" 47 16 .rwl]⟩
  -- RST.CSSTAT (R132)
  | .rstCsstat => ⟨0xFF0000800018, [],
      [fd "STATUS" 7 0 .ro]⟩
  -- RST.CORESVC (R146)
  | .rstCoresvc => ⟨0xFF0000810000, [],
      [fd "SVC" 55 0 .ro]⟩
  -- RST.CORESPARE (R146)
  | .rstCorespare => ⟨0xFF0000810008, [],
      [fd "SPARE" 55 0 .ro]⟩
  -- RST.COREDECONF (R146)
  | .rstCoredeconf => ⟨0xFF0000810010, [],
      [fd "DECONF" 55 0 .ro]⟩
  -- RST.RTYCFG (R146)
  | .rstRtycfg => ⟨0xFF0000810018, [],
      [fd "THR" 15 0 .rw 0x10]⟩
  -- RST.RTYSTAT (R146)
  | .rstRtystat => ⟨0xFF0000820000, [(0x8, 56)],
      [fd "LASTCODE" 47 40 .ro,
       fd "LASTATT" 33 32 .ro,
       fd "COUNT" 31 0 .rc]⟩
  -- CLK.VALID0 (R490)
  | .clkValid0 => ⟨0xFF0001000000, [],
      [fd "VALID" 63 0 .ro]⟩
  -- CLK.VALID1 (R490)
  | .clkValid1 => ⟨0xFF0001000008, [],
      [fd "VALID" 48 0 .ro]⟩
  -- CLK.LOSS (R490)
  | .clkLoss => ⟨0xFF0001000010, [],
      [fd "LAST" 38 32 .ro,
       fd "COUNT" 31 0 .rc]⟩
  -- PWR.CTL (R507)
  | .pwrCtl => ⟨0xFF0002000000, [],
      [fd "REQ" 1 0 .wo]⟩
  -- PWR.STAT (R507)
  | .pwrStat => ⟨0xFF0002000008, [],
      [fd "LAST" 63 62 .ro,
       fd "WAKE" 59 56 .ro,
       fd "THR" 16 16 .ro,
       fd "TJMAX" 15 8 .ro]⟩
  -- PWR.LEASE0 (R183)
  | .pwrLease0 => ⟨0xFF0002000100, [],
      [fd "ISL" 63 0 .rw]⟩
  -- PWR.LEASE1 (R183)
  | .pwrLease1 => ⟨0xFF0002000108, [],
      [fd "ISL" 48 0 .rw]⟩
  -- PWR.GATEREQ (R183)
  | .pwrGatereq => ⟨0xFF0002000110, [],
      [fr "ISLAND" 54 48 .rw 0 0 112,
       fr "ACTION" 39 38 .rw 0 0 2,
       fd "SRC" 34 32 .ro,
       fd "STATUS" 2 0 .ro]⟩
  -- FLT.REC (R458)
  | .fltRec => ⟨0xFF0003000000, [(0x40, 128)],
      [fd "CLASS" 63 62 .ro,
       fd "STATE" 61 60 .ro,
       fd "MERGED" 59 59 .ro,
       fd "ESC" 58 58 .ro,
       fd "FCLASS" 57 56 .ro,
       fd "COUNT" 47 32 .ro,
       fd "CODE" 31 16 .ro,
       fd "PID" 13 8 .ro]⟩
  -- FLT.ADDR (R458)
  | .fltAddr => ⟨0xFF0003000008, [(0x40, 128)],
      [fd "ADDR" 47 0 .ro]⟩
  -- FLT.TSEC (R458)
  | .fltTsec => ⟨0xFF0003000010, [(0x40, 128)],
      [fd "SEC" 47 0 .ro]⟩
  -- FLT.TNS (R458)
  | .fltTns => ⟨0xFF0003000018, [(0x40, 128)],
      [fd "NS" 63 32 .ro,
       fd "FRAC" 31 16 .ro]⟩
  -- FLT.INFO (R458)
  | .fltInfo => ⟨0xFF0003000020, [(0x40, 128)],
      [fd "INFO" 63 0 .ro]⟩
  -- FLT.CTL (R458)
  | .fltCtl => ⟨0xFF0003000028, [(0x40, 128)],
      [fd "CST" 3 2 .ro,
       fd "CLR" 1 1 .wo,
       fd "ACK" 0 0 .wo]⟩
  -- FLT.PEND0 (R470)
  | .fltPend0 => ⟨0xFF0003010000, [],
      [fd "BLK" 63 0 .ro]⟩
  -- FLT.PEND1 (R470)
  | .fltPend1 => ⟨0xFF0003010008, [],
      [fd "BLK" 63 0 .ro]⟩
  -- FLT.FATAL (R470)
  | .fltFatal => ⟨0xFF0003010010, [],
      [fd "V" 63 63 .ro,
       fd "BLOCK" 38 32 .ro,
       fd "CODE" 31 16 .ro]⟩
  -- FLT.FCFG (R470)
  | .fltFcfg => ⟨0xFF0003010018, [],
      [fd "ACT" 16 16 .rw 1,
       fr "HOLD" 9 0 .rw 0xa 1 1000]⟩
  -- FLT.ROUTE (R470)
  | .fltRoute => ⟨0xFF0003010020, [],
      [fr "THREAD" 6 0 .rw 0 0 111]⟩
  -- FLT.PROUTE (R470)
  | .fltProute => ⟨0xFF0003010100, [(0x8, 49)],
      [fd "LCORE" 21 16 .rw,
       fd "THR" 0 0 .rw]⟩
  -- FLT.PREC (R467)
  | .fltPrec => ⟨0xFF0003020000, [(0x2000, 49), (0x40, 128)],
      [fd "CLASS" 63 62 .ro,
       fd "STATE" 61 60 .ro,
       fd "MERGED" 59 59 .ro,
       fd "ESC" 58 58 .ro,
       fd "FCLASS" 57 56 .ro,
       fd "COUNT" 47 32 .ro,
       fd "CODE" 31 16 .ro,
       fd "PID" 13 8 .ro]⟩
  -- FLT.PADDR (R467)
  | .fltPaddr => ⟨0xFF0003020008, [(0x2000, 49), (0x40, 128)],
      [fd "ADDR" 47 0 .ro]⟩
  -- FLT.PTSEC (R467)
  | .fltPtsec => ⟨0xFF0003020010, [(0x2000, 49), (0x40, 128)],
      [fd "SEC" 47 0 .ro]⟩
  -- FLT.PTNS (R467)
  | .fltPtns => ⟨0xFF0003020018, [(0x2000, 49), (0x40, 128)],
      [fd "NS" 63 32 .ro,
       fd "FRAC" 31 16 .ro]⟩
  -- FLT.PINFO (R467)
  | .fltPinfo => ⟨0xFF0003020020, [(0x2000, 49), (0x40, 128)],
      [fd "INFO" 63 0 .ro]⟩
  -- PMC.CTL (R473)
  | .pmcCtl => ⟨0xFF0004000000, [(0x100, 115), (0x8, 8)],
      [fd "EN" 63 63 .rw,
       fd "OVF" 62 62 .w1c,
       fr "THR" 61 60 .rw 0 0 2,
       fd "SEC" 59 59 .rw,
       fd "LVL" 58 56 .rw 7,
       fd "EVENT" 11 0 .rw]⟩
  -- PMC.CNT (R473)
  | .pmcCnt => ⟨0xFF0004000040, [(0x100, 115), (0x8, 8)],
      [fd "COUNT" 47 0 .rw]⟩
  -- PMC.OWN (R473)
  | .pmcOwn => ⟨0xFF0004000080, [(0x100, 115)],
      [fr "PID" 5 0 .rw 0 0 48]⟩
  -- PMC.SCTL (R482)
  | .pmcSctl => ⟨0xFF0004000088, [(0x100, 56)],
      [fd "EN" 63 63 .rw,
       fr "N" 36 32 .rw 0x10 8 24,
       fd "DROPS" 31 0 .rc]⟩
  -- PMC.SBUF (R482)
  | .pmcSbuf => ⟨0xFF0004000090, [(0x100, 56)],
      [fd "ADDR" 47 12 .rw,
       fr "K" 4 0 .rw 0 6 20]⟩
  -- PMC.GCTL (R478)
  | .pmcGctl => ⟨0xFF0004800000, [(0x40, 16)],
      [fd "EN" 63 63 .rw,
       fr "PID" 57 52 .rw 0 0 48,
       fr "IVL" 19 0 .rw 0x3e8 1 1000000]⟩
  -- PMC.GBUF (R478)
  | .pmcGbuf => ⟨0xFF0004800008, [(0x40, 16)],
      [fd "ADDR" 47 12 .rw,
       fr "K" 4 0 .rw 0 5 24]⟩
  -- PMC.GMASK0 (R478)
  | .pmcGmask0 => ⟨0xFF0004800010, [(0x40, 16)],
      [fd "BLK" 63 0 .rw]⟩
  -- PMC.GMASK1 (R478)
  | .pmcGmask1 => ⟨0xFF0004800018, [(0x40, 16)],
      [fd "BLK" 63 0 .rw]⟩
  -- PMC.GSTAT (R478)
  | .pmcGstat => ⟨0xFF0004800020, [(0x40, 16)],
      [fd "SEQ" 63 32 .ro,
       fd "MISSED" 31 16 .rc]⟩
  -- POT.BASE (R175)
  | .potBase => ⟨0xFF0005000000, [],
      [fd "ADDR" 47 16 .rwl,
       fd "EN" 0 0 .w1s]⟩
  -- POT.CMD (R175)
  | .potCmd => ⟨0xFF0005000008, [],
      [fd "OWNER" 63 58 .wo,
       fd "WORLD" 57 57 .wo,
       fd "STATE" 56 54 .wo,
       fd "OWNER2" 53 48 .wo,
       fd "GRAN" 47 16 .wo,
       fd "NUM" 15 0 .wo]⟩
  -- POT.CMDSTAT (R175)
  | .potCmdstat => ⟨0xFF0005000010, [],
      [fd "FGRAN" 47 16 .ro,
       fd "STATUS" 1 0 .ro]⟩
  -- POT.SXROOT (R165)
  | .potSxroot => ⟨0xFF0005000018, [],
      [fd "ADDR" 47 11 .rw,
       fd "EN" 0 0 .rw]⟩
  -- POT.PFDIS (R209)
  | .potPfdis => ⟨0xFF0005000020, [],
      [fd "DIS" 48 0 .rw]⟩
  -- POT.TS1 (R165)
  | .potTs1 => ⟨0xFF0005010000, [(0x8, 112)],
      [fd "ASID" 63 48 .rw,
       fd "ADDR" 47 11 .rw,
       fd "EN" 0 0 .rw]⟩
  -- POT.TS2 (R165)
  | .potTs2 => ⟨0xFF0005020000, [(0x8, 112)],
      [fd "VMID" 59 48 .rw,
       fd "ADDR" 47 11 .rw,
       fd "EN" 0 0 .rw]⟩
  -- POT.TH (R165)
  | .potTh => ⟨0xFF0005030000, [(0x8, 112)],
      [fd "ADDR" 47 11 .rw,
       fd "EN" 0 0 .rw]⟩
  -- TRL.RDWIN (R310)
  | .trlRdwin => ⟨0xFF0006000000, [],
      [fr "MS" 19 0 .rw 0x7530 1000 600000]⟩
  -- TRL.ACKTO (R310)
  | .trlAckto => ⟨0xFF0006000008, [],
      [fr "US" 16 0 .rw 0x1f4 50 100000]⟩
  -- TRL.ABTO (R310)
  | .trlAbto => ⟨0xFF0006000010, [],
      [fr "MS" 9 0 .rw 0xa 1 1000]⟩
  -- TRL.OUT (R310)
  | .trlOut => ⟨0xFF0006000018, [],
      [fd "COUNT" 21 0 .ro]⟩
  -- TRL.LATECNT (R310)
  | .trlLatecnt => ⟨0xFF0006000020, [],
      [fd "COUNT" 31 0 .rc]⟩
  -- TRL.CTXBASE (R310)
  | .trlCtxbase => ⟨0xFF0006000028, [],
      [fd "ADDR" 47 16 .rwl,
       fd "EN" 0 0 .w1s]⟩
  -- TRL.DTBASE (R310)
  | .trlDtbase => ⟨0xFF0006000030, [],
      [fd "ADDR" 47 16 .rwl]⟩
  -- TRL.TERM (R344)
  | .trlTerm => ⟨0xFF0006000038, [],
      [fd "TERM" 15 0 .ro 1]⟩
  -- TRL.LBASE (R310)
  | .trlLbase => ⟨0xFF0006010000, [(0x40, 49)],
      [fd "ADDR" 47 16 .rw,
       fr "LSZ" 4 0 .rw 0 10 20]⟩
  -- TRL.PCFG (R310)
  | .trlPcfg => ⟨0xFF0006010008, [(0x40, 49)],
      [fd "EN" 63 63 .rw,
       fd "C0EN" 62 62 .rw,
       fd "DTOFF" 47 32 .rw,
       fr "DTCNT" 14 0 .rw 0 0 16384]⟩
  -- TRL.PSTAT (R310)
  | .trlPstat => ⟨0xFF0006010010, [(0x40, 49)],
      [fd "QUIESCED" 63 63 .ro 1,
       fd "UNACC" 51 32 .ro,
       fd "OUT" 20 0 .ro]⟩
  -- TRL.PGEN (R310)
  | .trlPgen => ⟨0xFF0006010018, [(0x40, 49)],
      [fd "GEN" 15 0 .ro]⟩
  -- TRL.AQ (R355)
  | .trlAq => ⟨0xFF0006010020, [(0x40, 49)],
      [fd "ADDR" 47 14 .rw,
       fr "LEVEL" 7 4 .rw 0 0 7,
       fd "EN" 0 0 .rw]⟩
  -- TRL.POOLA (R355)
  | .trlPoola => ⟨0xFF0006010028, [(0x40, 49)],
      [fr "NSQ" 63 57 .rw 0 0 64,
       fr "NCQ" 56 50 .rw 0 0 64,
       fd "NSVE" 49 46 .rw,
       fd "NGNT" 45 34 .rw,
       fd "LEDGER" 20 0 .rw]⟩
  -- TRL.POOLB (R355)
  | .trlPoolb => ⟨0xFF0006010030, [(0x40, 49)],
      [fr "NVCS" 42 32 .rw 0 0 1024,
       fr "BW" 8 0 .rw 0 0 300]⟩
  -- TRL.PORTST (R311)
  | .trlPortst => ⟨0xFF0008000000, [(0x1000000, 12)],
      [fd "LINK" 63 63 .ro,
       fd "FAILED" 62 62 .ro,
       fd "FAILS" 31 0 .rc]⟩
  -- TRL.PLINK (R344)
  | .trlPlink => ⟨0xFF0008000008, [(0x1000000, 12)],
      [fd "SPEED" 63 60 .ro,
       fd "WIDTH" 59 56 .ro,
       fd "MAXW" 47 46 .rw 3,
       fd "SRIS" 45 45 .rw,
       fd "ECRC" 44 44 .rw 1,
       fr "MPS" 43 42 .rw 0 0 2,
       fd "PERST" 41 41 .rw 1,
       fd "C0OK" 40 40 .ro,
       fd "MSIDROP" 31 0 .rc]⟩
  -- TRL.PARB (R344)
  | .trlParb => ⟨0xFF0008000010, [(0x1000000, 12)],
      [fr "W3" 23 16 .rw 1 1 255,
       fr "W2" 15 8 .rw 4 1 255,
       fr "W1" 7 0 .rw 0x10 1 255]⟩
  -- TRL.PC0 (R344)
  | .trlPc0 => ⟨0xFF0008000018, [(0x1000000, 12)],
      [fd "MAXNS" 63 32 .rc,
       fd "OVER" 31 16 .rc,
       fd "PEND" 4 0 .ro]⟩
  -- TRL.MMIOTO (R239)
  | .trlMmioto => ⟨0xFF0008000F00, [(0x1000000, 12)],
      [fr "TIMEOUT" 16 0 .rw 0x3e8 100 100000]⟩
  -- SCN.CTL (R403)
  | .scnCtl => ⟨0xFF0014000000, [],
      [fd "SWITCH" 2 2 .wo,
       fd "JOIN" 1 1 .wo,
       fd "PAIREN" 0 0 .rwl]⟩
  -- SCN.STAT (R403)
  | .scnStat => ⟨0xFF0014000008, [],
      [fd "ROLE" 63 61 .ro 7,
       fd "LINK" 60 58 .ro,
       fd "PEER" 57 57 .ro,
       fd "FIN" 56 56 .ro,
       fd "FOUT" 55 55 .ro,
       fd "PID" 54 54 .ro,
       fd "HBMISS" 19 16 .ro,
       fd "RESEND" 15 0 .rc]⟩
  -- SCN.EPOCH (R403)
  | .scnEpoch => ⟨0xFF0014000010, [],
      [fd "COMMITTED" 63 0 .ro]⟩
  -- SCN.EPCFG (R403)
  | .scnEpcfg => ⟨0xFF0014000018, [],
      [fr "TIMER" 42 32 .rw 0x64 20 2000,
       fr "BUDGET" 18 0 .rw 0x2000 768 262144]⟩
  -- SCN.PRIV (R403)
  | .scnPriv => ⟨0xFF0014000020, [],
      [fd "ADDR" 47 30 .rwl,
       fd "EN" 0 0 .w1s]⟩
  -- SCN.JCFG (R403)
  | .scnJcfg => ⟨0xFF0014000028, [],
      [fr "RATE" 5 0 .rw 0x21 4 60]⟩
  -- SCN.BKLG (R403)
  | .scnBklg => ⟨0xFF0014000030, [],
      [fd "STALLS" 63 32 .rc,
       fd "BYTES" 28 0 .ro]⟩
  -- SVE.STAT (R430)
  | .sveStat => ⟨0xFF0015000000, [],
      [fd "CBUSY" 63 56 .ro,
       fd "DBUSY" 55 48 .ro,
       fd "SCION" 47 40 .ro,
       fd "BLOCKS" 31 0 .rc]⟩
  -- GNT.KSBASE (R454)
  | .gntKsbase => ⟨0xFF0016000000, [],
      [fd "ADDR" 47 20 .rwl,
       fd "EN" 0 0 .w1s]⟩
  -- GNT.STAT (R454)
  | .gntStat => ⟨0xFF0016000008, [],
      [fd "LANES" 63 56 .ro 0x10,
       fd "BUSY" 55 48 .ro,
       fd "UNITS" 31 0 .rc]⟩
  -- GNT.INST (R454)
  | .gntInst => ⟨0xFF0016000010, [],
      [fd "PAIRID" 31 31 .ro,
       fd "NEXT" 30 0 .ro]⟩
  -- GNT.PSLOT (R454)
  | .gntPslot => ⟨0xFF0016000100, [(0x8, 49)],
      [fr "COUNT" 44 32 .rw 0 0 4096,
       fd "BASE" 11 0 .rw]⟩
  -- MC.CFG (R272)
  | .mcCfg => ⟨0xFF0020000000, [(0x1000000, 12)],
      [fd "SPEED" 47 40 .ro,
       fd "CAPGIB" 39 24 .ro,
       fd "RANKS" 15 12 .ro,
       fd "DPC" 9 8 .ro,
       fd "WIDTH" 4 4 .ro,
       fd "EN" 0 0 .ro]⟩
  -- MC.SCRUB (R272)
  | .mcScrub => ⟨0xFF0020000008, [(0x1000000, 12)],
      [fr "PERIOD" 7 0 .rw 0x18 1 168]⟩
  -- MC.ERRCNT (R272)
  | .mcErrcnt => ⟨0xFF0020000010, [(0x1000000, 12)],
      [fd "CE" 63 32 .rc,
       fd "UCE" 31 16 .rc,
       fd "MARGIN" 15 0 .rc]⟩
  -- MC.DEVMARK (R272)
  | .mcDevmark => ⟨0xFF0020000018, [(0x1000000, 12)],
      [fd "RANK3" 63 48 .ro,
       fd "RANK2" 47 32 .ro,
       fd "RANK1" 31 16 .ro,
       fd "RANK0" 15 0 .ro]⟩
  -- MC.TEMP (R272)
  | .mcTemp => ⟨0xFF0020000020, [(0x1000000, 12)],
      [fd "TRN1" 31 24 .ro,
       fd "TRN0" 23 16 .ro,
       fd "CUR1" 15 8 .ro,
       fd "CUR0" 7 0 .ro]⟩
  -- MC.TRAIN (R272)
  | .mcTrain => ⟨0xFF0020000028, [(0x1000000, 12)],
      [fd "RANK" 11 8 .ro,
       fd "STATE" 7 0 .ro]⟩
  -- CFM.STCS (R546)
  | .cfmStcs => ⟨0xFF0040000000, [],
      [fd "SEC" 47 0 .ro]⟩
  -- CFM.STCN (R546)
  | .cfmStcn => ⟨0xFF0040000008, [],
      [fd "NS" 63 32 .ro,
       fd "FRAC" 31 16 .ro]⟩
  -- CFM.CHG (R546)
  | .cfmChg => ⟨0xFF0040000010, [],
      [fd "V" 63 63 .rc,
       fd "OVF" 62 62 .rc,
       fd "OBJ" 47 24 .rc,
       fd "LEFT" 15 0 .ro]⟩
  -- CFM.STAT (R546)
  | .cfmStat => ⟨0xFF0040000018, [],
      [fd "SYNC" 63 62 .ro,
       fd "LINK" 1 0 .ro]⟩
  -- JRING (R418)
  | .sveJring => ⟨0xF01000000000, [(0x1000, 49), (0x40, 15)],
      [fd "ADDR" 47 12 .rw,
       fr "K" 3 0 .rw 0 4 12]⟩
  -- CRING (R418)
  | .sveCring => ⟨0xF01000000008, [(0x1000, 49), (0x40, 15)],
      [fd "ADDR" 47 12 .rw]⟩
  -- BIND (R418)
  | .sveBind => ⟨0xF01000000010, [(0x1000, 49), (0x40, 15)],
      [fd "EN" 63 63 .rw,
       fd "STATE" 62 61 .ro,
       fd "ERR" 60 56 .ro,
       fd "SET" 42 32 .rw,
       fr "LEVEL" 3 0 .rw 0 0 7]⟩
  -- GJRING (R444)
  | .gntJring => ⟨0xF03000000000, [(0x1000, 49), (0x40, 8)],
      [fd "ADDR" 47 12 .rw,
       fr "K" 3 0 .rw 0 4 12]⟩
  -- GCRING (R444)
  | .gntCring => ⟨0xF03000000008, [(0x1000, 49), (0x40, 8)],
      [fd "ADDR" 47 12 .rw]⟩
  -- GBIND (R444)
  | .gntBind => ⟨0xF03000000010, [(0x1000, 49), (0x40, 8)],
      [fd "EN" 63 63 .rw,
       fd "STATE" 62 61 .ro,
       fd "ERR" 60 56 .ro,
       fd "SET" 42 32 .rw,
       fr "LEVEL" 3 0 .rw 0 0 7]⟩

/-- All registers, in the order of the slots (R23). -/
def Reg.all : List Reg :=
  ([Reg.rstCause, Reg.rstCmd, Reg.rstBlkctl, Reg.rstIdleto, Reg.rstWdog, Reg.rstHbeat,
    Reg.rstCsver, Reg.rstCsctl, Reg.rstCsaddr, Reg.rstCsstat, Reg.rstCoresvc, Reg.rstCorespare,
    Reg.rstCoredeconf, Reg.rstRtycfg, Reg.rstRtystat, Reg.clkValid0, Reg.clkValid1, Reg.clkLoss,
    Reg.pwrCtl, Reg.pwrStat] : List Reg) ++
  ([Reg.pwrLease0, Reg.pwrLease1, Reg.pwrGatereq, Reg.fltRec, Reg.fltAddr, Reg.fltTsec,
    Reg.fltTns, Reg.fltInfo, Reg.fltCtl, Reg.fltPend0, Reg.fltPend1, Reg.fltFatal,
    Reg.fltFcfg, Reg.fltRoute, Reg.fltProute, Reg.fltPrec, Reg.fltPaddr, Reg.fltPtsec,
    Reg.fltPtns, Reg.fltPinfo] : List Reg) ++
  ([Reg.pmcCtl, Reg.pmcCnt, Reg.pmcOwn, Reg.pmcSctl, Reg.pmcSbuf, Reg.pmcGctl,
    Reg.pmcGbuf, Reg.pmcGmask0, Reg.pmcGmask1, Reg.pmcGstat, Reg.potBase, Reg.potCmd,
    Reg.potCmdstat, Reg.potSxroot, Reg.potPfdis, Reg.potTs1, Reg.potTs2, Reg.potTh,
    Reg.trlRdwin, Reg.trlAckto] : List Reg) ++
  ([Reg.trlAbto, Reg.trlOut, Reg.trlLatecnt, Reg.trlCtxbase, Reg.trlDtbase, Reg.trlTerm,
    Reg.trlLbase, Reg.trlPcfg, Reg.trlPstat, Reg.trlPgen, Reg.trlAq, Reg.trlPoola,
    Reg.trlPoolb, Reg.trlPortst, Reg.trlPlink, Reg.trlParb, Reg.trlPc0, Reg.trlMmioto,
    Reg.scnCtl, Reg.scnStat] : List Reg) ++
  ([Reg.scnEpoch, Reg.scnEpcfg, Reg.scnPriv, Reg.scnJcfg, Reg.scnBklg, Reg.sveStat,
    Reg.gntKsbase, Reg.gntStat, Reg.gntInst, Reg.gntPslot, Reg.mcCfg, Reg.mcScrub,
    Reg.mcErrcnt, Reg.mcDevmark, Reg.mcTemp, Reg.mcTrain, Reg.cfmStcs, Reg.cfmStcn,
    Reg.cfmChg, Reg.cfmStat] : List Reg) ++
  ([Reg.sveJring, Reg.sveCring, Reg.sveBind, Reg.gntJring, Reg.gntCring, Reg.gntBind] : List Reg)

/-- The indices that address `a` selects in a row, if it is one of the row's registers. -/
def RegRow.index : List (Nat × Nat) → Nat → Option (List Nat)
  | [], off => if off = 0 then some [] else none
  | (stride, count) :: ds, off =>
    if off / stride < count then (RegRow.index ds (off % stride)).map (off / stride :: ·) else none

def Reg.at? (r : Reg) (a : Nat) : Option (List Nat) :=
  if a < r.row.base then none else RegRow.index r.row.dims (a - r.row.base)

/-- The register at an address (R23); none at an unassigned offset (R24). -/
def regAtIn : List Reg → Nat → Option (Reg × List Nat)
  | [], _ => none
  | r :: rs, a =>
    match r.at? a with
    | some ix => some (r, ix)
    | none => regAtIn rs a

def regAt (a : Nat) : Option (Reg × List Nat) := regAtIn Reg.all a

/-- The address of a register. -/
def Reg.addr (r : Reg) (ix : List Nat) : Nat :=
  r.row.base + ((r.row.dims.zip ix).map fun p => p.1.1 * p.2).sum

/-- Every index of an array of registers. -/
def indices : List (Nat × Nat) → List (List Nat)
  | [] => [[]]
  | (_, count) :: ds => (List.range count).flatMap fun i => (indices ds).map (i :: ·)

/-- The reset value of a register's fields. -/
def fieldsReset (fs : List Field) : W64 := pack (fs.map fun f => (f.hi, f.lo, f.reset))

/-- What an unlisted register address holds. -/
def regDefault (a : Nat) : W64 :=
  match regAt a with
  | some (r, _) => fieldsReset r.row.fields
  | none => 0

/-- One field written, the others unchanged (R10, R11). -/
def Field.write (f : Field) (locked : Bool) (v : W64) (old : W64) : W64 :=
  let n := fld v f.hi f.lo
  let o := fld old f.hi f.lo
  match f.acc with
  | .rw => if f.min ≤ n ∧ n ≤ f.max then setFld old f.hi f.lo n else old
  | .rwl => if !locked ∧ f.min ≤ n ∧ n ≤ f.max then setFld old f.hi f.lo n else old
  | .w1s => setFld old f.hi f.lo (o ||| n)
  | .w1c => setFld old f.hi f.lo (o - (o &&& n))
  | _ => old

/-- A software write of a whole register: field by field (R11). -/
def fieldsWrite (fs : List Field) (locked : Bool) (v old : W64) : W64 :=
  fs.foldl (fun x f => f.write locked v x) old

/-- A software read: WO fields and reserved bits return 0 (R10). -/
def fieldsRead (fs : List Field) (v : W64) : W64 :=
  pack ((fs.filter fun f => f.acc != .wo).map fun f => (f.hi, f.lo, fld v f.hi f.lo))

/-- What a read leaves behind: RC fields cleared (R10). -/
def fieldsAfterRead (fs : List Field) (v : W64) : W64 :=
  fs.foldl (fun x f => if f.acc == .rc then setFld x f.hi f.lo 0 else x) v

end Sys2Proof.Machine
end

