-- ==== Sys2Proof/Machine/ColdTypes.lean ====
section
/-! DEFINITION. The state of Coldframe: sessions, the audit log, the change queue, time (20). -/

namespace Sys2Proof.Machine

/-- A subscription: its object, whether a change of it has not been notified, and the value last known to the
station (R529). -/
structure Sub where
  obj : Nat
  changed : Bool
  value : List Byte
  deriving DecidableEq, Repr

/-- An open session (R524-R529): role, port and MAC address, session key, last executed SEQ and its
response, SEQ of its notifications. -/
structure Session where
  num : Nat
  role : Nat
  port : Nat
  mac : Nat
  ks : List Byte
  seq : Nat
  resp : List Byte
  nseq : Nat
  subs : List Sub
  last : Nat
  deriving DecidableEq, Repr

/-- A session between CHALLENGE and AUTH. -/
structure Opening where
  num : Nat
  role : Nat
  port : Nat
  mac : Nat
  ns : List Byte
  nm : List Byte
  deriving DecidableEq, Repr

/-- The snapshot of a READSEG or the staging of a WRITESEG (R527); session 0xFF00 + PID in-band. -/
structure Segs where
  session : Nat
  obj : Nat
  write : Bool
  data : List Byte
  deriving DecidableEq, Repr

/-- A frame sent by a management port: an Itnov PDU, or a PTP Delay_Req. -/
inductive Frame where
  | itnov (port mac : Nat) (pdu : List Byte)
  | delayReq (port seq : Nat)
  deriving DecidableEq, Repr

/-- A master heard by Announce: its port, the vector that the best master clock algorithm compares, and
currentUtcOffset (R541). -/
structure Master where
  port : Nat
  source : Nat
  prio1 : Nat
  cls : Nat
  acc : Nat
  var : Nat
  prio2 : Nat
  gm : Nat
  steps : Nat
  utc : Nat
  deriving DecidableEq, Repr

/-- The time functions (R539-R544): Sync State, the Time Source in force, consecutive good intervals, the
last offset and path delay in ns, Sync and Delay_Req times, the increment in 2^-40 ns, its history by
second, edges of PPS_IN missed and ignored. -/
structure Ptp where
  sync : Nat
  source : Nat
  good : Nat
  offset : Int
  delay : Int
  masters : List Master
  t1 : Int
  t2 : Int
  t3 : Option (Nat × Int)
  seq : Nat
  inc : Nat
  hist : List Nat
  histSec : Nat
  ppsMiss : Nat
  ppsIgnored : Nat
  deriving DecidableEq, Repr

/-- 5 ns in 2^-40 ns. -/
def incNominal : Nat := 5 * 2 ^ 40

/-- FREE, and the nominal increment. -/
def Ptp.reset : Ptp :=
  { sync := 0, source := 1, good := 0, offset := 0, delay := 0, masters := [], t1 := 0, t2 := 0, t3 := none,
    seq := 0, inc := incNominal, hist := [], histSec := 0, ppsMiss := 0, ppsIgnored := 0 }

/-- HOLDOVER: the frequency is held at its mean over the history (R542). -/
def Ptp.holdover (p : Ptp) : Ptp :=
  { p with
    sync := 3, good := 0, ppsMiss := 0,
    inc := if p.hist.isEmpty then p.inc else p.hist.sum / p.hist.length }

/-- An in-band request, and its response once it is ready (R531). -/
structure InBand where
  req : List Byte
  resp : Option (List Byte)
  deriving DecidableEq, Repr

structure Cold where
  sessions : List Session
  openings : List Opening
  /-- Failed AUTH steps: role and STC second; and the roles locked out (R528). -/
  fails : List (Nat × Nat)
  locked : List Nat
  segs : List Segs
  /-- The audit log: next INDEX, the 16,384 slots, the anchor, the last LINK, and whether it cannot append
  (R532-R534). -/
  head : Nat
  audit : Map (List Byte)
  anchor : List Byte
  link : List Byte
  auditBad : Bool
  /-- The queue behind CFM.CHG (R513). -/
  chg : List Nat
  chgOvf : Bool
  /-- Frames sent, oldest first, and frames discarded (R522). -/
  sent : List Frame
  dropped : Nat
  inband : List (Nat × InBand)
  link0 : Bool
  link1 : Bool
  makerOpen : Bool
  /-- The ZERO-PENDING mark, and whether no AUX cold reset has come since it was set (R536, R537). -/
  zeroPending : Bool
  zeroFresh : Bool
  /-- State of each partition (R517); 4: its threads are held once the reset ends. -/
  pst : Map Nat
  ptp : Ptp
  deriving DecidableEq, Repr

def Cold.reset : Cold :=
  { sessions := [], openings := [], fails := [], locked := [], segs := [], head := 0, audit := [],
    anchor := List.replicate 32 0, link := List.replicate 32 0, auditBad := false, chg := [], chgOvf := false,
    sent := [], dropped := 0, inband := [], link0 := true, link1 := true, makerOpen := false, zeroPending := false, zeroFresh := false,
    pst := [], ptp := Ptp.reset }

end Sys2Proof.Machine
end

