-- ==== Sys2Proof/Machine/McTypes.lean ====
section
/-! DEFINITION. The state of a memory controller beside its registers (10). -/

namespace Sys2Proof.Machine

/-- What the SPD hub of a DIMM says (R247, R249, R253): an RDIMM with the features that R247 lists, the device width
in bits, the stack height, the physical ranks, the capacity in GiB and the speed grade in hundreds of MT/s; its device's
bank groups, banks of a group and columns, as powers of two. `answers`: the hub answers. -/
structure Dimm where
  rdimm : Bool
  width : Nat
  stack : Nat
  ranks : Nat
  cap : Nat
  speed : Nat
  bgBits : Nat
  bankBits : Nat
  colBits : Nat
  answers : Bool
  deriving DecidableEq, Repr

/-- The DRAM coordinates of a channel-local line (R253). -/
structure DramAt where
  bg : Nat
  bank : Nat
  rank : Nat
  dimm : Nat
  cid : Nat
  col : Nat
  row : Nat
  deriving DecidableEq, Repr

/-- A correction kept for the mark rule: rank, device position, STC second (R257). -/
structure Correction where
  rank : Nat
  pos : Nat
  sec : Nat
  deriving DecidableEq, Repr

structure Mc where
  /-- The write queue is draining: it passed 96 entries and has not fallen to 32 (R251). -/
  draining : Bool
  corrections : List Correction
  /-- Last STC second in which 0x0301 was recorded, by rank (R271). -/
  rated301 : Map Nat
  /-- Next channel-local line of the patrol (R260). -/
  patrol : Nat
  /-- Lines with a scrub write-back on the way, not superseded (R262). -/
  scrubs : List Nat
  /-- Unanswered sensor reads in a row, of DIMM 0 and DIMM 1 (R263). -/
  silent0 : Nat
  silent1 : Nat
  halfRate : Bool
  selfRefresh : Bool
  /-- Slices run of the rank in re-training, and ranks that wait (R268, R269). -/
  slices : Nat
  waiting : List Nat
  /-- The temperature of each rank's DIMM at the rank's last full training (R267). -/
  trained : Map Nat
  /-- The rank that an all-bank refresh has just served (R267). -/
  refreshed : Option Nat
  refreshes : Nat
  rfms : Nat
  oscs : Nat
  centrings : Nat
  deriving DecidableEq, Repr

def Mc.reset (_ : Nat) : Mc :=
  { draining := false, corrections := [], rated301 := [], patrol := 0, scrubs := [], silent0 := 0,
    silent1 := 0, halfRate := false, selfRefresh := false, slices := 0, waiting := [], trained := [],
    refreshed := none, refreshes := 0, rfms := 0, oscs := 0, centrings := 0 }

end Sys2Proof.Machine
end

