-- ==== Sys2Proof/Machine/OdTable.lean ====
section
/-! DEFINITION. The objects of the Itnov Dictionary: number, type, rights, default, range, persistence
and effect (20 R509-R517). -/

namespace Sys2Proof.Machine

/-- Rights of a role: none, R, W, RW. -/
inductive Rt where
  | no | r | w | rw
  deriving DecidableEq, Repr

inductive Pers where
  | volatile | retained | factory
  deriving DecidableEq, Repr

/-- Effect classes; `none` of an object that no write reaches or whose row names none. -/
inductive Eff where
  | none | c | s | n | p | a
  deriving DecidableEq, Repr

/-- A dictionary object. `size` is its encoded length in bytes; `signed` compares a range in two's
complement. -/
structure OdRow where
  typ : Nat
  size : Nat
  o : Rt
  i : Rt
  m : Rt
  dflt : Nat
  lo : Int
  hi : Int
  pers : Pers
  eff : Eff
  live : Bool
  deriving DecidableEq, Repr

/-- Type codes (R510) and their sizes. -/
def tU8 : Nat := 1
def tU16 : Nat := 2
def tU32 : Nat := 3
def tU64 : Nat := 4
def tS8 : Nat := 5
def tS16 : Nat := 6
def tS32 : Nat := 7
def tS64 : Nat := 8
def tBool : Nat := 0x0B
def tStr : Nat := 0x0C
def tBlob : Nat := 0x0D
def tTime : Nat := 0x0E
def tEnum : Nat := 0x0F
def typSize (t : Nat) : Nat :=
  if t = 1 ∨ t = 5 ∨ t = 0x0B ∨ t = 0x0F then 1
  else if t = 2 ∨ t = 6 then 2
  else if t = 3 ∨ t = 7 ∨ t = 9 then 4
  else if t = 0x0E then 12
  else 8

/-- An object that is only read. -/
def roRow (t size : Nat) (pers : Pers) (live : Bool := false) : OdRow :=
  ⟨t, size, .r, .r, .r, 0, 0, 2 ^ (8 * size) - 1, pers, .none, live⟩

/-- R/RW/R with a default and a range. -/
def cfgRow (t dflt : Nat) (lo hi : Int) (eff : Eff) (pers : Pers := .retained) : OdRow :=
  ⟨t, typSize t, .r, .rw, .r, dflt, lo, hi, pers, eff, false⟩

/-- An action of the Installer. -/
def actRow (t size : Nat) (lo hi : Int) (live : Bool := false) : OdRow :=
  ⟨t, size, .no, .w, .no, 0, lo, hi, .volatile, .a, live⟩

/-- A BLOB with R/RW/R rights, zero by default. -/
def blobRow (size : Nat) (eff : Eff) (pers : Pers := .retained) : OdRow :=
  ⟨tBlob, size, .r, .rw, .r, 0, 0, 2 ^ (8 * size) - 1, pers, eff, false⟩

/-- A key that is only written. -/
def keyRow (o i m : Rt) (pers : Pers) (eff : Eff) : OdRow := ⟨tBlob, 32, o, i, m, 0, 0, 2 ^ 256 - 1, pers, eff, false⟩

/-- The events of R475 by dictionary type (0 core to 0xE Coldframe) and event number. -/
def eventNames : List (Nat × Nat × String) :=
  [(0, 0x100, "Instructions retired"), (0, 0x101, "Retire groups hardened"), (0, 0x110, "Retry attempts"),
   (0, 0x120, "Window spills"), (0, 0x121, "Window fills"), (0, 0x130, "L1D misses"), (0, 0x131, "L2 misses"),
   (0, 0x132, "L2 misses served by another L2"), (0, 0x140, "Conditional branches mispredicted"),
   (0, 0x150, "Retire groups stalled by the Scion backlog"), (0, 0xF00, "Slots"), (0, 0xF01, "Retired"),
   (0, 0xF02, "Wasted"), (0, 0xF03, "Front-starved"), (0, 0xF04, "Back-starved")] ++
  [(1, 0x200, "Lookups"), (1, 0x201, "Misses"), (1, 0x210, "Conflict-queue entries made"), (1, 0x220, "Pin overflows"),
   (2, 0x300, "Lines read"), (2, 0x301, "Lines written"), (2, 0x310, "Outer-code corrections"),
   (4, 0x400, "Exchanges sent"), (4, 0x401, "Exchanges redriven"), (4, 0x410, "Class 0 exchanges sent"),
   (5, 0x500, "Epochs closed"), (5, 0x501, "Express closes"), (5, 0x510, "Line records shipped")] ++
  [(6, 0x600, "Blocks or units completed"), (6, 0x601, "Jobs ended non-zero"), (7, 0x600, "Blocks or units completed"),
   (7, 0x601, "Jobs ended non-zero"), (8, 0x700, "POT cache misses")]

/-- The name of an event; every type counts its island's cycles. -/
def eventName (typ ev : Nat) : Option String :=
  if ev = 1 ∧ typ ≤ 0xE then some "Cycles"
  else (eventNames.find? fun e => e.1 == typ && e.2.1 == ev).map fun e => e.2.2

def odRow0 (k : Nat) : Option OdRow :=
  match k with
  | 0x000000 => some (roRow tU64 8 .factory)
  | 0x000001 => some (roRow tBlob 8 .volatile true)
  | 0x000002 => some (roRow tEnum 1 .volatile true)
  | 0x000010 => some ⟨tBlob, 512, .no, .r, .rw, 0, 0, 2 ^ 4096 - 1, .factory, .n, false⟩
  | 0x010000 => some (keyRow .no .w .no .retained .c)
  | 0x010001 => some (keyRow .no .w .no .retained .c)
  | 0x010002 => some (keyRow .no .no .w .factory .c)
  | 0x010010 => some (roRow tBlob 64 .volatile)
  | 0x010011 => some (cfgRow tU16 60 10 3600 .c)
  | 0x010012 => some (cfgRow tU16 60 10 3600 .c)
  | 0x020000 => some (roRow tU32 4 .retained)
  | 0x020001 => some (roRow tBlob 0x200000 .retained)
  | 0x020002 => some (roRow tBlob 32 .retained)
  | _ => none

def odRow3 (k : Nat) : Option OdRow :=
  let q := k % 0x10000 / 0x10
  if 1 < q then none
  else match k % 0x10 with
    | 0 => some (cfgRow tU8 255 0 255 .c)
    | 1 => some (cfgRow tU8 8 2 8 .c)
    | 2 => some (roRow tU64 8 .factory)
    | _ => none

def odRow4 (k : Nat) : Option OdRow :=
  match k with
  | 0x040000 => some (cfgRow tTime 0 0 (2 ^ 96 - 1) .c .volatile)
  | 0x040001 => some (cfgRow tEnum 1 0 2 .c)
  | 0x040002 => some (cfgRow tU8 0 0 127 .c)
  | 0x040003 => some (roRow tEnum 1 .volatile)
  | 0x040004 => some (roRow tS64 8 .volatile)
  | 0x040005 => some (roRow tU64 8 .volatile)
  | 0x040006 => some (roRow tS16 2 .volatile)
  | 0x040007 => some (cfgRow tBool 0 0 1 .c)
  | 0x040008 => some (cfgRow tS32 0 (-1000000) 1000000 .c)
  | 0x040009 => some (cfgRow tU32 3600 60 86400 .c)
  | 0x04000A => some (cfgRow tTime (2 ^ 96 - 1) 0 (2 ^ 96 - 1) .c .volatile)
  | _ => none

def odRow5 (k : Nat) : Option OdRow :=
  match k with
  | 0x050000 => some (roRow tEnum 1 .volatile)
  | 0x050001 => some (actRow tEnum 1 1 3)
  | 0x050002 => some (actRow tEnum 1 1 3)
  | 0x050003 => some ⟨tU32, 4, .no, .rw, .no, 0, 0, 2 ^ 32 - 1, .volatile, .a, true⟩
  | 0x050004 => some (roRow tU64 8 .volatile)
  | 0x050005 => some (roRow tS8 1 .volatile true)
  | 0x060000 => some (roRow tU16 2 .volatile)
  | 0x060001 => some (cfgRow tU16 0 0 65535 .c .volatile)
  | 0x080000 => some (cfgRow tBool 1 0 1 .s)
  | 0x080001 => some (cfgRow tU16 10 1 1000 .s)
  | 0x080010 => some (roRow tU64 8 .retained)
  | 0x100000 => some (roRow tBlob 96 .volatile)
  | 0x100001 => some (cfgRow tU8 24 1 168 .s)
  | 0x100002 => some (cfgRow tU16 64 1 4096 .s)
  | 0x110000 => some (roRow tBlob 24 .volatile true)
  | 0x110001 => some (cfgRow tU16 16 0 65535 .s)
  | 0x200000 => some (cfgRow tU32 30000 1000 600000 .s)
  | 0x200001 => some (cfgRow tU32 500 50 100000 .s)
  | 0x200002 => some (cfgRow tU16 10 1 1000 .s)
  | 0x220000 => some (blobRow 0x400000 .s)
  | _ => none

def odRow21 (k : Nat) : Option OdRow :=
  if 11 < k % 0x10000 / 0x10 then none
  else match k % 0x10 with
    | 0 => some (cfgRow tEnum 3 0 3 .s)
    | 1 => some (cfgRow tBool 0 0 1 .n)
    | 2 => some (cfgRow tEnum 0 0 2 .n)
    | 3 => some (cfgRow tU32 1000 100 100000 .s)
    | 4 => some (cfgRow tU32 0x10410 0 (2 ^ 32 - 1) .s)
    | 5 => some (actRow tBool 1 0 1)
    | 6 => some (roRow tBlob 24 .volatile true)
    | _ => none

def odRow31 (k : Nat) : Option OdRow :=
  match k with
  | 0x310000 => some (cfgRow tBool 0 0 1 .n)
  | 0x310001 => some (cfgRow tU16 10 1 600 .n)
  | 0x310002 => some (keyRow .no .w .no .retained .n)
  | 0x310003 => some (cfgRow tU32 8192 768 262144 .s)
  | 0x310004 => some (cfgRow tU32 100 20 2000 .s)
  | 0x310005 => some (cfgRow tU8 33 4 60 .s)
  | 0x310006 => some (actRow tBool 1 1 1)
  | 0x310007 => some (actRow tBool 1 1 1)
  | 0x310008 => some (roRow tBlob 24 .volatile true)
  | 0x400100 => some (actRow tBlob 66 0 (2 ^ 528 - 1) true)
  | 0xF00000 => some ⟨tBool, 1, .r, .r, .rw, 0, 0, 1, .volatile, .a, false⟩
  | 0xF00001 => some (roRow tU8 1 .factory)
  | _ => none

/-- The objects of a partition's group (R517). -/
def odRowP (item : Nat) : Option OdRow :=
  match item with
  | 0x0000 => some (roRow tEnum 1 .volatile)
  | 0x0001 => some ⟨tEnum, 1, .w, .w, .no, 0, 1, 3, .volatile, .a, false⟩
  | 0x0002 => some (cfgRow tU8 0 0 52 .p)
  | 0x0003 => some (cfgRow tU32 0 0 (2 ^ 32 - 1) .p)
  | 0x0004 => some (cfgRow tU64 0 0 (2 ^ 64 - 1) .p)
  | 0x0005 => some (cfgRow tBool 0 0 1 .p)
  | 0x0006 => some (cfgRow tBool 0 0 1 .none)
  | 0x0007 => some (cfgRow tBool 0 0 1 .s)
  | 0x0008 => some (cfgRow tBool 0 0 1 .p)
  | 0x0009 => some (blobRow 16 .p)
  | 0x000A => some (cfgRow tU8 14 10 20 .p)
  | 0x000B => some (cfgRow tU32 0 0 (2 ^ 32 - 1) .p)
  | 0x0010 => some { blobRow 64 .s .volatile with o := .rw }
  | 0x0011 => some { blobRow 24 .s .volatile with o := .rw }
  | 0x0012 => some { blobRow 16 .s .volatile with o := .rw }
  | 0x0013 => some (roRow tU8 1 .volatile)
  | _ => none

/-- The object of a number (R509, R515-R517); none where the number names no object. -/
def odRow (k : Nat) : Option OdRow :=
  let g := k / 0x10000
  let item := k % 0x10000
  if g ≤ 2 then odRow0 k
  else if g = 3 then odRow3 k
  else if g = 4 then odRow4 k
  else if g = 0x21 then odRow21 k
  else if g = 8 ∧ 0x100 ≤ item ∧ item ≤ 0x172 then some (roRow tBlob 40 .retained)
  else if g = 0x10 ∧ 0x10 ≤ item ∧ item < 0x1C then some (roRow tBlob 40 .volatile true)
  else if g = 0x40 ∧ 1 ≤ item ∧ item ≤ 48 then some (cfgRow tU32 0 0 (2 ^ 32 - 1) .s)
  else if g = 0x50 then (eventName (item / 0x1000) (item % 0x1000)).map fun n => roRow tStr n.utf8ByteSize .factory
  else if 0x61 ≤ g ∧ g ≤ 0x90 then odRowP item
  else if g = 0x31 ∨ g = 0x40 ∨ g = 0xF0 then odRow31 k
  else odRow5 k

/-- The value of an object that nothing has written. Keys from 2^24 on hold the values in force of objects of
effect P (R517). -/
def odDefault (k : Nat) : Nat :=
  match odRow (k % 2 ^ 24) with
  | some r => r.dflt
  | none => 0

end Sys2Proof.Machine
end

