-- ==== Sys2Proof/Machine/CoreTypes.lean ====
section
/-! DEFINITION. The state of a hardware thread, of a core, and of the caches and home slices:
plain data (02, 06, 07, 08, 09). -/

namespace Sys2Proof.Machine

/-- The pending delay of a load-class instruction: its destination, and the value that the next
instruction still reads there (R38, R39). -/
structure Delay where
  isF : Bool
  reg : Nat
  old : W128
  deriving DecidableEq, Repr

/-- State-register fields and lowest levels of R40; level 4 stands for "no level". -/
structure SrRow where
  rd : Nat
  wr : Nat
  fields : List Field
  deriving DecidableEq, Repr

/-- SR.ESTAT (R49). -/
def estatFields : List Field :=
  [fd "FLG" 63 60 .rw, fd "LDP" 45 45 .rw, fd "LDF" 44 44 .rw, fd "LDR" 43 38 .rw,
   fd "CWP" 20 16 .ro, fd "PL" 15 14 .rw, fd "IE" 13 13 .rw, fd "FPE" 12 12 .rw,
   fd "IPL" 11 8 .rw]

/-- SR.ECAUSE (R49). -/
def ecauseFields : List Field :=
  [fd "BUSY" 63 63 .rw, fd "ILVL" 23 20 .ro, fd "STG" 19 18 .ro, fd "WR" 17 17 .ro,
   fd "WF" 16 16 .ro, fd "RF" 15 15 .ro, fd "INT" 8 8 .ro, fd "CODE" 7 0 .ro]

/-- The eight registers of an exception bank (R48, R49). -/
def bankFields : Nat → List Field
  | 0 => [fd "ADDR" 63 2 .rw]
  | 1 => estatFields
  | 2 => ecauseFields
  | 6 => [fd "ADDR" 63 14 .rw]
  | _ => [fd "VALUE" 63 0 .rw]

def timeFields (acc : Acc) (reset : Nat) : List Field :=
  [fd "SEC" 63 32 acc reset, fd "NS" 31 0 acc reset]

/-- The state registers (R40-R49); none is an unlisted number. DESIGN CHOICE: log 30. -/
def srRow (n : Nat) : Option SrRow :=
  if n = 0x000 then some ⟨0, 0, [fd "N" 3 3 .rw, fd "Z" 2 2 .rw, fd "V" 1 1 .rw, fd "C" 0 0 .rw]⟩
  else if n = 0x001 then some ⟨0, 1, [fd "PL" 15 14 .ro 3, fd "IE" 13 13 .rw, fd "FPE" 12 12 .rw,
    fd "IPL" 11 8 .rw]⟩
  else if n = 0x002 then some ⟨0, 4, [fd "RES" 12 8 .ro 1, fd "CWP" 4 0 .ro]⟩
  else if n = 0x003 then some ⟨0, 0, [fr "DRM" 23 21 .rw 0 0 4, fr "BRM" 20 18 .rw 0 0 4,
    fd "FTZ" 17 17 .rw, fd "DAZ" 16 16 .rw, fd "EN" 12 8 .rw, fd "FLAGS" 4 0 .rw]⟩
  else if n = 0x004 then some ⟨0, 3, [fd "C0R" 32 32 .rw, fd "PID" 31 26 .rw, fd "LCORE" 21 16 .rw,
    fd "PCORE" 13 8 .ro, fd "THR" 0 0 .ro]⟩
  else if n = 0x005 then some ⟨0, 4, timeFields .ro 0⟩
  else if n = 0x006 then some ⟨1, 1, timeFields .rw 0xFFFFFFFF⟩
  else if n = 0x007 then some ⟨1, 1, [fd "LVL15_10" 15 10 .ro, fd "LVL9" 9 9 .w1c, fd "LVL8_1" 8 1 .ro]⟩
  else if n = 0x008 then some ⟨4, 1, [fd "LCORE" 21 16 .wo, fd "THR" 0 0 .wo]⟩
  else if n = 0x009 then some ⟨2, 2, [fd "ILVL" 43 33 .rw, fd "ECODE" 31 0 .rw]⟩
  else if n = 0x00A then some ⟨1, 1, [fd "X" 63 48 .rw, fd "H" 47 32 .rw, fd "S" 31 16 .rw, fd "U" 15 0 .rw]⟩
  else if 0x010 ≤ n ∧ n ≤ 0x017 then some ⟨max 1 (n % 4), max 1 (n % 4), [fd "ADDR" 63 8 .rw]⟩
  else if 0x020 ≤ n ∧ n ≤ 0x027 then some ⟨1, 1, bankFields (n % 8)⟩
  else if 0x030 ≤ n ∧ n ≤ 0x037 then some ⟨1, 1, bankFields (n % 8)⟩
  else if 0x038 ≤ n ∧ n ≤ 0x03F then some ⟨2, 2, bankFields (n % 8)⟩
  else if 0x040 ≤ n ∧ n ≤ 0x047 then some ⟨3, 3, bankFields (n % 8)⟩
  else if n = 0x048 then some ⟨3, 3, timeFields .rw 0xFFFFFFFF⟩
  else none

/-- Reset value of a state register (R41-R49). SR.TID is listed by each thread's own reset. -/
def srDefault (n : Nat) : W64 :=
  match srRow n with
  | some r => fieldsReset r.fields
  | none => 0

/-- Level of an unlisted window: User (DESIGN CHOICE, log 2). -/
def lvlDefault (_ : Nat) : Nat := 0
def zero64 (_ : Nat) : W64 := 0
def zero128 (_ : Nat) : W128 := 0

/-- What a checkpoint copies: the architected state of a thread, with the pending load delay and
the reservation (R26, R30, R38, R75, R138). -/
structure Arch where
  regs : Map W64
  fregs : Map W128
  lvls : Map Nat
  pc : W64
  sr : Map W64
  delay : Option Delay
  rsv : Option Nat
  deriving DecidableEq, Repr

/-- Thread state after a module cold reset or a partition reset (R45, R57). DESIGN CHOICE: log 3. -/
def Arch.reset (m : Nat) : Arch :=
  { regs := [], fregs := [], lvls := [(0, 3)], pc := 0x100000#64,
    sr := Map.set srDefault [] 4 (pack [(21, 16, m / 2), (13, 8, m / 2), (0, 0, m % 2)]),
    delay := none, rsv := none }

/-- What a thread is doing: held in core reset, running, in WAIT, or stopped by the fault with a
code (R56, R83, R143, R215, R502). -/
inductive Run where
  | held
  | running
  | waiting
  | stopped (code : Nat)
  deriving DecidableEq, Repr

/-- A run state as a number, for a register image (DESIGN CHOICE, log 25). -/
def Run.code : Run → Nat
  | .held => 0
  | .running => 1
  | .waiting => 2
  | .stopped c => 3 + c

/-- Does a thread in this state run, WAIT included? -/
def Run.acts (r : Run) : Bool := r == .running || r == .waiting

def Run.ofCode : Nat → Run
  | 0 => .held
  | 1 => .running
  | 2 => .waiting
  | c => .stopped (c - 3)

/-- One retired store: its bytes from a physical address on, the number of its retire group, the epoch that was open
(R155), the logical thread and the PID that made it (R240), and the STC in nanoseconds (R245). `desc`: it sets the flag
of a descriptor, whose line the thread holds exclusively until it is performed (R88). -/
structure Store where
  addr : Nat
  bytes : List Byte
  seq : Nat
  ep : Nat
  who : Nat
  pid : Nat
  born : Nat
  desc : Bool
  deriving DecidableEq, Repr

/-- A store-buffer entry: one 256-byte line, or one device store (R230, R231). `fence`: the retire group of the first
atomic, STCD or doorbell store after it, since which nothing merges into it. `gen`: how many barriers with
SS set came before it; it drains after every entry of a lower number (R231, R232, R235). -/
structure SbEntry where
  device : Bool
  line : Nat
  stores : List Store
  fence : Option Nat
  gen : Nat
  deriving DecidableEq, Repr

/-- A line of the non-temporal combining buffer with the stores merged into it, oldest first, all of one epoch (R233,
R244). -/
structure CbLine where
  line : Nat
  stores : List Store
  deriving DecidableEq, Repr

/-- A device load sent to a port and not answered yet, or its address translation done and the
value kept for a retry (R226, R242). -/
structure DevLoad where
  port : Nat
  addr : Nat
  op : LoadOp
  rd : Nat
  deriving DecidableEq, Repr

/-- The queue slot of an XPOST or ECALL that has not hardened, which a re-run uses again: the doorbell
page address of its queue, the slot, and the number of its retire group (R127). -/
structure KeptSlot where
  db : Nat
  slot : Nat
  seq : Nat
  deriving DecidableEq, Repr

/-- The part of a constrained loop that has run: the address of its LDRV, the reserved line, the instructions
retired from the LDRV on, how many of its iterations have failed, and the addresses that other agents' stores have
written since the LDRV of an iteration that completes, which are ordered after its STCD (R77, R78). -/
structure Loop where
  start : W64
  line : Nat
  count : Nat
  fails : Nat
  late : List Nat
  deriving DecidableEq, Repr

/-- Where a patched routine stands between two unit commits: the next microaddress, the micro-temporaries and micro-flags,
the outcome of the last check, and the queue slots that it has reserved (R126, R127). -/
structure Midway where
  upc : Nat
  temps : Map W64
  flags : BitVec 4
  ok : Bool
  slots : List (Nat × Nat)
  deriving DecidableEq, Repr

/-- A hardware thread. `hard` is the last hardened checkpoint, `groups` the retired groups that
have not hardened, oldest first; group `n` has hardened exactly when `n ≤ hseq`. -/
structure Thread where
  cur : Arch
  hard : Arch
  groups : List Arch
  seq : Nat
  hseq : Nat
  snap : Arch
  snapRun : Nat
  run : Run
  sb : List SbEntry
  barGen : Nat
  /-- The retire groups of barriers with SS set that may not have hardened (R231, R235). -/
  bars : List Nat
  cb : List CbLine
  ipi : Bool
  losses : List Nat
  stcn : W64
  /-- How often the routine at an address was abandoned for interrupts in succession (R130). -/
  abandons : List (W64 × Nat)
  kept : List KeptSlot
  devLoad : Option DevLoad
  devVal : Option (Nat × Nat)
  hold : Option Nat
  /-- Lines whose hold ran out and whose L2 has answered no snoop for them since (R214). -/
  spentHold : List Nat
  /-- The constrained loop that the thread runs (R77, R78). -/
  loop : Option Loop
  /-- The patched routine that goes on at the pc after a unit commit (R126). -/
  mid : Option Midway
  fatalStop : Bool
  /-- The gate request that its service call posted waits for the island to become idle (R184, R190). -/
  svcWait : Bool
  deriving DecidableEq, Repr

/-- A thread at reset. The boot thread runs (R501), every other is held (R502). -/
def Thread.reset (m : Nat) : Thread :=
  { cur := Arch.reset m, hard := Arch.reset m, groups := [], seq := 0, hseq := 0,
    snap := Arch.reset m, snapRun := if m = 0 then 1 else 0, run := if m = 0 then .running else .held, sb := [], barGen := 0, bars := [], cb := [],
    ipi := false, losses := [], stcn := 0, abandons := [], kept := [], devLoad := none,
    devVal := none, hold := none, spentHold := [], loop := none, mid := none, fatalStop := false,
    svcWait := false }

/-- Which tables built a translation-cache entry (R157, R167). -/
inductive Regime where
  | user      -- stage 1, then stage 2 (User and Supervisor)
  | hyp       -- POT.TH
  | secure    -- POT.SXROOT
  deriving DecidableEq, Repr

/-- A TLB entry: `size` bytes at input address `va` map to `pa`, under the tags of R167; a tag is none where
its stage is off. `ia`: the intermediate address that `va` maps to; `page`: the page of the first walk that holds
it, its base and size, which may be larger (R167, R566); `used`: the intermediate pages of every stage 2 entry that
the translation used, its table reads included (R566, scope 2). -/
structure TlbEntry where
  regime : Regime
  pid : Nat
  vmid : Option Nat
  asid : Option Nat
  glob : Bool
  va : Nat
  size : Nat
  pa : Nat
  ia : Nat
  page : Nat × Nat
  used : List (Nat × Nat)
  u : Bool
  w : Bool
  xu : Bool
  xs : Bool
  r2 : Bool
  w2 : Bool
  x2 : Bool
  dirty : Bool
  deriving DecidableEq, Repr

/-- A walk-cache entry: the table pointer read at `level` for input addresses that share
`prefix` (R167). -/
structure WalkEntry where
  regime : Regime
  stage2 : Bool
  pid : Nat
  vmid : Option Nat
  asid : Option Nat
  level : Nat
  pre : Nat
  next : Nat
  used : List (Nat × Nat)
  deriving DecidableEq, Repr

/-- A sample in flight (R483). -/
structure Sample where
  thread : Nat
  pc : W64
  pid : Nat
  lvl : Nat
  time : W64
  deriving DecidableEq, Repr

/-- A physical core: retry, first-level and translation caches, control store and sampling state. -/
structure Core where
  /-- Attempts for the restored checkpoint, the thread whose group failed, and the code of a check
  that makes the core wait for its sparing (R141, R147). -/
  attempts : Nat
  alone : Nat
  /-- The code of the check that the retry under way answers (R142). -/
  rcode : Nat
  due : Option Nat
  /-- The time of the event that made the sparing due (R152). -/
  dueAt : Nat
  retries : Nat
  outside : Nat
  lastSec : Nat
  ratedSec : Option Nat
  /-- The L1 ITLB, the L1 DTLB, the L2 TLB and the walk cache (R167). -/
  itlb : List TlbEntry
  dtlb : List TlbEntry
  tlb : List TlbEntry
  walk : List WalkEntry
  /-- The granule check cache: granules with their POT entries (R170). -/
  grc : List (Nat × W64)
  /-- Lines of the L1I and the L1D by set (R191, R192). -/
  l1i : Map (List Nat)
  l1d : Map (List Nat)
  /-- The patch RAM by microaddress, each word with its ECC, and the dispatch overrides applied over the ROM
  entries (R119, R124, R136). -/
  pram : Map (BitVec 160)
  disp : Map (BitVec 16)
  sample : Option Sample
  sampleSeq : Nat
  deriving DecidableEq, Repr

def Core.reset (_ : Nat) : Core :=
  { attempts := 0, alone := 0, rcode := 0, due := none, dueAt := 0, retries := 0, outside := 0, lastSec := 0, ratedSec := none,
    itlb := [], dtlb := [], tlb := [], walk := [], grc := [], l1i := [], l1d := [], pram := [], disp := [],
    sample := none, sampleSeq := 0 }

/-- L2 line states (R197). -/
inductive L2State where
  | i | s | f | e | o | m | ep
  deriving DecidableEq, Repr

/-- An L2 line: its state, and the marks of R380. `fromO`: an EP line that was O. -/
structure L2Line where
  st : L2State
  ps : Bool
  se : Nat
  deriving DecidableEq, Repr

def L2Line.none (_ : Nat) : L2Line := ⟨.i, false, 0⟩

/-- The active patch: its image's address and granules, SHA-384, number of microwords, and dispatch overrides
(R131-R136). -/
structure Patch where
  base : Nat
  granules : Nat
  digest : List Byte
  words : Nat
  disp : Map (BitVec 16)
  deriving DecidableEq, Repr

/-- A line in its way of an L3 set. -/
structure L3Line where
  line : Nat
  way : Nat
  deriving DecidableEq, Repr

/-- No line of an L3 set is held. -/
def noL3 (_ : Nat) : List L3Line := []

/-- Requests at a home slice (R199). -/
inductive ReqKind where
  | rdShared | prefRd | rdOwn | upgrade | rdOnce | wrInv | wrInvPart
  deriving DecidableEq, Repr

/-- Who asks: an L2, a core's combining buffer, or a hub block (its hub-ring stop, R195). -/
inductive Agent where
  | core (c : Nat)
  | comb (t : Nat)
  | hub (stop : Nat)
  deriving DecidableEq, Repr

/-- Snoop responses (R203). -/
inductive Rsp where
  | i | s | data (from_m : Bool) | dataWb | goneWb
  deriving DecidableEq, Repr

/-- A request for a line; a write carries its bytes by offset. -/
structure Req where
  kind : ReqKind
  agent : Agent
  line : Nat
  data : List (Nat × Byte)
  deriving DecidableEq, Repr

/-- The active transaction of a line: the L2s not snooped yet, the responses in flight, those that wait at
their die-to-die stop for the rest of their tile, those collected at the home, and the conflict queue (R199,
R200). `fetched`: its controller has read the line from DRAM (R250). -/
structure Txn where
  req : Req
  rcm : Bool
  toSnoop : List Nat
  flying : List (Nat × Rsp)
  atStop : List (Nat × Rsp)
  got : List (Nat × Rsp)
  wb : Bool
  filled : Bool
  fetched : Bool
  queue : List Req
  deriving DecidableEq, Repr

/-- A write-back that waits for its acceptance and WbAck (R207). -/
structure WbMsg where
  core : Nat
  line : Nat
  accepted : Bool
  deriving DecidableEq, Repr

/-- A posted adapter MMIO store (R227, R373). -/
structure MmioStore where
  addr : Nat
  data : List Byte
  thread : Nat
  pid : Nat
  deriving DecidableEq, Repr

/-- The MMIO side of a Trellis port (R238-R240, R387): stores held for their epoch's commit, with
the epoch; stores tracked; for each flush read under way how many of them it covers; the cumulative count
performed since epochs started (R373, MMIOP), and the stores from before that which it leaves out; stores discarded while the
path is failed. -/
structure MmioPort where
  held : List (Nat × MmioStore)
  tracked : List MmioStore
  flushes : List Nat
  performed : Nat
  skip : Nat
  lost : Bool
  discarded : Nat
  deriving DecidableEq, Repr

def MmioPort.reset (_ : Nat) : MmioPort :=
  { held := [], tracked := [], flushes := [], performed := 0, skip := 0, lost := false, discarded := 0 }

/-- A sparing (R147-R154): the failing core and its logical core, the code of the check that started
it, whether its checkpoints can be read out, the spare once chosen, and what each thread was doing.
`started` is false while it waits for an earlier sparing (R152), and `since` is the time of its event;
`drop0`, `drop1`: the thread's partition was reset meanwhile, so it does not resume (R153). -/
structure Sparing where
  core : Nat
  lcore : Nat
  code : Nat
  readOut : Bool
  started : Bool
  spare : Option Nat
  run0 : Run
  run1 : Run
  drop0 : Bool
  drop1 : Bool
  since : Nat
  deriving DecidableEq, Repr

end Sys2Proof.Machine
end

