-- ==== Sys2Proof/Machine/PowerTypes.lean ====
section
/-! DEFINITION. The state of islands, resets and power (19), and of the POT unit and gate requests
(07). -/

namespace Sys2Proof.Machine

/-- A clock island: clock-valid, whether it stands in reset or reset-hold, its gating (0 none, 1 clock,
2 power), what RST.BLKCTL reads for it, and whether a reset under way ends in a release
(R184, R488, R497, R499). -/
structure Isl where
  valid : Bool
  held : Bool
  gate : Nat
  status : Nat
  forced : Bool
  release : Bool
  deriving DecidableEq, Repr

def Isl.reset (_ : Nat) : Isl := ⟨true, false, 0, 0, false, false⟩

/-- Start-up: done, MAIN regulators coming up, islands released and memory training, stopped by a
fault (R500, R501). -/
inductive Boot where
  | done | rails | training | stopped
  deriving DecidableEq, Repr

/-- Power states (R504). -/
inductive PState where
  | run | doze | sleep | off
  deriving DecidableEq, Repr

structure Power where
  /-- AUX up, MAIN in its range. -/
  aux : Bool
  main : Bool
  state : PState
  boot : Boot
  /-- The start-up under way follows a module warm reset. -/
  warmBoot : Bool
  /-- A module cold reset applied when MAIN returns, by its source code (R495). -/
  coldDue : Option Nat
  /-- RESET_N holds the module in reset. -/
  heldReset : Bool
  /-- Compute tiles under the issue limit (R506). -/
  hot : List Nat
  /-- What the threads did when Doze stopped them (R505). -/
  dozed : List (Nat × Run)
  /-- A Doze request waits for buffered device stores (R244). -/
  dozeWait : Bool
  /-- A gate request waits for its island to become idle; it was PENDING before (R184, R185). -/
  gateWait : Bool
  gatePend : Bool
  /-- FATAL and a HOLD that still runs (R471). -/
  holdRuns : Bool
  /-- Start-up's use of Recovery Coherence Mode has not ended (R205, R500). -/
  startRcm : Bool
  /-- Partitions whose threads start after a partition reset (R502). -/
  again : List Nat
  /-- Coldframe cycles of 5 ns since the watchdog period began (R497). -/
  wdog : Nat
  /-- The hottest reading of each compute tile, in °C (R506, R507). -/
  tj : Map Nat
  deriving DecidableEq, Repr

/-- Run, with start-up done. -/
def Power.reset : Power :=
  { aux := true, main := true, state := .run, boot := .done, warmBoot := false, coldDue := none,
    heldReset := false, hot := [], dozed := [], dozeWait := false, gateWait := false, gatePend := false,
    holdRuns := false, startRcm := true, again := [], wdog := 0, tj := [] }

/-- The option bytes as shipped (R492): the service mask, and every other field zero (DESIGN CHOICE, log 6). -/
def optDefault (k : Nat) : Byte :=
  if 8 ≤ k ∧ k < 16 then BitVec.ofNat 8 (0x007FFDFFF7FFDFFF / 2 ^ (8 * (15 - k))) else 0

/-- A partition reset in progress (R494, R496, R517), with the threads it holds. -/
structure PReset where
  pid : Nat
  threads : List Nat
  hold : Bool
  deriving DecidableEq, Repr

/-- A Shared-Window offer (R178): from, to, first granule, granules. -/
structure Offer where
  by_ : Nat
  taker : Nat
  first : Nat
  num : Nat
  deriving DecidableEq, Repr

end Sys2Proof.Machine
end

