-- ==== Sys2Proof/Machine/TrellisTypes.lean ====
section
/-! DEFINITION. The state of Trellis: rings, queues, sets, exchanges, ports (11, 12, 13), of the
job contexts of Sieve and Garnet (15, 16), and of the Garnet key store. -/

namespace Sys2Proof.Machine

/-! ## Rings and queues -/

/-- What became of a reserved slot (R278). -/
inductive SlotSt where
  | reserved | ready | released | void
  deriving DecidableEq, Repr

structure Slot where
  idx : Nat
  lcore : Nat
  st : SlotSt
  deriving DecidableEq, Repr

/-- The reservations of a ring: `head` is the next slot to take, `tail` the next to reserve;
`ignored` counts ignored stores (R276-R278). -/
structure Ring where
  head : Nat
  tail : Nat
  slots : List Slot
  ignored : Nat
  deriving DecidableEq, Repr

def Ring.empty : Ring := ⟨0, 0, [], 0⟩

/-- A submission queue. `skipTo`: the slots below it were reserved before a partition reset that
found no room for them (R305). -/
structure Sq where
  pid : Nat
  set : Nat
  q : Nat
  base : Nat
  k : Nat
  cls : Nat
  cq : Nat
  enabled : Bool
  ring : Ring
  nextXsn : Nat
  skipTo : Option Nat
  deriving DecidableEq, Repr

/-- A completion entry in the ring and not passed by the head: its ledger entry, and whether it
raised the interrupt. -/
structure CqSlot where
  lidx : Nat
  irq : Bool
  deriving DecidableEq, Repr

/-- A completion entry that waits: for room, or for a refused write to be retried (R293, R308). -/
structure CqWait where
  lidx : Nat
  irq : Bool
  bytes : List Byte
  deriving DecidableEq, Repr

/-- A completion queue: `head` and `tail` count entries, `live` are those between them. -/
structure Cq where
  pid : Nat
  set : Nat
  q : Nat
  base : Nat
  k : Nat
  cls : Nat
  level : Nat
  enabled : Bool
  head : Nat
  tail : Nat
  live : List CqSlot
  waiting : List CqWait
  deriving DecidableEq, Repr

/-- A dirty-page log (R363). -/
structure Dlog where
  start : Nat
  pages : Nat
  bitmap : Nat
  ovf : Bool
  deriving DecidableEq, Repr

/-- A Virtual Channel Set: quotas in the order of R350, its stage 2 root, its count of discarded
late messages (R356-R362). -/
structure VSet where
  pid : Nat
  id : Nat
  enabled : Bool
  nsq : Nat
  ncq : Nat
  nsve : Nat
  ngnt : Nat
  bw : Nat
  ledger : Nat
  root : W64
  late : Nat
  deriving DecidableEq, Repr

/-- What an admin command that takes time still waits for: exchanges of a set, or of one queue. -/
structure AdminRun where
  cid : Nat
  set : Nat
  queue : Option Nat
  res0 : W64
  opc : Nat
  deriving DecidableEq, Repr

/-- An Admin Queue (R346, R347): submission ring, completion ring, the finished entry that waits for
room, the command in progress. -/
structure AdminQ where
  ring : Ring
  cqHead : Nat
  cqTail : Nat
  waiting : Option (List Byte)
  running : Option AdminRun
  deriving DecidableEq, Repr

def AdminQ.empty (_ : Nat) : AdminQ := ⟨Ring.empty, 0, 0, none, none⟩

/-! ## Exchanges -/

/-- Trellis's copy of a segment descriptor: where the descriptor lies, direction, address form,
physical range, the recorded generation, the flag as Trellis last wrote it, bytes transferred. -/
structure Seg where
  desc : Nat
  dir : Bool
  af : Bool
  addr : Nat
  len : Nat
  gen : Nat
  flag : Nat
  done : Nat
  deriving DecidableEq, Repr

/-- A timestamp: seconds, nanoseconds, 2^-16 ns (R288). -/
structure Stamp where
  sec : Nat
  ns : Nat
  frac : Nat
  deriving DecidableEq, Repr

/-- An exchange that is not terminal (R279, R288-R290, R300, R301). -/
structure Xch where
  pid : Nat
  set : Nat
  q : Nat
  lidx : Nat
  slot : Nat
  xsn : Nat
  gen : Nat
  cls : Nat
  tag : W64
  cmd : List Byte
  dev : Nat
  xf : Nat
  keyslot : Nat
  gop : Nat
  slevel : Nat
  sblk : Nat
  mask : Nat
  irq : Bool
  rwin : Nat
  state : Nat
  path : Nat
  ptried : Nat
  attempts : Nat
  handle : Option Nat
  tpost : Stamp
  twire : Option Stamp
  segs : List Seg
  /-- The Garnet key held from the exchange's start, for its outbound transform (R453). -/
  key : List Byte
  iv : Option (List Byte)
  /-- The staged egress frame (R294). -/
  frame : Option (List Byte)
  frameAddr : Nat
  /-- The Garnet key held from the first unit of the inbound transform on (R453). -/
  inKey : Option (List Byte)
  /-- Inbound staging: its address and the bytes written so far (R296). -/
  stageAddr : Nat
  stageLen : Nat
  staged : List (Nat × Byte)
  /-- The adapter's completion that an inbound transform follows: status, result. -/
  cmpl : Option (Nat × W64)
  done : Nat
  /-- Bytes of the staged frame that the adapter has read (R325). -/
  frameRead : Nat
  /-- Sieve blocks that lanes have taken, those that lanes hold, and Garnet units finished, of the transform under way
  (R406, R434). -/
  blocksTaken : Nat
  inLanes : List Nat
  unitsDone : Nat
  /-- Blocks of the outbound transform whose check the lane failed twice (R411). -/
  spoiled : List Nat
  /-- The redrive window is open (R301). -/
  window : Bool
  /-- It has been sent since its window opened (R301). -/
  resent : Bool
  /-- The exchange is being ended by an abort (R304, R306). -/
  aborting : Bool
  /-- A DMA read met poison (R308). -/
  poisoned : Bool
  measured : Bool
  /-- This Standby has sent the exchange's OUT item (R388). -/
  copySent : Bool
  deriving DecidableEq, Repr

/-- A ledger entry that is terminal and not FREE. -/
structure Kept where
  pid : Nat
  set : Nat
  q : Nat
  cls : Nat
  lidx : Nat
  deriving DecidableEq, Repr

/-- A terminal record whose ledger or completion write was refused (R308): the ledger entry, where
it stands, its completion. -/
structure Refused where
  pid : Nat
  set : Nat
  cq : Nat
  lidx : Nat
  ledger : Option (List Byte)
  irq : Bool
  entry : List Byte
  deriving DecidableEq, Repr

/-- A registered run of windows: first granule, number, generation (R282). -/
structure WinRun where
  pid : Nat
  first : Nat
  num : Nat
  gen : Nat
  deriving DecidableEq, Repr

/-! ## Ports -/

/-- How a DMA read was answered: with data, by a Completer Abort, or refused (R308). -/
inductive DmaAns where
  | data (bs : List Byte)
  | abort
  | refused
  deriving DecidableEq, Repr

/-- A Trellis message from the module (R321, R322), or with `ans` the answer to a DMA read, which shares its class's order
(R327); class 4 stands for TC0. `rid`: the adapter function that it is addressed to (R318). -/
structure TMsg where
  typ : Nat
  gen : Nat
  stream : Nat
  xsn : Nat
  term : Nat
  cls : Nat
  path : Nat
  adev : Nat
  handle : Nat
  body : List Byte
  rid : Nat
  ans : Option DmaAns
  deriving DecidableEq, Repr

/-- A held output (R387): the epoch that created it, its exchange's stream and XSN, and the messages
for its port. `after`: the MMIO stores held at the port that were created before it. -/
structure HeldOut where
  ep : Nat
  port : Nat
  stream : Nat
  xsn : Nat
  msgs : List TMsg
  after : Nat
  deriving DecidableEq, Repr

/-- A DMA request of an adapter (R283, R320): its port and Requester ID, its Trellis tag, if it carries one, its range,
and the data of a write. -/
structure DmaReq where
  port : Nat
  rid : Nat
  tag : Option Nat
  addr : Nat
  len : Nat
  data : Option (List Byte)
  deriving DecidableEq, Repr

/-- A port: what waits for the wire, the messages sent, the answers to DMA reads, withdrawal under way. -/
structure Port where
  outbox : List TMsg
  wire : List TMsg
  answers : List DmaAns
  withdrawing : Bool
  /-- The withdrawal's wait is over, and its ABORTs wait for the commit of their epoch (R317, R387). -/
  ending : Bool
  /-- The class of VC0 whose turn it is, and what it has sent in it (R327). -/
  turn : Nat
  used : Nat
  /-- STC second of the last 0x0608 record (R334). -/
  rated608 : Option Nat
  deriving DecidableEq, Repr

def Port.empty (_ : Nat) : Port := ⟨[], [], [], false, false, 1, 0, none⟩

/-- An item of the Replay Buffer (R390): an adapter message, or a DMA write. `bytes`: the inbound
bytes of the exchange that had arrived up to and including it. -/
structure ReplayItem where
  port : Nat
  typ : Nat
  path : Nat
  stream : Nat
  xsn : Nat
  gen : Nat
  term : Nat
  status : Nat
  result : W64
  dma : Option DmaReq
  bytes : Nat
  deriving DecidableEq, Repr

/-! ## Job contexts -/

/-- A Sieve block that has left its lane and waits to be written: its number, its status, its index
entry (raw flag, stored length, CRC), the input of a compression, the output. -/
structure Blk where
  k : Nat
  status : Nat
  raw : Bool
  clen : Nat
  crc : Nat
  inp : List Byte
  out : List Byte
  deriving DecidableEq, Repr

/-- A job of Sieve or Garnet in progress. `op` is OP or GOP. -/
structure Job where
  slot : Nat
  op : Nat
  tag : W64
  irq : Bool
  segs : List Seg
  /-- Bytes that the output may take. -/
  limit : Nat
  level : Nat
  blk : Nat
  rstart : Nat
  rlen : Nat
  key : List Byte
  iv : List Byte
  /-- The job drew its IV. -/
  ivNew : Bool
  aad : List Byte
  tweak : W64
  expect : List Byte
  chain : Nat
  keyslot : Nat
  wslot : Nat
  /-- Header and index of a frame to decompress. -/
  frame : List Byte
  /-- The message processed so far, over all parts of a chain; the raw data of a compression. -/
  msg : List Byte
  /-- Output of the earlier parts of the chain, in bytes. -/
  base : Nat
  /-- Input bytes read so far. -/
  taken : Nat
  /-- Output bytes written. -/
  wrote : Nat
  /-- Blocks completed; the first block (for Garnet, where the message starts in the input), the next to
  start, and the one after the last. -/
  blocks : Nat
  first : Nat
  next : Nat
  total : Nat
  /-- Blocks that lanes hold, blocks that wait, and the index so far (R409). -/
  busy : List Nat
  ready : List Blk
  index : List (Bool × Nat × Nat)
  /-- Status and block that end the job once its lanes are done. -/
  fail : Option (Nat × Nat)
  deriving DecidableEq, Repr

/-- An open Garnet chain (R443): its GOP, key slot, key, IV, AAD, the message processed so far and the
output bytes it gave. -/
structure Chain where
  gop : Nat
  keyslot : Nat
  key : List Byte
  iv : List Byte
  aad : List Byte
  msg : List Byte
  out : Nat
  deriving DecidableEq, Repr

/-- A job context (R416-R424, R444): STATE of BIND, rings, completions not passed by the head. -/
structure JobCtx where
  state : Nat
  ring : Ring
  cqHead : Nat
  cqTail : Nat
  irqs : List Bool
  waiting : List (Bool × List Byte)
  job : Option Job
  chain : Option Chain
  deriving DecidableEq, Repr

def JobCtx.empty (_ : Nat) : JobCtx := ⟨0, Ring.empty, 0, 0, [], [], none, none⟩

/-! ## Trellis and the engines -/

/-- What Trellis's context area and the engines' contexts hold (R284): mirrored by Scion. -/
structure Trl where
  sqs : List Sq
  cqs : List Cq
  sets : List VSet
  /-- Generations of the sets, kept across removal; a partition's base set has the key 2,048 + PID (R310, R360). -/
  gens : Map Nat
  /-- Late messages of the base sets, by partition (R350). -/
  baseLate : Map Nat
  /-- Dirty logs, by partition × 2048 + set (R363). -/
  dlogs : List (Nat × Dlog)
  admin : Map AdminQ
  xchs : List Xch
  kept : List Kept
  refused : List Refused
  runs : List WinRun
  unacc : Map Nat
  /-- A partition reset is under way at Trellis (R304). -/
  resetting : List Nat
  /-- Job contexts, by engine × 1024 + partition × 16 + context (Sieve 0, Garnet 1). -/
  ctxs : Map JobCtx
  /-- Doorbell stores ignored and counted that concern no ring of a submission side (R276). -/
  ignored : Nat
  deriving DecidableEq, Repr, Inhabited

def Trl.empty : Trl :=
  { sqs := [], cqs := [], sets := [], gens := [], baseLate := [], dlogs := [], admin := [], xchs := [],
    kept := [], refused := [], runs := [], unacc := [], resetting := [], ctxs := [],
    ignored := 0 }

/-- What the 64 MiB context area of a mirror holds: the spec does not state its layout, so a Standby's
Trellis state is a free function of the area's bytes (DESIGN CHOICE, log 27). -/
opaque trellisContext : Map Byte → Trl

/-- A Garnet key slot (R435, R436, R441, R442): state 0 EMPTY, 1 ACTIVE, 2 RETIRED. -/
structure KeySlot where
  st : Nat
  attr : W64
  key : List Byte
  set : Nat
  inst : Nat
  pairId : Bool
  counter : Nat
  ceil : Nat
  fresh : Bool
  deriving DecidableEq, Repr

def KeySlot.empty (_ : Nat) : KeySlot := ⟨0, 0, [], 0, 0, false, 0, 0, false⟩

/-- Work that a lane takes: a run of Scion's records, the job of a context, known by its slot, or an inline exchange, known
by its XSN (R406, R434). -/
inductive Work where
  | scion
  | job (p c slot : Nat)
  | xch (p lidx xsn : Nat)
  deriving DecidableEq, Repr

/-- The turn of the job contexts at one kind of lane: the context served last, and the starts since then, up to 3 (R406,
R434). -/
structure Turn where
  last : Nat
  since : Nat
  deriving DecidableEq, Repr

/-- Sieve: the turns at its compression and at its decompression lanes. -/
structure Sve where
  comp : Turn
  dec : Turn
  deriving DecidableEq, Repr

def Sve.reset : Sve := ⟨⟨0, 0⟩, ⟨0, 0⟩⟩

/-- Garnet: the key-store key, the slots as cached on chip, the next instance value, lanes out of
service, the STC second of each lane's last disagreement, the unit that each lane holds, and the contexts' turn
(R434-R449). -/
structure Gnt where
  ksk : List Byte
  slots : Map KeySlot
  inst : Nat
  outLanes : List Nat
  laneErr : List (Nat × Nat)
  units : List (Nat × Work)
  turn : Turn
  /-- The last module reset was a warm one (R439). -/
  warm : Bool
  deriving DecidableEq, Repr

def Gnt.reset : Gnt := { ksk := [], slots := [], inst := 0, outLanes := [], laneErr := [], units := [], turn := ⟨0, 0⟩, warm := false }

/-- Garnet after a reset: the instance counter goes on at the first block of 256 that is not reserved (R441).
DEDUCED: log 170. -/
def Gnt.afterReset (g : Gnt) : Gnt := { Gnt.reset with inst := (g.inst + 255) / 256 * 256 }

end Sys2Proof.Machine
end

