-- ==== Sys2Proof/Machine/ScionTypes.lean ====
section
/-! DEFINITION. The state of Scion and of the fence and pairing pins (14). -/

namespace Sys2Proof.Machine

/-- Scion records (R373). `ep` is an epoch number. -/
inductive Rec where
  | line (ep line : Nat) (poison : Bool) (data : List Byte)
  | regd (ep thread : Nat) (entries : List (Nat × W64))
  | cfgw (ep addr : Nat) (value : W64)
  | out (ep handle stream : Nat) (abort : Bool) (path xsn : Nat)
  | mmio (ep addr : Nat) (data : List Byte) (pid thread : Nat)
  | mmiop (ep port count : Nat)
  | comp (ep : Nat) (frame : List Byte)
  | img (ep page : Nat) (data : List Byte)
  | close (ep count bytes : Nat)
  | switch (ep count bytes : Nat)
  | ack (ep : Nat)
  | hb (role term ep : Nat)
  | fail (reason : Nat)
  | hello (pairId : Bool) (serial : Nat) (nonce : List Byte)
  | auth (mac : List Byte)
  deriving DecidableEq, Repr

/-- A HELLO received or sent (R372). -/
structure Hello where
  pairId : Bool
  serial : Nat
  nonce : List Byte
  deriving DecidableEq, Repr

/-- A Dirty Log entry: the core whose L2 logged the line (R380). -/
structure LogEntry where
  core : Nat
  line : Nat
  deriving DecidableEq, Repr

/-- Records queued for an epoch whose CLOSE is not queued yet: their number and bytes (R373). -/
structure EpCount where
  ep : Nat
  count : Nat
  bytes : Nat
  deriving DecidableEq, Repr

/-- An Undo Log entry: a line's content before the partial epoch's record (R384). -/
structure UndoEntry where
  line : Nat
  poison : Bool
  data : List Byte
  deriving DecidableEq, Repr

/-- Where a run of records stands in Sieve's Scion context: waiting for a lane, in one, or ready for the link (R383,
R427). -/
inductive ShipSt where
  | waiting | lane | ready
  deriving DecidableEq, Repr

/-- A run of records on its way to the link (R383, R427). -/
structure ShipRun where
  recs : List Rec
  st : ShipSt
  deriving DecidableEq, Repr

/-- Where the source of a join stands (R398): write-back running, image being sent (the next page),
waiting for the switch close, waiting for the ACK of the switch epoch. -/
inductive JoinSrc where
  | writeback
  | image (page : Nat)
  | wantSwitch
  | switching (ep : Nat)
  deriving DecidableEq, Repr

/-- Where a takeover stands (R393): declared, or the Undo Log applied. -/
inductive Takeover where
  | declared
  deriving DecidableEq, Repr

structure Scion where
  /-- R403's ROLE encoding: 0 Solo, 1 Active, 2 Standby, 3 Joining, 4 Fenced, 7 not yet decided. -/
  role : Nat
  grpA : Bool
  grpB : Bool
  trainA : Bool
  trainB : Bool
  resending : Bool
  resends : Nat
  /-- The STC second of the last resend, and the resends in it (R404). -/
  resendSec : Nat
  resendCnt : Nat
  rated702 : Option Nat
  hbMiss : Nat
  mine : Option Hello
  peer : Option Hello
  authSent : Bool
  authed : Bool
  authRetry : Bool
  peerRole : Nat
  peerTerm : Nat
  peerEpoch : Nat
  /-- Epochs are running (R376). -/
  running : Bool
  epoch : Nat
  /-- The Dirty Log half that is logged into (R375, R378). -/
  half : Bool
  /-- Entries that the frozen half has been given. -/
  halfLen : Nat
  frozen : List LogEntry
  logged : List LogEntry
  counts : List EpCount
  /-- The frozen epoch whose CLOSE waits for its last lines (R378). -/
  closing : Option Nat
  /-- A close was requested while the CLOSE before it was still due (R376, R378). -/
  wantClose : Bool
  /-- Lines that a store of the open epoch wrote while a store of the closing epoch to them was buffered: the content for
  the closing epoch (R155). -/
  pre : List (Nat × List Byte)
  queue : List Rec
  /-- Runs handed to Sieve, or ready behind them, in the order in which they go (R383, R427). -/
  ship : List ShipRun
  sent : List Rec
  /-- The number of the next block to arrive, and whether a NAK is due for it (R370). -/
  rxSeq : Nat
  nakOut : Bool
  fullImage : Bool
  stalls : Nat
  stalled : List Nat
  confirming : Bool
  /-- The epoch whose ACK hands over, in a planned switch-over (R396). -/
  switchOver : Option Nat
  joinSrc : Option JoinSrc
  joining : Bool
  imgNext : Nat
  recvEp : Nat
  recvCount : Nat
  recvBytes : Nat
  pend : List Rec
  comm : List Rec
  bankP : Map W64
  bankC : Map W64
  undo : List UndoEntry
  /-- Each port's last committed MMIOP count (R393). -/
  mmioCnt : Map Nat
  /-- Inbound items kept back: withheld from a full Replay Buffer, or at T (R377, R391). -/
  waits : List ReplayItem
  takeover : Option Takeover
  /-- A pairing-role change not read yet (R469). -/
  roleEvent : Bool
  key : List Byte
  serial : Nat
  deriving DecidableEq, Repr

/-- Scion after reset: the role is not yet decided, both lane groups down (R403). -/
def Scion.reset : Scion :=
  { role := 7, grpA := false, grpB := false, trainA := false, trainB := false, resending := false,
    resends := 0, resendSec := 0, resendCnt := 0, rated702 := none, hbMiss := 0, mine := none, peer := none,
    authSent := false, authed := false, authRetry := false, peerRole := 7, peerTerm := 0,
    peerEpoch := 0, running := false, epoch := 0, half := false, halfLen := 0, frozen := [], logged := [], counts := [],
    closing := none, wantClose := false, pre := [], queue := [], ship := [], sent := [], rxSeq := 0, nakOut := false, fullImage := false, stalls := 0, stalled := [],
    confirming := false, switchOver := none, joinSrc := none, joining := false, imgNext := 0,
    recvEp := 0, recvCount := 0, recvBytes := 0, pend := [], comm := [], bankP := [], bankC := [],
    undo := [], mmioCnt := [], waits := [], takeover := none, roleEvent := false, key := List.replicate 32 0, serial := 0 }

/-- Pins of R400, R503, R543, R556 and R535: inputs after their filters, and outputs as driven. -/
structure Pins where
  fenceIn : Bool
  peerActive : Bool
  pairId : Bool
  makerEn : Bool
  resetN : Bool
  warmN : Bool
  ppsIn : Bool
  fenceOut : Bool
  pairActive : Bool
  ppsOut : Nat
  thermN : Bool
  gpio : Nat
  deriving DecidableEq, Repr

/-- Outputs low, THERM_N and the reset pins inactive (R400, R503; DESIGN CHOICE, log 7). -/
def Pins.reset : Pins :=
  { fenceIn := false, peerActive := false, pairId := false, makerEn := false, resetN := true,
    warmN := true, ppsIn := false, fenceOut := false, pairActive := false, ppsOut := 0,
    thermN := true, gpio := 0 }

end Sys2Proof.Machine
end

