-- ==== Sys2Proof/Machine/State.lean ====
section
/-! DEFINITION. The state of the module: plain data, every field at its reset value in
`State.reset`. -/

namespace Sys2Proof.Machine

/-- The System Time Counter; `frac` counts units of 2^-40 ns (R538, R539). -/
structure Stc where
  sec : Nat
  ns : Nat
  frac : Nat
  deriving DecidableEq, Repr

/-- A fault counted in an open record: the record (a block, or a partition record numbered
128 + 128 × p + b), its code, and the thread it stopped (R466). -/
structure FltSeen where
  block : Nat
  code : Nat
  thread : Option Nat
  deriving DecidableEq, Repr

/-- What an unwritten byte of memory reads as (DESIGN CHOICE, log 1). -/
def memDefault (_ : Nat) : Byte := 0
def noFlag (_ : Nat) : Bool := false
def zeroNat (_ : Nat) : Nat := 0
def noLines (_ : Nat) : List Nat := []
def noEntries (_ : Nat) : List (Nat × W64) := []

structure State where
  /-- Commands waiting, first in first out. -/
  pending : List Instr
  /-- The coherent image of DRAM (R191, R223; DEDUCED, log 11). -/
  mem : Map Byte
  /-- Lines that carry the poison mark (R215, R258). -/
  poison : Map Bool
  /-- Module registers by physical address (R9). -/
  regs : Map W64
  threads : Map Thread
  cores : Map Core
  /-- L2 lines, keyed by core × 2^40 + line (R197). -/
  l2 : Map L2Line
  /-- L3 sets, keyed by slice × 4096 + set (R194, R196). -/
  l3 : Map (List L3Line)
  txns : List Txn
  ingress : List Req
  /-- Requests that wait at their ring stops while an ingress buffer is full (R200). -/
  atRing : List Req
  /-- Dropped PrefRds, core and line, whose Cmp has not come yet (R199, R208). -/
  prefCmp : List (Nat × Nat)
  wbs : List WbMsg
  /-- Users of Recovery Coherence Mode (R205). -/
  rcm : Nat
  /-- Pinned ranges of lines, first and last (R217), and whether ways 30 and 31 are reserved. -/
  pinned : List (Nat × Nat)
  pinRes : Bool
  pinOver : Map Nat
  /-- The POT cache: granules and their entries by set (R170). -/
  potc : Map (List (Nat × W64))
  /-- Write queue of each memory controller, oldest line first (R251). -/
  mcq : Map (List Nat)
  /-- Installed DRAM in bytes and the interleave, 12 or 6 (R248). -/
  dram : Nat
  ways : Nat
  /-- DIMMs per channel, physical ranks per channel, x8 devices (R247). -/
  dpc : Nat
  ranks : Nat
  x8 : Bool
  /-- The DIMMs by slot, DIMM `d` of MC`n` in slot 2`n` + `d` (R248, R249, R253). -/
  spd : List (Nat × Dimm)
  mcs : Map Mc
  /-- Dictionary objects by 24-bit number, where they hold a value of their own (20 R509). -/
  od : Map Nat
  stc : Stc
  /-- Core Ownership Faults counted by the POT unit (R171). -/
  ownFaults : Nat
  fltSeen : List FltSeen
  /-- A lease or gate event not read yet (R469). -/
  gateEvent : Bool
  /-- Fault history: FLT.FATAL and each non-empty block record as copied at a FATAL (R471 step 6). -/
  fltHist : List (Nat × List W64)
  scn : Scion
  pins : Pins
  mmio : Map MmioPort
  trl : Trl
  ports : Map Port
  /-- Outputs held for the commit of their epoch, in the order of creation (R387). -/
  held : List HeldOut
  /-- STC second of the last 0x0604 record (R302). -/
  rated604 : Option Nat
  /-- The highest TERM received while a starting Solo waits for its PROBERSPs, and the paths still to
  answer; above 0xFFFF once the term is exhausted (R342). -/
  termWait : Option (Nat × List (Nat × Nat × Nat))
  /-- DMA bytes admitted in the running 10 µs, by partition × 2048 + set, and the requests held
  (R358). -/
  dmaUse : Map Nat
  dmaHeld : List DmaReq
  /-- The Replay Buffer, oldest first, and whether it withholds VC0 credits (R390, R391). -/
  replay : List ReplayItem
  replayFull : Bool
  sve : Sve
  gnt : Gnt
  sparings : List Sparing
  /-- Clock islands by number (R18). -/
  isls : Map Isl
  power : Power
  /-- The patch that released cores copy, if one is active (R136). -/
  patch : Patch
  /-- The option bytes in Coldframe, and as the Option Loader last read them (R492, R493). -/
  opt : Map Byte
  optIn : Map Byte
  cold : Cold
  /-- Next ring slot of each Counter Gatherer context (R480). -/
  gpos : Map Nat
  /-- Counters with an uncorrectable error, 8 × block + counter: VAL reads 0 until COUNT is written (R486). -/
  pmcBad : List Nat
  /-- Partition resets in progress: the partition, its threads, whose buffers may still drain (R245), and
  whether they are held afterwards (R517). -/
  presets : List PReset
  /-- Live Shared-Window offers (R178). -/
  offers : List Offer
  /-- Every Trellis transmitter is in electrical idle (R368, R471). -/
  egressIdle : Bool
  /-- The number of the next free value (DESIGN CHOICE, log 8). -/
  free : Nat
  deriving DecidableEq, Repr

/-- Registers that the start-up has set by step 12 of R500: the cause of R497, the service set of R144, and
each populated controller as trained (R249, R265; DESIGN CHOICE, log 5). -/
def resetRegs : Map W64 :=
  [(0xFF0000000000, 0x1001000000000000), (0xFF0000810000, 0x007FFDFFF7FFDFFF),
   (0xFF0000810008, 0x0080020008002000)] ++
  ([0, 2, 4, 6, 8, 10] : List Nat).flatMap fun n =>
    [(0xFF0020000000 + n * 0x1000000, (0x0000400010001101 : W64)), (0xFF0020000028 + n * 0x1000000, (2 : W64))]

/-- The DIMMs of the module at reset: one of 16 GiB, x4, of one rank, in each channel of the 6-way interleave. DESIGN
CHOICE: log 5. -/
def resetDimms : List (Nat × Dimm) :=
  ([0, 4, 8, 12, 16, 20] : List Nat).map fun k => (k, ⟨true, 4, 1, 1, 16, 64, 3, 1, 11, true⟩)

/-- The module right after start-up: step 12 of R500, its boot thread released (DESIGN CHOICE, log 4). -/
def State.reset : State :=
  { pending := [], mem := [], poison := [], regs := resetRegs, threads := [], cores := [], l2 := [],
    l3 := [], txns := [], ingress := [], atRing := [], prefCmp := [], wbs := [], rcm := 1, pinned := [], pinRes := false,
    pinOver := [], potc := [], mcq := [], dram := 96 * 2 ^ 30, ways := 6, dpc := 1, ranks := 1,
    x8 := false, spd := resetDimms, mcs := [], od := [], stc := ⟨0, 0, 0⟩, ownFaults := 0, fltSeen := [],
    gateEvent := false, fltHist := [], scn := Scion.reset, pins := Pins.reset, mmio := [],
    trl := Trl.empty, ports := [], held := [], rated604 := none, termWait := none, dmaUse := [],
    dmaHeld := [], replay := [], replayFull := false, sve := Sve.reset, gnt := Gnt.reset, sparings := [],
    isls := [], power := Power.reset, patch := ⟨0, 0, [], 0, []⟩, opt := [], optIn := [],
    cold := Cold.reset, gpos := [], pmcBad := [], presets := [],
    offers := [], egressIdle := false, free := 0 }

/-- Reasons to stop with a fault: none; the module records its faults and goes on. -/
inductive Fault where
  deriving DecidableEq, Repr

/-- Reasons to refuse a command. -/
inductive Refusal where
  /-- Raised by `exec` for a command that has no meaning yet; safe. -/
  | notModelled (mnemonic : String)
  deriving DecidableEq, Repr

end Sys2Proof.Machine
end

