-- ==== Sys2Proof/Machine/Ops.lean ====
section
/-! DEFINITION. Named operations over the parts of the state: threads, memory, module registers. -/

namespace Sys2Proof.Machine

def State.thr (s : State) (m : Nat) : Thread := Map.get Thread.reset s.threads m
def State.setThr (s : State) (m : Nat) (t : Thread) : State :=
  { s with threads := Map.set Thread.reset s.threads m t }
def State.modThr (s : State) (m : Nat) (f : Thread → Thread) : State := s.setThr m (f (s.thr m))

def State.core (s : State) (c : Nat) : Core := Map.get Core.reset s.cores c
def State.setCore (s : State) (c : Nat) (x : Core) : State :=
  { s with cores := Map.set Core.reset s.cores c x }
def State.modCore (s : State) (c : Nat) (f : Core → Core) : State := s.setCore c (f (s.core c))

/-- Every thread changed by `f`, in rising order. -/
def State.mapThr (s : State) (f : Nat → Thread → Thread) : State :=
  (List.range 112).foldl (fun s m => s.modThr m (f m)) s

/-! ## Memory -/

/-- The canonical form of memory. -/
def Memory.wf (m : Map Byte) : Bool := Map.wf memDefault m

def State.rdByte (s : State) (a : Nat) : Byte := Map.get memDefault s.mem a
def State.wrByte (s : State) (a : Nat) (b : Byte) : State :=
  { s with mem := Map.set memDefault s.mem a b }

/-- `n` bytes from address `a` on. -/
def State.rd (s : State) (a n : Nat) : List Byte := (List.range n).map fun i => s.rdByte (a + i)

/-- Bytes written from address `a` on. -/
def State.wr (s : State) (a : Nat) : List Byte → State
  | [] => s
  | b :: bs => (s.wrByte a b).wr (a + 1) bs

/-- The option-byte doubleword at an offset, as held in NVM. -/
def State.optNvm (s : State) (off : Nat) : W64 :=
  BitVec.ofNat 64 (ofBytes ((List.range 8).map fun i => Map.get optDefault s.opt (off + i)))

/-- The big-endian doubleword at `a` (R8). -/
def State.rdD (s : State) (a : Nat) : W64 := BitVec.ofNat 64 (ofBytes (s.rd a 8))
def State.wrD (s : State) (a : Nat) (v : W64) : State := s.wr a (toBytes 8 v.toNat)

def State.poisoned (s : State) (line : Nat) : Bool := Map.get noFlag s.poison line
/-- DESIGN CHOICE: log 38. -/
def State.setPoison (s : State) (line : Nat) (b : Bool) : State :=
  { s with poison := Map.set noFlag s.poison line b }

def lineOf (a : Nat) : Nat := a / 256

/-- Is `a` in installed DRAM (R21, R22)? -/
def State.isDram (s : State) (a : Nat) : Bool := decide (a < s.dram)

/-- Adapter MMIO, doorbell pages and module registers (R21). -/
def isMmio (a : Nat) : Bool := decide (0xE00000000000 ≤ a) && decide (a < 0xEC0000000000)
def mmioPort (a : Nat) : Nat := (a - 0xE00000000000) / 0x10000000000
def isDoorbell (a : Nat) : Bool := decide (0xF00000000000 ≤ a) && decide (a < 0xF10000000000)
def isModReg (a : Nat) : Bool := decide (0xFF0000000000 ≤ a) && decide (a < 0xFF0100000000)

/-- The controller of a DRAM address (R252). -/
def State.mcOf (s : State) (a : Nat) : Nat :=
  if s.ways = 12 then a / 1024 % 12 else 2 * (a / 1024 % 6)

/-- The channel-local address of a DRAM address (R252). -/
def State.mcLocal (s : State) (a : Nat) : Nat := a / 1024 / s.ways * 1024 + a % 1024

def State.mc (s : State) (n : Nat) : Mc := Map.get Mc.reset s.mcs n
def State.setMc (s : State) (n : Nat) (x : Mc) : State := { s with mcs := Map.set Mc.reset s.mcs n x }
def State.modMc (s : State) (n : Nat) (f : Mc → Mc) : State := s.setMc n (f (s.mc n))

/-- The value of a dictionary object that holds one (R509). -/
def State.odv (s : State) (k : Nat) : Nat := Map.get odDefault s.od k
def State.setOdv (s : State) (k v : Nat) : State := { s with od := Map.set odDefault s.od k v }

/-- The option-byte doubleword at an offset, as loaded (R492). -/
def State.optD (s : State) (off : Nat) : W64 :=
  BitVec.ofNat 64 (ofBytes ((List.range 8).map fun i => Map.get optDefault s.optIn (off + i)))

/-! ## Islands -/

def State.isl (s : State) (i : Nat) : Isl := Map.get Isl.reset s.isls i
def State.modIsl (s : State) (i : Nat) (f : Isl → Isl) : State :=
  { s with isls := Map.set Isl.reset s.isls i (f (s.isl i)) }
/-- Does the island run: clocked, not in reset, not gated (R184, R491, R499)? -/
def State.islRuns (s : State) (i : Nat) : Bool := let x := s.isl i; x.valid && !x.held && x.gate == 0

/-! ## Module registers -/

/-- A register's stored value. -/
def State.reg (s : State) (r : Reg) (ix : List Nat := []) : W64 := Map.get regDefault s.regs (r.addr ix)
def State.setReg (s : State) (r : Reg) (ix : List Nat) (v : W64) : State :=
  { s with regs := Map.set regDefault s.regs (r.addr ix) v }
/-- Field `[hi:lo]` of a register. -/
def State.rf (s : State) (r : Reg) (ix : List Nat) (hi lo : Nat) : Nat := fld (s.reg r ix) hi lo
def State.setRf (s : State) (r : Reg) (ix : List Nat) (hi lo v : Nat) : State :=
  s.setReg r ix (setFld (s.reg r ix) hi lo v)
/-- A saturating counter field advanced by one. -/
def State.incRf (s : State) (r : Reg) (ix : List Nat) (hi lo : Nat) : State :=
  s.setRf r ix hi lo (min (s.rf r ix hi lo + 1) (2 ^ (hi + 1 - lo) - 1))

/-- Has the island been asked to go idle, for a block reset or a gate request: it ends its work and starts none (R184,
R499)? -/
def State.idleAsked (s : State) (i : Nat) : Bool :=
  (s.isl i).status == 1 || (s.power.gateWait && s.rf .pwrGatereq [] 54 48 == i)

/-! ## State registers of a thread -/

def Arch.srv (a : Arch) (n : Nat) : W64 := Map.get srDefault a.sr n
def Arch.setSr (a : Arch) (n : Nat) (v : W64) : Arch := { a with sr := Map.set srDefault a.sr n v }
def Arch.pl (a : Arch) : Nat := fld (a.srv 1) 15 14
def Arch.pid (a : Arch) : Nat := fld (a.srv 4) 31 26
def Arch.lcore (a : Arch) : Nat := fld (a.srv 4) 21 16
def Arch.cwp (a : Arch) : Nat := fld (a.srv 2) 4 0
def Arch.res (a : Arch) : Nat := fld (a.srv 2) 12 8
def Arch.flg (a : Arch) : W64 := a.srv 0
/-- The PID under which the thread's accesses are checked: 0 in the Secure World (R171, R179). -/
def Arch.chkPid (a : Arch) : Nat := if a.pl = 3 then 0 else a.pid

/-- Logical core of a physical core, from its thread 0 (R45). -/
def State.lcoreOf (s : State) (c : Nat) : Nat := (s.thr (2 * c)).cur.lcore

/-! ## The doorbell range (R275, R417, R444) -/

/-- What a page of the doorbell range is. -/
inductive DbPage where
  | set (p set : Nat)
  | control (e p : Nat)
  | job (e p c : Nat)
  | none
  deriving DecidableEq, Repr

def dbPage (a : Nat) : DbPage :=
  let n := (a - 0xF00000000000) / 0x1000
  if n < 49 * 0x800 then .set (n / 0x800) (n % 0x800)
  else if 0x1000000 ≤ n ∧ n < 0x1000000 + 49 then .control 0 (n - 0x1000000)
  else if 0x2000000 ≤ n ∧ n < 0x2000000 + 49 * 16 then .job 0 ((n - 0x2000000) / 16) (n % 16)
  else if 0x3000000 ≤ n ∧ n < 0x3000000 + 49 then .control 1 (n - 0x3000000)
  else if 0x4000000 ≤ n ∧ n < 0x4000000 + 49 * 16 then .job 1 ((n - 0x4000000) / 16) (n % 16)
  else .none

/-- May a thread of PID `pid` in the Normal World reach the page? -/
def DbPage.mine (pid : Nat) : DbPage → Bool
  | .set p _ => p == pid
  | .control _ p => p == pid
  | .job _ p _ => p == pid
  | .none => false

/-! ## Buffered stores -/

/-- Bytes put into a combining-buffer line. -/
def cbPut (off : Nat) (bs : List Byte) (d : Map (Option Byte)) : Map (Option Byte) :=
  (bs.mapIdx fun i b => (off + i, b)).foldl (fun d p => Map.set (fun _ => none) d p.1 (some p.2)) d

/-- The bytes written in a combining-buffer line, by offset (R233). -/
def CbLine.data (l : CbLine) : Map (Option Byte) := l.stores.foldl (fun d x => cbPut (x.addr % 256) x.bytes d) []

/-- The same as a list. -/
def CbLine.bytes (l : CbLine) : List (Nat × Byte) := l.data.filterMap fun p => p.2.map fun b => (p.1, b)

/-- The epoch of a combining-buffer line (R244). -/
def CbLine.ep (l : CbLine) : Option Nat := l.stores.head?.map Store.ep

/-- What is left of a list of stores when those of later groups than `n` are discarded. -/
def upTo (n : Nat) (l : List Store) : List Store := l.filter fun x => decide (x.seq ≤ n)

/-- Has the thread an unperformed store that sets a descriptor's flag in the line (R88)? -/
def Thread.descIn (t : Thread) (line : Nat) : Bool :=
  t.sb.any fun e => e.line == line && e.stores.any Store.desc

/-- Does a cacheable store from before a barrier with SS, older than group `gen`, wait in the buffer (R235)? -/
def Thread.olderGen (t : Thread) (gen : Nat) : Bool := t.sb.any fun y => !y.device && decide (y.gen < gen)

/-- Does the thread run the second iteration of a constrained loop, which completes (R78)? -/
def Thread.loopSure (t : Thread) : Bool := t.loop.any fun l => decide (0 < l.fails)

/-- Is the line reserved by such an iteration, whose L2 holds it (R78, R214)? -/
def Thread.sureOf (t : Thread) (line : Nat) : Bool := t.loopSure && t.cur.rsv == some line && t.hold == some line

/-- Does the thread hold an earlier device store to a page in its store buffer? -/
def State.pageBusy (s : State) (m page : Nat) : Bool :=
  (s.thr m).sb.any fun e => e.device && e.line / 16 == page

/-! ## Free values -/

/-- The next free value, and the state that has drawn it (DESIGN CHOICE, log 8). -/
def State.draw (s : State) : W64 × State := (Config.freeWord s.free, { s with free := s.free + 1 })

/-- `n` fresh free bytes. -/
def State.drawBytes (s : State) : Nat → List Byte × State
  | 0 => ([], s)
  | n + 1 =>
    let r := s.draw
    let t := r.2.drawBytes n
    (r.1.setWidth 8 :: t.1, t.2)

/-- The System Time Counter as the layout of SR.TIME (R46). -/
def State.srTime (s : State) : W64 := BitVec.ofNat 64 (s.stc.sec % 2 ^ 32 * 2 ^ 32 + s.stc.ns % 2 ^ 32)

/-- A 128-bit STC timestamp: seconds, then nanoseconds and the 16-bit fraction. -/
def State.stampSec (s : State) : W64 := BitVec.ofNat 64 (s.stc.sec % 2 ^ 48)
def State.stampNs (s : State) : W64 := pack [(63, 32, s.stc.ns), (31, 16, s.stc.frac / 2 ^ 24)]

end Sys2Proof.Machine
end

