-- ==== Sys2Proof/Machine/Faults.lean ====
section
/-! DEFINITION. Fault Status Blocks: recording, escalation, partition records, and the FATAL
reaction (17). -/

namespace Sys2Proof.Machine

/-- Fault classes in the CLASS encoding (R456, R458). -/
def clsCorrected : Nat := 1
def clsContained : Nat := 2
def clsFatal : Nat := 3

/-- What a fault brings to a record. -/
structure FaultIn where
  cls : Nat
  code : Nat
  pid : Nat
  addr : Nat
  info : W64
  thread : Option Nat
  deriving DecidableEq, Repr

/-- Block numbers (R459). -/
def blkSlice (k : Nat) : Nat := 0x38 + k
def blkMc (n : Nat) : Nat := 0x48 + n
def blkTrellis : Nat := 0x54
def blkPort (p : Nat) : Nat := 0x55 + p
def blkScion : Nat := 0x61
def blkSieve : Nat := 0x62
def blkGarnet : Nat := 0x63
def blkPot : Nat := 0x64
def blkGatherer : Nat := 0x65
def blkPower : Nat := 0x66
def blkReset : Nat := 0x67
def blkClocks : Nat := 0x68
/-- Tile rings of CT0 to CT3, die-to-die links of CT0 to CT3, and the hub ring (R459). -/
def blkRing (k : Nat) : Nat := 0x69 + k
def blkColdframe : Nat := 0x72

/-- A REC register after a fault of class `c` (R461); `part`: a partition record, where nothing
escalates (R467). -/
def recUpdate (part : Bool) (f : FaultIn) (r : W64) : W64 :=
  let c := f.cls
  let cls := fld r 63 62
  let st := fld r 61 60
  let cnt := min (fld r 47 32 + 1) 0xFFFF
  if st = 0 then
    pack [(63, 62, c), (61, 60, 1), (57, 56, c), (47, 32, 1), (31, 16, f.code), (13, 8, f.pid)]
  else
    let r := setFld r 47 32 cnt
    if st = 2 then
      let r := setFld (setFld r 61 60 1) 63 62 (max cls c)
      if c = cls then r else setFld r 59 59 1
    else if c = cls then
      if part ∨ cls = 3 then r else setFld (setFld r 63 62 (cls + 1)) 58 58 1
    else setFld (setFld r 59 59 1) 63 62 (max cls c)

/-- The capture registers of a record that opens (R458). -/
def State.capture (s : State) (addr tsec tns info : Reg) (ix : List Nat) (f : FaultIn) : State :=
  (((s.setReg addr ix (BitVec.ofNat 64 (f.addr % 2 ^ 48))).setReg tsec ix s.stampSec).setReg
    tns ix s.stampNs).setReg info ix f.info

def seenAdd (x : FltSeen) (l : List FltSeen) : List FltSeen := if x ∈ l then l else l ++ [x]

/-- A block record updated by a fault, with what the block keeps of it (R461, R466). -/
def State.blockRecord (s : State) (b : Nat) (f : FaultIn) : State :=
  let old := s.reg .fltRec [b]
  let s1 := s.setReg .fltRec [b] (recUpdate false f old)
  let s2 := { s1 with fltSeen := seenAdd ⟨b, f.code, f.thread⟩ s1.fltSeen }
  if fld old 61 60 = 0 then
    (s2.capture .fltAddr .fltTsec .fltTns .fltInfo [b] f).setRf .fltCtl [b] 3 2 0
  else s2

/-- The partition record (p, b) updated by a fault (R467). -/
def State.partRecord (s : State) (p b : Nat) (f : FaultIn) : State :=
  if p = 0 ∨ 48 < p then s
  else
    let old := s.reg .fltPrec [p, b]
    let s1 := s.setReg .fltPrec [p, b] (recUpdate true f old)
    let s2 := { s1 with fltSeen := seenAdd ⟨128 + 128 * p + b, f.code, f.thread⟩ s1.fltSeen }
    if fld old 61 60 = 0 then s2.capture .fltPaddr .fltPtsec .fltPtns .fltPinfo [p, b] f else s2

/-- Every group of the thread hardened, in retire order (R138). A device load's kept value is spent once
its group has (R226); a queue slot kept for a re-run that has not retired yet stays kept (R127). -/
def Thread.hardenAll (t : Thread) : Thread :=
  { t with
    hard := t.cur, groups := [], hseq := t.seq, kept := t.kept.filter fun k => decide (t.seq < k.seq),
    devVal := if t.groups.isEmpty then t.devVal else none }

/-- A patched routine between two unit commits is abandoned; its slots are kept as those of an XPOST that runs again (R127). -/
def Thread.endMid (t : Thread) : Thread :=
  match t.mid with
  | none => t
  | some d => { t with mid := none, kept := t.kept ++ d.slots.map fun e => KeptSlot.mk e.1 e.2 (t.seq + 1) }

/-- A thread's unhardened work discarded, its buffers included, its last hardened checkpoint restored (R139, R140). -/
def Thread.flush (t : Thread) : Thread :=
  let t := t.endMid
  { t with
    cur := t.hard, groups := [], seq := t.hseq, loop := t.loop.map fun l => { l with count := 0 },
    sb := (t.sb.map fun e => { e with
      stores := upTo t.hseq e.stores, fence := e.fence.filter fun n => decide (n ≤ t.hseq) }).filter fun e => !e.stores.isEmpty,
    cb := (t.cb.map fun l => { l with stores := upTo t.hseq l.stores }).filter fun l => !l.stores.isEmpty,
    barGen := t.barGen - (t.bars.filter fun n => decide (t.hseq < n)).length, bars := [] }

/-- A thread stopped by the fault with a code at its last hardened checkpoint (R56, R215, R471). -/
def Thread.stop (t : Thread) (code : Nat) : Thread := { t.flush with run := .stopped code }

def Thread.active (t : Thread) : Bool := t.run.acts

/-- The link carries records: a group is up and no resend is in progress (R370, R371). -/
def Scion.carries (x : Scion) : Bool := (x.grpA || x.grpB) && !x.resending

/-- Scion's link is in state UP (R370). -/
def Scion.linkUp (x : Scion) : Bool := x.grpA && x.grpB && !x.resending

/-- A role change, which raises level 15 (R367, R469). DEDUCED: log 65. -/
def State.setRole (s : State) (r : Nat) : State :=
  { s with scn := { s.scn with role := r, roleEvent := true } }

/-- A record put on the Scion link. -/
def State.scnSend (s : State) (r : Rec) : State := { s with scn := { s.scn with sent := s.scn.sent ++ [r] } }

/-- A join in progress ends: the joiner starts again and the source stays Solo without epochs
(R399). -/
def Scion.endJoin (x : Scion) : Scion :=
  { x with
    joining := false, imgNext := 0, pend := if x.joining then [] else x.pend,
    recvCount := if x.joining then 0 else x.recvCount,
    recvBytes := if x.joining then 0 else x.recvBytes,
    running := if x.joinSrc.isSome then false else x.running, joinSrc := none }

/-- A join ended, with its use of Recovery Coherence Mode (R205, R398). -/
def State.endJoin (s : State) : State :=
  { s with rcm := if s.scn.joinSrc = some .writeback then s.rcm - 1 else s.rcm, scn := s.scn.endJoin }

/-- The run state that a thread of the Normal World has after the FATAL reaction, where a sparing or Doze keeps it
(R471). -/
def State.fatalRun (s : State) (m : Nat) (r : Run) : Run :=
  if r.acts && (s.thr m).cur.pl != 3 then .stopped 0 else r

/-- The FATAL reaction, with the record of block `b` already written (R471). DEDUCED: log 90. -/
def State.fatalReaction (s : State) (b : Nat) : State :=
  if s.rf .fltFatal [] 63 63 = 1 then s
  else
    let r := s.reg .fltRec [b]
    let s1 := s.setReg .fltFatal [] (pack [(63, 63, 1), (38, 32, b), (31, 16, fld r 31 16)])
    let s2 := { s1 with
      egressIdle := true, pins := { s1.pins with pairActive := false }, power := { s1.power with holdRuns := true } }
    let s3 := if s2.scn.role ≤ 2 then s2.setRole 4 else s2
    let s4 := if s3.scn.linkUp && s3.scn.authed then s3.scnSend (.fail 1) else s3
    let s5 := s4.endJoin
    let s6 := s5.mapThr fun _ t => if t.active && t.cur.pl != 3 then t.stop 0 else t
    let hist := (List.range 0x73).filterMap fun k =>
      if s6.rf .fltRec [k] 61 60 = 0 then none
      else some (k, [s6.reg .fltRec [k], s6.reg .fltAddr [k], s6.reg .fltTsec [k],
        s6.reg .fltTns [k], s6.reg .fltInfo [k]])
    { s6 with
      sparings := s6.sparings.map fun x =>
        { x with run0 := s6.fatalRun (2 * x.core) x.run0, run1 := s6.fatalRun (2 * x.core + 1) x.run1 },
      power := { s6.power with dozed := s6.power.dozed.map fun x => (x.1, s6.fatalRun x.1 x.2) },
      fltHist := s6.fltHist ++ (0x80, [s6.reg .fltFatal]) :: hist }

/-- A fault detected by block `b` and attributed to `f.pid`; `lb` is the number the partition
record uses, the logical core for a core (R461, R467). -/
def State.faultAt (s : State) (b lb : Nat) (f : FaultIn) : State :=
  let s1 := (s.blockRecord b f).partRecord f.pid lb f
  if s1.rf .fltRec [b] 63 62 = 3 then s1.fatalReaction b else s1

/-- A fault of a block whose partition record has the block's own number. DEDUCED: log 17. -/
def State.fault (s : State) (b cls code pid addr : Nat) (info : W64 := 0) : State :=
  s.faultAt b b ⟨cls, code, pid, addr, info, none⟩

/-- A fault of physical core `c`; the partition record follows the logical core. -/
def State.coreFault (s : State) (c cls code pid addr : Nat) (info : W64 := 0)
    (thread : Option Nat := none) : State :=
  s.faultAt c (s.lcoreOf c) ⟨cls, code, pid, addr, info, thread⟩

/-- A join under way ends by R399, with its record. -/
def State.joinLost (s : State) : State :=
  if s.scn.joining || s.scn.joinSrc.isSome then s.endJoin.fault blkScion clsCorrected 0x0708 0 0 else s

/-- A mirror error: FAIL, and a Standby is Fenced (R384, R385); a joiner's join ends (R399). -/
def State.mirrorFail (s : State) : State :=
  let s1 := if s.scn.authed && s.scn.carries then s.scnSend (.fail 3) else s
  if s.scn.role = 2 then
    ({ s1 with egressIdle := true, pins := { s1.pins with pairActive := false } } : State).setRole 4
  else s1.joinLost

end Sys2Proof.Machine
end

