-- ==== Sys2Proof/Machine/Counters.lean ====
section
/-! DEFINITION. Performance counters: which counter counts which event (18 R473-R477). -/

namespace Sys2Proof.Machine

/-! ## Counters (R473-R477) -/

/-- The dictionary's type number of a block (R475, R516): core, slice, controller, port, Scion, Sieve,
Garnet, POT unit; the others have types of their own. -/
def blkType (b : Nat) : Nat :=
  if b < 0x38 then 0 else if b < 0x48 then 1 else if b < 0x54 then 2 else if b = 0x54 then 3
  else if b < 0x61 then 4 else if b ≤ 0x68 then b - 0x5C else if b < 0x72 then 0xD else 0xE

/-- Does an event exist for a block's type? Event 0x000 counts nothing. DEDUCED: log 68. -/
def eventCounts (b ev : Nat) : Bool := decide (ev != 0) && (eventName (blkType b) ev).isSome

/-- Do the counters of a block run: not for a core in sparing (R477), nor outside the run state, as in Doze? -/
def State.pmcRuns (s : State) (b : Nat) : Bool :=
  s.power.state == .run && (decide (0x38 ≤ b) || !(s.sparings.any fun x => x.started && x.core == b))

/-- May a block's owner count an event of thread `m` (R474, R181)? -/
def State.pmcOwns (s : State) (c m : Nat) (sec : Bool) : Bool :=
  let a := (s.thr m).cur
  let own := s.rf .pmcOwn [c] 5 0
  if own = 0 then a.pl != 3 || sec else a.pl != 3 && a.pid == own

/-- Does counter `k` of block `b` count event `ev` of thread `thr` of the block (R473-R475, R485)? -/
def State.pmcHit (s : State) (b k ev thr : Nat) : Bool :=
  let v := s.reg .pmcCtl [b, k]
  let topDown := decide (0xF00 ≤ ev)
  let m := 2 * b + thr
  let a := (s.thr m).cur
  bit v 63 && fld v 11 0 == ev && eventCounts b ev &&
  (decide (0x38 ≤ b) ||
    ((topDown || fld v 61 60 == 0 || fld v 61 60 == thr + 1) && s.pmcOwns b m (bit v 59) &&
      (a.pl == 3 || (fld v 58 56).testBit a.pl)))

/-- A counter advanced: it wraps and sets OVF. -/
def State.pmcInc (s : State) (b k : Nat) : State :=
  let n := s.rf .pmcCnt [b, k] 47 0 + 1
  let s1 := s.setRf .pmcCnt [b, k] 47 0 n
  if n = 2 ^ 48 then s1.setRf .pmcCtl [b, k] 62 62 1 else s1

/-- An event of block `b` at thread `thr`: every counter of the block set to it counts (R475). -/
def State.pmcEvent (s : State) (b ev thr : Nat) : State :=
  if !s.pmcRuns b then s
  else (List.range 8).foldl (fun s k => if s.pmcHit b k ev thr then s.pmcInc b k else s) s

/-- Does the model count the event itself, as it comes about: the pin overflows of a slice (R218)? -/
def ownEvent (b ev : Nat) : Bool := decide (0x38 ≤ b) && decide (b < 0x48) && ev == 0x220

end Sys2Proof.Machine
end

