-- ==== Sys2Proof/Machine/Aes.lean ====
section
/-! DEFINITION. AES and the modes that Garnet uses: CBC, CTR, GCM, XTS and key wrap (16 R432,
R438, R440, R443; FIPS 197, SP 800-38A/D/E, RFC 3394, IEEE 1619). -/

namespace Sys2Proof.Machine

/-! ## The byte field -/

def xtime (b : Byte) : Byte := (b <<< 1) ^^^ (if bit b 7 then 0x1B else 0)

/-- The product in GF(2^8). -/
def gmul (a b : Byte) : Byte :=
  ((List.range 8).foldl (fun (p : Byte × Byte) i =>
    (if bit b i then p.1 ^^^ p.2 else p.1, xtime p.2)) (0, a)).1

/-- The inverse in GF(2^8), as the 254th power; zero maps to zero. -/
def ginv (a : Byte) : Byte :=
  let a2 := gmul a a
  let a3 := gmul a2 a
  let a6 := gmul a3 a3
  let a7 := gmul a6 a
  let a14 := gmul a7 a7
  let a15 := gmul a14 a
  let a30 := gmul a15 a15
  let a31 := gmul a30 a
  let a62 := gmul a31 a31
  let a63 := gmul a62 a
  let a126 := gmul a63 a63
  let a127 := gmul a126 a
  gmul a127 a127

def rotlB (b : Byte) (n : Nat) : Byte := b.rotateLeft n

def sbox (a : Byte) : Byte :=
  let i := ginv a
  i ^^^ rotlB i 1 ^^^ rotlB i 2 ^^^ rotlB i 3 ^^^ rotlB i 4 ^^^ 0x63

def sboxInv (a : Byte) : Byte := ginv (rotlB a 1 ^^^ rotlB a 3 ^^^ rotlB a 6 ^^^ 0x05)

def xorBytes (a b : List Byte) : List Byte := a.zipWith (· ^^^ ·) b

/-! ## The cipher (FIPS 197) -/

/-- Words of the key schedule, newest first. -/
def aesWords (nk : Nat) : Nat → List (List Byte) → List (List Byte)
  | 0, ws => ws
  | n + 1, ws =>
    let i := ws.length
    let prev := (ws[0]?).getD []
    let t := if i % nk = 0 then
        let r := (prev.drop 1 ++ prev.take 1).map sbox
        let rc := (List.range (i / nk - 1)).foldl (fun b _ => xtime b) (1 : Byte)
        xorBytes r [rc, 0, 0, 0]
      else if 6 < nk ∧ i % nk = 4 then prev.map sbox
      else prev
    aesWords nk n (xorBytes ((ws[nk - 1]?).getD []) t :: ws)

def chunk (n : Nat) : Nat → List Byte → List (List Byte)
  | 0, _ => []
  | k + 1, bs => if bs.isEmpty then [] else bs.take n :: chunk n k (bs.drop n)

/-- A byte list cut into pieces of `n` bytes; the last may be shorter. -/
def chunks (n : Nat) (bs : List Byte) : List (List Byte) := chunk n bs.length bs

/-- The round keys of a 16- or 32-byte key. -/
def aesKeys (key : List Byte) : List (List Byte) :=
  let nk := key.length / 4
  let ws := (aesWords nk (4 * (nk + 7) - nk) (chunks 4 key).reverse).reverse
  chunks 16 ws.flatten

def shiftRows (s : List Byte) : List Byte :=
  (List.range 16).map fun i => (s[(i + 4 * (i % 4)) % 16]?).getD 0
def shiftRowsInv (s : List Byte) : List Byte :=
  (List.range 16).map fun i => (s[(i + 16 - 4 * (i % 4)) % 16]?).getD 0

def mixWith (m : List Byte) (s : List Byte) : List Byte :=
  (List.range 16).map fun i =>
    (List.range 4).foldl (fun a k =>
      a ^^^ gmul ((m[(4 + k - i % 4) % 4]?).getD 0) ((s[i / 4 * 4 + k]?).getD 0)) 0

def mixColumns : List Byte → List Byte := mixWith [2, 3, 1, 1]
def mixColumnsInv : List Byte → List Byte := mixWith [14, 11, 13, 9]

/-- One block encrypted. -/
def aesEnc (key block : List Byte) : List Byte :=
  match aesKeys key with
  | [] => block
  | k0 :: ks =>
    let mid := ks.dropLast.foldl (fun s k => xorBytes (mixColumns (shiftRows (s.map sbox))) k) (xorBytes block k0)
    xorBytes (shiftRows (mid.map sbox)) ((ks.getLast?).getD k0)

/-- One block decrypted. -/
def aesDec (key block : List Byte) : List Byte :=
  match (aesKeys key).reverse with
  | [] => block
  | k0 :: ks =>
    let mid := ks.dropLast.foldl (fun s k =>
      mixColumnsInv (xorBytes ((shiftRowsInv s).map sboxInv) k)) (xorBytes block k0)
    xorBytes ((shiftRowsInv mid).map sboxInv) ((ks.getLast?).getD k0)

/-! ## CBC with PKCS#7 (R443) -/

def pkcs7 (p : List Byte) : List Byte :=
  let n := 16 - p.length % 16
  p ++ List.replicate n (BitVec.ofNat 8 n)

/-- The message without its padding; none where the padding is bad. -/
def unpad (p : List Byte) : Option (List Byte) :=
  let n := ((p.getLast?).getD 0).toNat
  if n = 0 ∨ 16 < n ∨ p.length < n then none
  else if (p.drop (p.length - n)).all (· == BitVec.ofNat 8 n) then some (p.take (p.length - n))
  else none

def cbcEncGo (key : List Byte) : List Byte → List (List Byte) → List Byte
  | _, [] => []
  | iv, b :: bs => let c := aesEnc key (xorBytes b iv); c ++ cbcEncGo key c bs

def cbcDecGo (key : List Byte) : List Byte → List (List Byte) → List Byte
  | _, [] => []
  | iv, b :: bs => xorBytes (aesDec key b) iv ++ cbcDecGo key b bs

/-- Whole blocks under CBC from an IV block. -/
def cbcEnc (key iv p : List Byte) : List Byte := cbcEncGo key iv (chunks 16 p)
def cbcDec (key iv c : List Byte) : List Byte := cbcDecGo key iv (chunks 16 c)

/-! ## CTR and GCM -/

def ctrGo (key iv : List Byte) : Nat → List (List Byte) → List Byte
  | _, [] => []
  | j, b :: bs => xorBytes b (aesEnc key (iv ++ toBytes 4 j)) ++ ctrGo key iv (j + 1) bs

/-- CTR: counter block `j` is the IV followed by `j` as 32 bits, from `j0` on (R440). -/
def ctrCrypt (key iv : List Byte) (j0 : Nat) (p : List Byte) : List Byte := ctrGo key iv j0 (chunks 16 p)

/-- The product in GF(2^128) of GHASH. -/
def ghMul (x y : BitVec 128) : BitVec 128 :=
  ((List.range 128).foldl (fun (p : BitVec 128 × BitVec 128) i =>
    (if bit x (127 - i) then p.1 ^^^ p.2 else p.1,
     if bit p.2 0 then (p.2 >>> 1) ^^^ (0xE1#128 <<< 120) else p.2 >>> 1)) (0, y)).1

def pad16 (bs : List Byte) : List Byte := bs ++ List.replicate ((16 - bs.length % 16) % 16) 0

def ghash (h : BitVec 128) (bs : List Byte) : BitVec 128 :=
  (chunks 16 bs).foldl (fun y b => ghMul (y ^^^ BitVec.ofNat 128 (ofBytes b)) h) 0

/-- The GCM tag of a ciphertext and its additional data. -/
def gcmTag (key iv aad c : List Byte) : List Byte :=
  let h := BitVec.ofNat 128 (ofBytes (aesEnc key (List.replicate 16 0)))
  let s := ghash h (pad16 aad ++ pad16 c ++ toBytes 8 (8 * aad.length) ++ toBytes 8 (8 * c.length))
  xorBytes (toBytes 16 s.toNat) (aesEnc key (iv ++ [0, 0, 0, 1]))

/-- Ciphertext and tag. -/
def gcmEnc (key iv aad p : List Byte) : List Byte × List Byte :=
  let c := ctrCrypt key iv 2 p
  (c, gcmTag key iv aad c)

/-- The plaintext, or none where the tag does not verify. -/
def gcmDec (key iv aad c tag : List Byte) : Option (List Byte) :=
  if gcmTag key iv aad c = tag then some (ctrCrypt key iv 2 c) else none

/-! ## XTS (IEEE 1619) -/

/-- Multiplication of a tweak by alpha, least significant byte first. -/
def xtsNext (t : List Byte) : List Byte :=
  let n := ofBytes t.reverse
  let m := (2 * n) % 2 ^ 128
  (toBytes 16 (if n < 2 ^ 127 then m else m ^^^ 0x87)).reverse

def xtsBlock (f : List Byte → List Byte) (t b : List Byte) : List Byte := xorBytes (f (xorBytes b t)) t

def xtsGo (f : List Byte → List Byte) : List Byte → List (List Byte) → List Byte
  | _, [] => []
  | t, b :: bs => xtsBlock f t b ++ xtsGo f (xtsNext t) bs

def xtsTweak (t : List Byte) : Nat → List Byte
  | 0 => t
  | n + 1 => xtsTweak (xtsNext t) n

/-- One data unit under a double-length key, with ciphertext stealing. -/
def xtsCrypt (enc : Bool) (key : List Byte) (unit : Nat) (p : List Byte) : List Byte :=
  let k1 := key.take (key.length / 2)
  let f := if enc then aesEnc k1 else aesDec k1
  let t0 := aesEnc (key.drop (key.length / 2)) (toBytes 16 unit).reverse
  let m := p.length / 16
  let r := p.length % 16
  if r = 0 then xtsGo f t0 (chunks 16 p)
  else
    let head := xtsGo f t0 (chunks 16 (p.take (16 * (m - 1))))
    let blk := (p.drop (16 * (m - 1))).take 16
    let tail := p.drop (16 * m)
    let ta := xtsTweak t0 (m - 1)
    let tb := xtsNext ta
    let cc := xtsBlock f (if enc then ta else tb) blk
    let pp := xtsBlock f (if enc then tb else ta) (tail ++ cc.drop r)
    head ++ pp ++ cc.take r

/-! ## Key wrap (RFC 3394) -/

def kwIv : List Byte := List.replicate 8 0xA6

def kwWrapGo (kek : List Byte) : List Nat → List Byte → List (List Byte) → List Byte
  | [], a, rs => a ++ rs.flatten
  | t :: ts, a, rs =>
    let i := (t - 1) % rs.length
    let b := aesEnc kek (a ++ (rs[i]?).getD [])
    kwWrapGo kek ts (xorBytes (b.take 8) (toBytes 8 t)) (rs.set i (b.drop 8))

def kwWrap (kek p : List Byte) : List Byte :=
  let rs := chunks 8 p
  kwWrapGo kek ((List.range (6 * rs.length)).map (· + 1)) kwIv rs

def kwUnwrapGo (kek : List Byte) : List Nat → List Byte → List (List Byte) → List Byte × List (List Byte)
  | [], a, rs => (a, rs)
  | t :: ts, a, rs =>
    let i := (t - 1) % rs.length
    let b := aesDec kek (xorBytes a (toBytes 8 t) ++ (rs[i]?).getD [])
    kwUnwrapGo kek ts (b.take 8) (rs.set i (b.drop 8))

/-- The wrapped key data, or none where the integrity check fails. -/
def kwUnwrap (kek c : List Byte) : Option (List Byte) :=
  let rs := chunks 8 (c.drop 8)
  if c.length < 24 ∨ c.length % 8 ≠ 0 then none
  else
    let r := kwUnwrapGo kek ((List.range (6 * rs.length)).map fun k => 6 * rs.length - k) (c.take 8) rs
    if r.1 = kwIv then some r.2.flatten else none

end Sys2Proof.Machine
end

