-- ==== Sys2Proof/Machine/Frame.lean ====
section
/-! DEFINITION. DEFLATE decoding and the Sieve Frame (15 R407-R415; RFC 1951). -/

namespace Sys2Proof.Machine

/-- CRC-32C with initial value 0xFFFFFFFF and a final inversion (R408). -/
def crc32c (bs : List Byte) : Nat :=
  (bs.foldl (fun c b => crcByte .crc32c c b.toNat) 0xFFFFFFFF) ^^^ 0xFFFFFFFF

/-! ## DEFLATE -/

/-- The bits of a stream, least significant first within each byte. -/
def bitsOf (bs : List Byte) : List Bool := bs.flatMap fun b => (List.range 8).map fun i => bit b i

def natOfBits : List Bool → Nat
  | [] => 0
  | b :: bs => b.toNat + 2 * natOfBits bs

/-- `n` bits as a number, and the rest; none when the stream ends. -/
def takeBits (n : Nat) (bs : List Bool) : Option (Nat × List Bool) :=
  if bs.length < n then none else some (natOfBits (bs.take n), bs.drop n)

/-- A prefix code: how many codes have each length from 1 to 15, and the symbols in code order. -/
structure Huff where
  counts : List Nat
  syms : List Nat
  deriving DecidableEq, Repr

def mkHuff (lens : List Nat) : Huff :=
  let ls := (List.range 15).map (· + 1)
  ⟨ls.map fun l => lens.count l, ls.flatMap fun l => (List.range lens.length).filter fun i => lens[i]? == some l⟩

/-- Does the code give out more codes than its lengths allow? -/
def Huff.over (h : Huff) : Bool := go h.counts 1
where
  go : List Nat → Nat → Bool
    | [], _ => false
    | c :: cs, left => decide (2 * left < c) || go cs (2 * left - c)

def symGo (syms : List Nat) : List Nat → Nat → Nat → Nat → List Bool → Option (Nat × List Bool)
  | c :: cs, code, first, index, b :: bs =>
    let code := code + b.toNat
    if code < first + c then (syms[index + (code - first)]?).map fun s => (s, bs)
    else symGo syms cs (2 * code) (2 * (first + c)) (index + c) bs
  | _, _, _, _, _ => none

/-- The next symbol; none for a code that stands for nothing or a stream that ends. -/
def Huff.sym (h : Huff) (bs : List Bool) : Option (Nat × List Bool) := symGo h.syms h.counts 0 0 0 bs

/-- What a block has produced: its bytes, newest first, and their number. -/
structure Out where
  rev : List Byte
  n : Nat
  deriving DecidableEq, Repr

/-- The limits of R414: the declared raw length and the expansion cap. -/
structure Lim where
  raw : Nat
  cap : Nat
  deriving DecidableEq, Repr

def Out.emit (l : Lim) (o : Out) (b : Byte) : Except Nat Out :=
  if l.raw ≤ o.n then .error 0x13 else if l.cap ≤ o.n then .error 0x14 else .ok ⟨b :: o.rev, o.n + 1⟩

def Out.copy (l : Lim) (d : Nat) : Nat → Out → Except Nat Out
  | 0, o => .ok o
  | n + 1, o =>
    match o.rev[d - 1]? with
    | none => .error 0x12
    | some b => match o.emit l b with
      | .ok o' => o'.copy l d n
      | .error e => .error e

/-- Base and extra bits of length symbol 257 + `i`, for `i` below 29. -/
def lenBase (i : Nat) : Nat × Nat :=
  if i < 8 then (3 + i, 0)
  else if i = 28 then (258, 0)
  else let e := i / 4 - 1; (3 + (4 + i % 4) * 2 ^ e, e)

/-- Base and extra bits of distance symbol `i`, for `i` below 30. -/
def distBase (i : Nat) : Nat × Nat :=
  if i < 4 then (1 + i, 0) else let e := i / 2 - 1; (1 + (2 + i % 2) * 2 ^ e, e)

/-- The symbols of one compressed block, to its end of block. Once the output has the declared raw length, whatever else
the stream goes on with ends the job with 0x13; 15 bits that are no code are an invalid one, fewer may be a stream that
ends early (R414). -/
def inflCodes (l : Lim) (lit dist : Huff) : Nat → List Bool → Out → Except Nat (List Bool × Out)
  | 0, _, _ => .error 0x12
  | fuel + 1, bs, o =>
    match lit.sym bs with
    | none => .error (if l.raw ≤ o.n ∧ 15 ≤ bs.length then 0x13 else 0x12)
    | some (s, bs) =>
      if s = 256 then .ok (bs, o)
      else if l.raw ≤ o.n then .error 0x13
      else if s < 256 then
        match o.emit l (BitVec.ofNat 8 s) with
        | .ok o' => inflCodes l lit dist fuel bs o'
        | .error e => .error e
      else if 286 ≤ s then .error 0x12
      else
        match takeBits (lenBase (s - 257)).2 bs with
        | none => .error 0x12
        | some (x, bs) =>
          match dist.sym bs with
          | none => .error 0x12
          | some (ds, bs) =>
            if 30 ≤ ds then .error 0x12
            else match takeBits (distBase ds).2 bs with
              | none => .error 0x12
              | some (y, bs) =>
                match o.copy l ((distBase ds).1 + y) ((lenBase (s - 257)).1 + x) with
                | .ok o' => inflCodes l lit dist fuel bs o'
                | .error e => .error e

def fixedLit : Huff :=
  mkHuff (List.replicate 144 8 ++ List.replicate 112 9 ++ List.replicate 24 7 ++ List.replicate 8 8)
def fixedDist : Huff := mkHuff (List.replicate 30 5)

/-- Order of the code-length code lengths. -/
def clOrder : List Nat := [16, 17, 18, 0, 8, 7, 9, 6, 10, 5, 11, 4, 12, 3, 13, 2, 14, 1, 15]

/-- The code lengths of a dynamic block, newest first. -/
def readLens (h : Huff) (want : Nat) : Nat → List Bool → List Nat → Option (List Bool × List Nat)
  | 0, _, _ => none
  | fuel + 1, bs, acc =>
    if acc.length = want then some (bs, acc)
    else if want < acc.length then none
    else match h.sym bs with
      | none => none
      | some (s, bs) =>
        if s < 16 then readLens h want fuel bs (s :: acc)
        else if s = 16 then
          match acc, takeBits 2 bs with
          | p :: _, some (n, bs) => readLens h want fuel bs (List.replicate (3 + n) p ++ acc)
          | _, _ => none
        else match takeBits (if s = 17 then 3 else 7) bs with
          | none => none
          | some (n, bs) => readLens h want fuel bs (List.replicate ((if s = 17 then 3 else 11) + n) 0 ++ acc)

/-- The two codes of a dynamic block. -/
def dynCodes (bs : List Bool) : Option (Huff × Huff × List Bool) := do
  let (hl, bs) ← takeBits 5 bs
  let (hd, bs) ← takeBits 5 bs
  let (hc, bs) ← takeBits 4 bs
  if 29 < hl then none
  else if bs.length < 3 * (hc + 4) then none
  else
    let cl := (List.range (hc + 4)).map fun i => natOfBits ((bs.drop (3 * i)).take 3)
    let lens := (List.range 19).map fun s =>
      match (List.range (hc + 4)).find? fun i => clOrder[i]? == some s with
      | some i => (cl[i]?).getD 0
      | none => 0
    let h := mkHuff lens
    if h.over then none
    else
      let (rest, rev) ← readLens h (hl + 257 + hd + 1) (hl + hd + 260) (bs.drop (3 * (hc + 4))) []
      let ls := rev.reverse
      let lit := mkHuff (ls.take (hl + 257))
      let dist := mkHuff (ls.drop (hl + 257))
      if lit.over || dist.over then none else some (lit, dist, rest)

def emitAll (l : Lim) : List Byte → Out → Except Nat Out
  | [], o => .ok o
  | b :: bs, o => match o.emit l b with
    | .ok o' => emitAll l bs o'
    | .error e => .error e

def bytesOfBits : Nat → List Bool → List Byte
  | 0, _ => []
  | n + 1, bs => BitVec.ofNat 8 (natOfBits (bs.take 8)) :: bytesOfBits n (bs.drop 8)

/-- A stored block, from the next byte boundary on. The bytes that are there come out before the stream ends early. -/
def inflStored (l : Lim) (bs : List Bool) (o : Out) : Except Nat (List Bool × Out) :=
  let bs := bs.drop (bs.length % 8)
  match takeBits 16 bs with
  | none => .error 0x12
  | some (n, bs) => match takeBits 16 bs with
    | none => .error 0x12
    | some (m, bs) =>
      if n + m ≠ 0xFFFF then .error 0x12
      else match emitAll l (bytesOfBits (min n (bs.length / 8)) bs) o with
        | .ok o' => if bs.length < 8 * n then .error 0x12 else .ok (bs.drop (8 * n), o')
        | .error e => .error e

/-- The blocks of a stream, to the one with BFINAL. -/
def inflBlocks (l : Lim) : Nat → List Bool → Out → Except Nat (List Bool × Out)
  | 0, _, _ => .error 0x12
  | fuel + 1, bs, o =>
    match takeBits 1 bs with
    | none => .error 0x12
    | some (fin, bs) =>
      match takeBits 2 bs with
      | none => .error 0x12
      | some (ty, bs) =>
        let r := if ty = 0 then inflStored l bs o
          else if ty = 1 then inflCodes l fixedLit fixedDist (bs.length + 1) bs o
          else if ty = 2 then match dynCodes bs with
            | none => .error 0x12
            | some (lit, dist, bs) => inflCodes l lit dist (bs.length + 1) bs o
          else .error 0x12
        match r with
        | .error e => .error e
        | .ok (bs, o) =>
          if fin = 1 then .ok (bs, o) else if l.raw ≤ o.n then .error 0x13 else inflBlocks l fuel bs o

/-- A stored block of a frame decoded to its `raw` bytes, by R410 and R414; an error is a status of
R425. -/
def inflate (raw : Nat) (stream : List Byte) : Except Nat (List Byte) :=
  let bs := bitsOf stream
  match inflBlocks ⟨raw, 1032 * stream.length⟩ (bs.length + 1) bs ⟨[], 0⟩ with
  | .error e => .error e
  | .ok (rest, o) =>
    if 8 ≤ rest.length || rest.any id || o.n != raw then .error 0x12 else .ok o.rev.reverse

/-! ## The frame (R408, R409) -/

/-- An index entry. -/
structure BlkIdx where
  raw : Bool
  clen : Nat
  crc : Nat
  deriving DecidableEq, Repr

/-- A frame header. -/
structure FrameHdr where
  blk : Nat
  level : Nat
  rawLen : Nat
  nblk : Nat
  rawCrc : Nat
  deriving DecidableEq, Repr

def ceilDiv (a b : Nat) : Nat := (a + b - 1) / b

def FrameHdr.bytes (h : FrameHdr) : List Byte :=
  let b := toBytes 4 0x53564631 ++ [1, 0, BitVec.ofNat 8 (h.blk / 4096), BitVec.ofNat 8 h.level] ++
    toBytes 8 h.rawLen ++ toBytes 4 h.nblk ++ toBytes 4 0 ++ toBytes 4 h.rawCrc
  b ++ toBytes 4 (crc32c b)

def BlkIdx.bytes (i : BlkIdx) : List Byte :=
  dwords [pack [(63, 63, i.raw.toNat), (55, 32, i.clen), (31, 0, i.crc)]]

/-- Raw bytes of block `k` (R409). -/
def FrameHdr.rawOf (h : FrameHdr) (k : Nat) : Nat := if k + 1 < h.nblk then h.blk else h.rawLen - k * h.blk

/-- The header of a frame checked by R413; status 0x10. -/
def readHdr (inp : List Byte) : Except Nat FrameHdr :=
  let b := inp.take 32
  let w0 := dwordAt b 0
  let w2 := dwordAt b 0x10
  let w3 := dwordAt b 0x18
  let blk := fld w0 15 8 * 4096
  let rawLen := (dwordAt b 8).toNat
  if b.length < 32 ∨ fld w0 63 32 ≠ 0x53564631 ∨ fld w0 31 24 ≠ 1 ∨ fld w0 23 16 ≠ 0 ∨ fld w2 31 0 ≠ 0 ∨
      fld w3 31 0 ≠ crc32c (b.take 28) ∨ blk = 0 ∨ 64 * 4096 < blk ∨ rawLen = 0 ∨ 2 ^ 32 < rawLen ∨
      fld w2 63 32 ≠ ceilDiv rawLen blk then .error 0x10
  else .ok ⟨blk, fld w0 7 0, rawLen, fld w2 63 32, fld w3 63 32⟩

def idxAt (inp : List Byte) (k : Nat) : BlkIdx :=
  let w := dwordAt inp (32 + 8 * k)
  ⟨bit w 63, fld w 55 32, fld w 31 0⟩

/-- The block index checked by R413; status 0x11. `len`: the bytes of input there are. -/
def readIdx (h : FrameHdr) (inp : List Byte) (len : Nat) : Except Nat (List BlkIdx) :=
  let is := (List.range h.nblk).map (idxAt inp)
  let bad := (List.range h.nblk).any fun k =>
    let w := dwordAt inp (32 + 8 * k)
    let i := idxAt inp k
    fld w 62 56 != 0 || i.clen == 0 || decide (262144 < i.clen) || (i.raw && i.clen != h.rawOf k)
  if len < 32 + 8 * h.nblk ∨ bad ∨ len < 32 + 8 * h.nblk + (is.map BlkIdx.clen).sum then .error 0x11
  else .ok is

/-- Offset of stored block `k` (R409). -/
def storedAt (h : FrameHdr) (is : List BlkIdx) (k : Nat) : Nat :=
  32 + 8 * h.nblk + ((is.take k).map BlkIdx.clen).sum

def blkIdx (is : List BlkIdx) (k : Nat) : BlkIdx := (is[k]?).getD ⟨true, 0, 0⟩

/-- Stored block `k` decoded and verified (R414). -/
def decodeStored (h : FrameHdr) (i : BlkIdx) (k : Nat) (st : List Byte) : Except Nat (List Byte) :=
  let out := if i.raw then .ok st else inflate (h.rawOf k) st
  match out with
  | .error e => .error e
  | .ok o => if crc32c o = i.crc then .ok o else .error 0x16

/-- Block `k` of a frame decoded and verified. -/
def decodeBlock (h : FrameHdr) (is : List BlkIdx) (inp : List Byte) (k : Nat) : Except Nat (List Byte) :=
  decodeStored h (blkIdx is k) k ((inp.drop (storedAt h is k)).take (blkIdx is k).clen)

/-- How many earlier match candidates the compressor examines at each position, and whether it matches lazily, by the
level (R412). -/
def levelOf (level : Nat) : Nat × Bool := (2 ^ (level - 1), decide (4 ≤ level))

/-- A block compressed and checked by decoding it again (R410, R411): the index entry, the stored
bytes, and whether the check failed twice. `glitches`: how many attempts the lane itself spoiled. -/
def compressBlock (level glitches : Nat) (raw : List Byte) : BlkIdx × List Byte × Bool :=
  let st := Config.deflateStream (levelOf level).1 (levelOf level).2 raw
  let c := crc32c raw
  let asRaw : BlkIdx × List Byte := (⟨true, raw.length, c⟩, raw)
  if raw.length ≤ st.length then (asRaw.1, asRaw.2, false)
  else
    let good := match inflate raw.length st with
      | .ok o => crc32c o == c
      | .error _ => false
    if good && decide (glitches < 2) then (⟨false, st.length, c⟩, st, false) else (asRaw.1, asRaw.2, true)

/-- A whole frame from its compressed blocks. -/
def frameOf (level blk : Nat) (raw : List Byte) (bs : List (BlkIdx × List Byte)) : List Byte :=
  (FrameHdr.mk blk level raw.length bs.length (crc32c raw)).bytes ++ bs.flatMap (fun b => b.1.bytes) ++
  bs.flatMap fun b => b.2

/-- The frame of an input (R407, R408), and whether a block failed its check twice. `spoiled`: the blocks whose checks
failed in the lane (R411). -/
def sieveFrame (level blk : Nat) (spoiled : List Nat) (raw : List Byte) : List Byte × Bool :=
  let bs := (chunks blk raw).mapIdx fun k b => compressBlock level (if spoiled.contains k then 2 else 0) b
  (frameOf level blk raw (bs.map fun b => (b.1, b.2.1)), bs.any fun b => b.2.2)

/-- Blocks decoded one after another, with the output limit tested before each (R415). -/
def unframeGo (h : FrameHdr) (is : List BlkIdx) (inp : List Byte) (room : Nat) : List Nat → Except Nat (List Byte)
  | [] => .ok []
  | k :: ks =>
    if room < h.rawOf k then .error 0x15
    else match decodeBlock h is inp k with
      | .error e => .error e
      | .ok o => match unframeGo h is inp (room - h.rawOf k) ks with
        | .error e => .error e
        | .ok r => .ok (o ++ r)

/-- A whole frame decoded under an output limit (R413-R415, R426). -/
def unframe (limit : Nat) (inp : List Byte) : Except Nat (List Byte) :=
  match readHdr inp with
  | .error e => .error e
  | .ok h => match readIdx h inp inp.length with
    | .error e => .error e
    | .ok is => unframeGo h is inp limit (List.range h.nblk)

end Sys2Proof.Machine
end

