-- ==== Sys2Proof/Machine/Epoch.lean ====
section
/-! DEFINITION. Epochs: dirty notes, the backlog, shipping, and the epoch close (14 R376-R386;
06 R155, R156). -/

namespace Sys2Proof.Machine

/-! ## L2 lines -/

def l2Key (c line : Nat) : Nat := c * 2 ^ 40 + line
def State.l2l (s : State) (c line : Nat) : L2Line := Map.get L2Line.none s.l2 (l2Key c line)
def State.setL2 (s : State) (c line : Nat) (x : L2Line) : State :=
  { s with l2 := Map.set L2Line.none s.l2 (l2Key c line) x }

/-! ## Checkpoint entries (R373; DESIGN CHOICE, log 25) -/

/-- State registers in the order of their checkpoint entries. -/
def ckSrs : List Nat :=
  [0, 1, 2, 3, 4, 6, 9, 10] ++ (List.range 8).map (0x10 + ·) ++ (List.range 24).map (0x30 + ·) ++ [0x48]

def optCode : Option Nat → Nat
  | none => 0
  | some n => n + 1

/-- The value of checkpoint entry `i`: window file, f registers in halves, pc, delay, reservation,
window levels, state registers. -/
def ckEntry (a : Arch) (i : Nat) : W64 :=
  if i < 680 then Map.get zero64 a.regs i
  else if i < 808 then
    let f := Map.get zero128 a.fregs ((i - 680) / 2)
    if i % 2 = 0 then f.setWidth 64 else (f >>> 64).setWidth 64
  else if i = 808 then a.pc
  else if i = 809 then
    match a.delay with
    | none => 0
    | some d => pack [(63, 63, 1), (62, 62, d.isF.toNat), (5, 0, d.reg)]
  else if i = 810 then match a.delay with | none => 0 | some d => d.old.setWidth 64
  else if i = 811 then match a.delay with | none => 0 | some d => (d.old >>> 64).setWidth 64
  else if i = 812 then BitVec.ofNat 64 (optCode a.rsv)
  else if i < 841 then BitVec.ofNat 64 (Map.get lvlDefault a.lvls (i - 813))
  else match ckSrs[i - 841]? with
    | some n => a.srv n
    | none => 0

/-- Entries of a thread's architected state; entry 882 is its run state. -/
def ckCount : Nat := 882

/-- The architected state with entry `i` set: what a register image gives back (R393). -/
def ckSet (a : Arch) (i : Nat) (v : W64) : Arch :=
  if i < 680 then { a with regs := Map.set zero64 a.regs i v }
  else if i < 808 then
    let k := (i - 680) / 2
    let f := Map.get zero128 a.fregs k
    let f' := if i % 2 = 0 then setFld f 63 0 v.toNat else setFld f 127 64 v.toNat
    { a with fregs := Map.set zero128 a.fregs k f' }
  else if i = 808 then { a with pc := v }
  else if i = 809 then
    let old := (a.delay.map Delay.old).getD 0
    { a with delay := if bit v 63 then some (Delay.mk (bit v 62) (fld v 5 0) old) else none }
  else if i = 810 then
    { a with delay := a.delay.map fun d => { d with old := setFld d.old 63 0 v.toNat } }
  else if i = 811 then
    { a with delay := a.delay.map fun d => { d with old := setFld d.old 127 64 v.toNat } }
  else if i = 812 then { a with rsv := if v = 0 then none else some (v.toNat - 1) }
  else if i < 841 then { a with lvls := Map.set lvlDefault a.lvls (i - 813) (v.toNat % 4) }
  else match ckSrs[i - 841]? with
    | some n => a.setSr n v
    | none => a

/-- The register delta: entries that differ from the snapshot (R155). -/
def ckDelta (old new : Arch) : List (Nat × W64) :=
  if old = new then []
  else ((List.range ckCount).filter fun i => ckEntry old i ≠ ckEntry new i).map fun i => (i, ckEntry new i)

def ckAll (a : Arch) : List (Nat × W64) := (List.range ckCount).map fun i => (i, ckEntry a i)

/-! ## The success of a retry (R141, R142) -/

/-- The counts of a core that run within one STC second (R142, R143). -/
def Core.inSec (c : Core) (sec : Nat) : Core :=
  if c.lastSec = sec then c else { c with lastSec := sec, retries := 0, outside := 0 }

/-- One event of the retry rate, and its record when the rate reaches RST.RTYCFG.THR (R142). DEDUCED: log 130. -/
def State.rateEvent (s : State) (c code : Nat) (single : Bool) : State :=
  let thr := s.rf .rstRtycfg [] 15 0
  let x := (s.core c).inSec s.stc.sec
  let n := x.retries + 1
  let y := { x with retries := n }
  if thr = 0 then
    if single then (s.setCore c y).coreFault c clsCorrected code 0 0 else s.setCore c y
  else if thr ≤ n ∧ x.ratedSec ≠ some s.stc.sec then
    (s.setCore c { y with ratedSec := some s.stc.sec }).coreFault c clsCorrected 0x0110 0 0
  else s.setCore c y

/-- A retry succeeds: the group hardened on an attempt; its record carries the code of the check it answered (R141,
R142). -/
def State.retryDone (s : State) (c : Nat) : State :=
  let x := s.core c
  if x.attempts = 0 then s
  else
    let s1 := ((s.setCore c { x with attempts := 0 }).setRf .rstRtystat [c] 33 32 x.attempts).incRf .rstRtystat [c] 31 0
    s1.rateEvent c x.rcode true

/-- A retry has nothing left to restore: the thread whose group failed stops or starts anew (R141, R143). -/
def State.retryEnds (s : State) (m : Nat) : State :=
  if (s.core (m / 2)).alone = m % 2 ∧ (s.core (m / 2)).attempts ≠ 0 then s.modCore (m / 2) fun x => { x with attempts := 0 } else s

/-- What the hardening of groups of thread `m` ends: a retry that restored its core for it. DESIGN CHOICE: log 148. -/
def State.hardened (s : State) (m : Nat) : State :=
  if (s.core (m / 2)).alone = m % 2 then s.retryDone (m / 2) else s

/-! ## Records and the backlog -/

/-- Bytes of a record: its header and its payload (R373). -/
def Rec.size : Rec → Nat
  | .line .. => 264
  | .regd _ _ es => 136 + 8 * es.length
  | .cfgw .. => 16
  | .out .. => 24
  | .mmio .. => 32
  | .mmiop .. => 16
  | .comp _ f => 8 + f.length
  | .img .. => 4104
  | .close .. => 24
  | .switch .. => 24
  | .ack _ => 16
  | .hb .. => 24
  | .fail _ => 8
  | .hello .. => 48
  | .auth _ => 40

/-- The epoch of an epoch record (R373's EPL). -/
def Rec.ep : Rec → Option Nat
  | .line e .. => some e
  | .regd e .. => some e
  | .cfgw e .. => some e
  | .out e .. => some e
  | .mmio e .. => some e
  | .mmiop e .. => some e
  | .comp e .. => some e
  | .close e .. => some e
  | .switch e .. => some e
  | _ => none

/-- A record put behind every queued record of its own and of earlier epochs: each epoch's records
ship before the next epoch's (R383). -/
def queueRec (r : Rec) : List Rec → List Rec
  | [] => [r]
  | q :: qs =>
    if (q.ep.getD 0) ≤ (r.ep.getD 0) ∨ q.ep.isNone then q :: queueRec r qs else r :: q :: qs

def countRec (r : Rec) (l : List EpCount) : List EpCount :=
  match r.ep with
  | none => l
  | some e =>
    if l.any (·.ep == e) then
      l.map fun c => if c.ep = e then { c with count := c.count + 1, bytes := c.bytes + r.size } else c
    else l ++ [⟨e, 1, r.size⟩]

/-- May the link carry a queued record now: only records of the oldest epoch whose CLOSE is not
queued yet, or records of no epoch (R383)? -/
def Scion.mayShip (x : Scion) (r : Rec) : Bool :=
  match r.ep with
  | none => true
  | some e => decide (e ≤ x.closing.getD x.epoch)

/-! ### Records as bytes (R373; DESIGN CHOICE, log 25) -/

def recHead (typ ep arg : Nat) : List Byte := toBytes 8 (pack [(63, 56, typ), (55, 48, ep), (47, 0, arg)]).toNat

/-- The bytes of a record. -/
def Rec.bytes : Rec → List Byte
  | .line ep l p d => recHead 1 ep (l * 256 + p.toNat) ++ fit 256 d
  | .regd ep t es =>
    recHead 2 ep (t * 2 ^ 40 + (128 + 8 * es.length)) ++
      dwords ((List.range 16).map fun k => pack ((es.filter fun e => e.1 / 64 == k).map fun e => (e.1 % 64, e.1 % 64, 1))) ++
      dwords (es.map Prod.snd)
  | .cfgw ep a v => recHead 3 ep a ++ toBytes 8 v.toNat
  | .out ep h st ab k x => recHead 4 ep h ++ dwords [pack [(63, 32, st), (31, 31, ab.toNat), (2, 0, k)], BitVec.ofNat 64 x]
  | .mmio ep a d p t => recHead 5 ep a ++ fit 16 d ++ dwords [pack [(63, 58, p), (54, 48, t), (4, 0, d.length)]]
  | .mmiop ep p n => recHead 6 ep p ++ toBytes 8 n
  | .comp ep f => recHead 7 ep f.length ++ f
  | .img ep p d => recHead 8 ep (p * 4096) ++ fit 4096 d
  | .close ep n b => recHead 0x10 ep n ++ toBytes 8 ep ++ toBytes 8 b
  | .switch ep n b => recHead 0x11 ep n ++ toBytes 8 ep ++ toBytes 8 b
  | .ack ep => recHead 0x20 ep 0 ++ toBytes 8 ep
  | .hb r t ep => recHead 0x21 0 0 ++ dwords [pack [(63, 61, r), (47, 32, t)], BitVec.ofNat 64 ep]
  | .fail n => recHead 0x22 0 n
  | .hello id sn nonce => recHead 0x23 0 id.toNat ++ toBytes 8 sn ++ fit 32 nonce
  | .auth mac => recHead 0x24 0 0 ++ fit 32 mac

/-- The first record of a byte string, with the rest. -/
def recFirst (b : List Byte) : Option (Rec × List Byte) :=
  let h := dwordAt b 0
  let ep := fld h 55 48
  let arg := fld h 47 0
  let p := b.drop 8
  let give := fun (n : Nat) (r : Rec) => if p.length < n then none else some (r, p.drop n)
  match fld h 63 56 with
  | 1 => give 256 (.line ep (fld h 47 8) (bit h 0) (p.take 256))
  | 2 =>
    let is := (List.range 1024).filter fun i => bit (dwordAt p (8 * (i / 64))) (i % 64)
    let vs := is.mapIdx fun k i => (i, dwordAt p (128 + 8 * k))
    if fld h 23 0 = 128 + 8 * is.length then give (fld h 23 0) (.regd ep (fld h 46 40) vs) else none
  | 3 => give 8 (.cfgw ep arg (dwordAt p 0))
  | 4 => let w := dwordAt p 0
    give 16 (.out ep (fld h 20 0) (fld w 63 32) (bit w 31) (fld w 2 0) (dwordAt p 8).toNat)
  | 5 => let w := dwordAt p 16
    give 24 (.mmio ep arg (p.take (fld w 4 0)) (fld w 63 58) (fld w 54 48))
  | 6 => give 8 (.mmiop ep (fld h 3 0) (dwordAt p 0).toNat)
  | _ => none

/-- Records packed back to back; none where the bytes are not such a string. -/
def recsOf : Nat → List Byte → Option (List Rec)
  | 0, _ => none
  | n + 1, b =>
    if b.isEmpty then some []
    else match recFirst b with
      | none => none
      | some (r, rest) => (recsOf n rest).map (r :: ·)

/-! ### The link -/

/-- A block of the link: 63 data units of 32 bytes, and what the control unit after them holds that the spec gives a value:
its sequence number, the NAK of the other direction, the CRC-32C over the units (R370). -/
structure LinkBlock where
  units : List (List Byte)
  seq : Nat
  nak : Bool
  crc : Nat
  deriving DecidableEq, Repr

def linkBlock (seq : Nat) (nak : Bool) (us : List (List Byte)) : LinkBlock :=
  let ds := us ++ List.replicate (63 - us.length) (List.replicate 32 0)
  ⟨ds, seq, nak, crc32c ds.flatten⟩

/-- Does a block pass the receiver's check (R370)? -/
def LinkBlock.good (b : LinkBlock) : Bool := b.crc == crc32c b.units.flatten

/-- Records packed back to back into data units, in blocks from number `seq` on (R370). -/
def linkBlocks (seq : Nat) (nak : Bool) (rs : List Rec) : List LinkBlock :=
  let us := (chunks 32 (rs.flatMap Rec.bytes)).map (fit 32)
  (List.range ((us.length + 62) / 63)).map fun k => linkBlock (seq + k) nak ((us.drop (63 * k)).take 63)

/-- May a record stand in a COMP: one of the kinds that carry an epoch's content? -/
def Rec.packs : Rec → Bool
  | .line .. | .regd .. | .cfgw .. | .out .. | .mmio .. | .mmiop .. => true
  | _ => false

/-- A run as a lane leaves it: a COMP of one block where that is smaller, else its records, and whether the lane's check
failed twice (R383, R411, R427). -/
def shipRun (glitches : Nat) (rs : List Rec) : List Rec × Bool :=
  let b := rs.flatMap Rec.bytes
  let k := compressBlock 1 glitches b
  let f := frameOf 1 0x4000 b [(k.1, k.2.1)]
  (if f.length < b.length then [.comp ((rs.head?.bind Rec.ep).getD 0) f] else rs, k.2.2)

/-- The epoch of a run's records. -/
def ShipRun.ep (r : ShipRun) : Option Nat := r.recs.head?.bind Rec.ep

/-- Runs in flight in Sieve's Scion context (R427, R430). -/
def shipBusy (l : List ShipRun) : Nat := (l.filter fun r => r.st != .ready).length

/-- A record handed on in its order: into the run of its epoch that still waits for a lane, while that stays within 16 KiB;
into a new run while the context has room for it; raw otherwise (R383, R427). `raw`: Sieve is not there (R491). -/
def shipAdd (raw : Bool) (l : List ShipRun) (r : Rec) : List ShipRun :=
  if raw || !r.packs then l ++ [⟨[r], .ready⟩]
  else
    let joins := match l.getLast? with
      | some q => decide (q.st = ShipSt.waiting) && q.ep == r.ep && decide ((q.recs.map Rec.size).sum + r.size ≤ 0x4000)
      | none => false
    if joins then l.dropLast ++ (l.getLast?.toList.map fun (q : ShipRun) => { q with recs := q.recs ++ [r] })
    else l ++ [(⟨[r], if shipBusy l < 32 then ShipSt.waiting else ShipSt.ready⟩ : ShipRun)]

/-- Queued records pass to Sieve, and what is ready to the link, while that carries them and is authenticated (R372, R383;
DEDUCED, log 26). `raw`: Sieve is not there to compress them (R491). -/
def Scion.pump (raw : Bool) (x : Scion) : Scion :=
  if x.carries && x.authed then
    let old := if raw then x.ship.map fun r => { r with st := ShipSt.ready } else x.ship
    let l := (x.queue.takeWhile x.mayShip).foldl (shipAdd raw) old
    let go := l.takeWhile fun r => r.st == .ready
    { x with sent := x.sent ++ go.flatMap ShipRun.recs, ship := l.drop go.length, queue := x.queue.dropWhile x.mayShip }
  else x

/-- Is Sieve's island down? -/
def State.sieveDown (s : State) : Bool := !s.islRuns 105

/-- What waits for the link passes to it, if it may. -/
def State.scnPump (s : State) : State := { s with scn := s.scn.pump s.sieveDown }

/-- A record queued for the link (R382). -/
def State.scnQueue (s : State) (r : Rec) : State :=
  { s with scn := Scion.pump s.sieveDown { s.scn with queue := queueRec r s.scn.queue, counts := countRec r s.scn.counts } }

/-- Any partition has Class 0 enabled (R217, R377). -/
def State.c0Any (s : State) : Bool :=
  (List.range 48).any fun p => s.rf .trlPcfg [p + 1] 62 62 == 1

/-- The dirty budget in bytes (R377). -/
def State.budget (s : State) : Nat :=
  if s.c0Any then 768 * 1024 else s.rf .scnEpcfg [] 18 0 * 1024

/-- T (R377). -/
def State.budgetT (s : State) : Nat := s.budget - 32 * 1024

/-- Growth of the register deltas since the last snapshots (R377). -/
def State.deltaBytes (s : State) : Nat :=
  ((s.threads.map fun p =>
    let d := ckDelta p.2.snap p.2.cur
    if d.isEmpty then 0 else 136 + 8 * d.length)).sum

/-- The backlog B (R377). -/
def State.backlog (s : State) : Nat :=
  if s.scn.running then
    264 * (s.scn.frozen.length + s.scn.logged.length) + ((s.scn.queue.map Rec.size).sum) +
      (((s.scn.ship.flatMap ShipRun.recs).map Rec.size).sum) + s.deltaBytes
  else 0

/-- Retirement that would raise the backlog waits (R377). -/
def State.stalled (s : State) : Bool := s.scn.running && decide (s.budgetT ≤ s.backlog)

/-- So does what Class 0 may do up to the budget itself (R377). -/
def State.stalledC0 (s : State) : Bool := s.scn.running && decide (s.budget ≤ s.backlog)

/-- Where the structures of the private region start (R375). -/
def State.privBase (s : State) : Nat := s.rf .scnPriv [] 47 30 * 2 ^ 30
def privShip : Nat := 0x02000000
def privUndo : Nat := 0x12000000
def privReplay : Nat := 0x22000000

/-- A Dirty Log entry as it stands in the private region (R380). -/
def LogEntry.word (e : LogEntry) : W64 := pack [(63, 63, 1), (53, 48, e.core), (47, 8, e.line)]

/-- The Scion private region, which is never logged (R375). -/
def State.inPriv (s : State) (a : Nat) : Bool :=
  s.rf .scnPriv [] 0 0 == 1 && decide (a / 2 ^ 30 = s.rf .scnPriv [] 47 30)

/-! ## Shipping -/

/-- The content of a line as a LINE record of epoch `ep` (R380, R381). -/
def State.lineRec (s : State) (ep line : Nat) : Rec :=
  .line ep line (s.poisoned line) (s.rd (line * 256) 256)

/-- The epoch that a line's SE mark names: the open one, or the one before it (R380). -/
def State.seEpoch (s : State) (x : L2Line) : Nat :=
  if x.se = s.scn.epoch % 2 then s.scn.epoch else s.scn.epoch - 1

/-- A line with PS = 1 hands its content to Scion, and PS clears (R380, R381). -/
def State.shipLine (s : State) (c line : Nat) : State :=
  let x := s.l2l c line
  if x.ps then (s.scnQueue (s.lineRec (s.seEpoch x) line)).setL2 c line { x with ps := false } else s

/-- One Dirty Log entry of the frozen half issued: the line if it still has PS for the frozen
epoch, otherwise nothing (R380). -/
def State.issueEntry (s : State) (e : LogEntry) : State :=
  let x := s.l2l e.core e.line
  if x.ps && x.se == (s.scn.epoch + 1) % 2 then s.shipLine e.core e.line else s

/-- Does a buffer still hold a store that retired in epoch `ep` (R155, R244)? -/
def State.oldStores (s : State) (ep : Nat) : Bool :=
  s.threads.any fun p => (p.2.sb.any fun e => e.stores.any fun x => x.ep == ep) || p.2.cb.any fun l => l.ep == some ep

/-- Does a buffer hold a store of epoch `ep` to the line? -/
def State.oldStoresAt (s : State) (ep line : Nat) : Bool :=
  s.threads.any fun p => (p.2.sb.any fun e => e.stores.any fun x => x.ep == ep && x.addr / 256 == line) ||
    p.2.cb.any fun l => l.ep == some ep && l.line == line

/-- Before a write of epoch `ep` to a line: while a store of the closing epoch to it is buffered, what the line holds
without the stores of the open epoch is kept for the closing epoch's record (R155). DEDUCED: log 149. -/
def State.savePre (s : State) (line ep : Nat) : State :=
  match s.scn.closing with
  | none => s
  | some old =>
    if ep ≠ old && !(s.scn.pre.any fun p => p.1 == line) && s.oldStoresAt old line then
      { s with scn := { s.scn with pre := (line, s.rd (line * 256) 256) :: s.scn.pre } }
    else s

/-- Bytes written into a line's content by offset. -/
def putOffsets (d : List Byte) (w : List (Nat × Byte)) : List Byte :=
  d.mapIdx fun i b => ((w.reverse.find? fun p => p.1 % 256 == i).map Prod.snd).getD b

/-- A write of the closing epoch to a line whose content for that epoch is kept: the record of that epoch has it, written
(R155). -/
def State.recPre (s : State) (line : Nat) (w : List (Nat × Byte)) (d : List Byte) : State :=
  let d' := putOffsets d w
  let s1 := { s with scn := { s.scn with pre := s.scn.pre.map fun (p : Nat × List Byte) => if p.1 = line then (line, d') else p } }
  s1.scnQueue (.line (s.scn.closing.getD 0) line (s.poisoned line) d')

/-- The content kept of a line for the epoch `ep`, if that closes. -/
def State.preOf (s : State) (line ep : Nat) : Option (List Byte) :=
  if s.scn.closing = some ep then (s.scn.pre.find? fun p => p.1 == line).map Prod.snd else none

/-- The CLOSE of the frozen epoch is queued once every line of the half has been, with the stores that belong to the
epoch performed (R155, R244, R378). DEDUCED: log 149. -/
def State.closeQueued (s : State) : State :=
  match s.scn.closing with
  | none => s
  | some ep =>
    if s.scn.frozen.isEmpty && !s.oldStores ep then
      let c := (s.scn.counts.find? fun c => c.ep == ep).getD ⟨ep, 0, 0⟩
      let r : Rec := match s.scn.joinSrc with
        | some (.switching e) => if e = ep then .switch ep c.count c.bytes else .close ep c.count c.bytes
        | _ => .close ep c.count c.bytes
      let x := { s.scn with
        queue := queueRec r s.scn.queue, counts := s.scn.counts.filter (·.ep != ep), closing := none, pre := [] }
      { s with scn := x.pump s.sieveDown }
    else s

def State.issueAll (s : State) : State :=
  let s1 := s.scn.frozen.foldl State.issueEntry s
  ({ s1 with scn := { s1.scn with frozen := [] } } : State).closeQueued

/-! ## The close -/

/-- The thread's latest retired group hardens, and its checkpoint becomes the snapshot, with its run state (R155). -/
def Thread.snapshot (t : Thread) (run : Nat) : Thread :=
  { t.hardenAll with snap := t.cur, snapRun := run }

/-- The run state that the snapshot of a thread takes: for a failing core the one that its sparing keeps (R156). -/
def State.snapRunOf (s : State) (m : Nat) : Nat :=
  match s.sparings.find? fun x => x.core == m / 2 with
  | some x => (if m % 2 = 0 then x.run0 else x.run1).code
  | none => (s.thr m).run.code

/-- Is the thread one of a spare whose sparing has not ended: the failing core's checkpoints are the snapshot (R156)? -/
def State.isSpare (s : State) (m : Nat) : Bool := s.sparings.any fun x => x.spare == some (m / 2)

/-- The REGD record of a thread, if any entry changed (R155, R378). -/
def State.queueRegd (s : State) (full : Bool) (m : Nat) (old new : Thread) : State :=
  let run := if full ∨ old.snapRun ≠ new.snapRun then [(ckCount, BitVec.ofNat 64 new.snapRun)] else []
  let es := (if full then ckAll new.snap else ckDelta old.snap new.snap) ++ run
  if es.isEmpty then s
  else s.scnQueue (.regd s.scn.epoch (2 * new.cur.lcore + m % 2) es)

/-- The cumulative MMIO counts of the ports (R382). -/
def State.queueMmiop (s : State) : State :=
  (List.range 12).foldl (fun s p =>
    s.scnQueue (.mmiop s.scn.epoch p (Map.get MmioPort.reset s.mmio p).performed)) s

/-- The snapshot of thread `m`, and its REGD record (R155, R156). -/
def State.snapThread (s : State) (full : Bool) (m : Nat) : State :=
  if s.isSpare m then s
  else
    let t := s.thr m
    let t' := t.snapshot (s.snapRunOf m)
    let s1 := (s.queueRegd full m t t').setThr m t'
    if t.groups.isEmpty then s1 else s1.hardened m

/-- An epoch close (R378). One that comes before the CLOSE of the epoch before it is queued waits for that. -/
def State.epochCloseNow (s : State) : State :=
  let s2 := s.issueAll
  if !s.scn.running then s
  else if s2.scn.closing.isSome then { s2 with scn := { s2.scn with wantClose := true } }
  else
    let full := s2.scn.fullImage
    let s3 := (s2.threads.map Prod.fst).foldl (fun a m => a.snapThread full m) s2
    let s4 := s3.queueMmiop
    let x := s4.scn
    ({ s4 with scn := { x with
        half := !x.half, halfLen := x.logged.length, frozen := x.logged, logged := [], closing := some x.epoch, epoch := x.epoch + 1,
        fullImage := false } } : State).closeQueued

/-- The CLOSE of the frozen epoch once it can be queued, and then the close that waited for it. -/
def State.queueClose (s : State) : State :=
  let s1 := s.closeQueued
  if s1.scn.closing.isNone && s1.scn.wantClose then
    ({ s1 with scn := { s1.scn with wantClose := false } } : State).epochCloseNow
  else s1

/-- A close that is requested: it merges into the close of a planned switch-over or of a Joining switch
in progress (R379). -/
def State.epochClose (s : State) : State :=
  let switching := match s.scn.joinSrc with
    | some (.switching _) => true
    | _ => false
  if s.scn.switchOver.isSome || switching then s else s.epochCloseNow

/-- The backlog reaching T closes the open epoch (R377). -/
def State.budgetClose (s : State) : State := if s.stalled then s.epochClose else s

/-- A record queued that raises the backlog, which may reach T by it (R377, R382). -/
def State.scnRecord (s : State) (r : Rec) : State := (s.scnQueue r).budgetClose

/-- A Secure World write of `v` to a register, for the mirror (R382). -/
def State.cfgw (s : State) (r : Reg) (ix : List Nat) (v : W64) : State :=
  if s.scn.running then s.scnRecord (.cfgw s.scn.epoch (r.addr ix) v) else s

/-- A register that Rootstock writes, for the mirror as well. -/
def State.rootReg (s : State) (r : Reg) (ix : List Nat) (v : W64) : State := (s.cfgw r ix v).setReg r ix v

/-- An entry appended to a Dirty Log half, `half` 0 or 1, as its entry number `i` (R375, R380). -/
def State.logEntry (s : State) (half : Bool) (i : Nat) (e : LogEntry) : State :=
  if s.rf .scnPriv [] 0 0 = 1 then s.wrD (s.privBase + half.toNat * 0x800000 + 8 * i) e.word else s

/-- Ship-before-write: a line still pending for a closed epoch ships first (R381). -/
def State.shipClosed (s : State) (c line : Nat) : State :=
  if (s.l2l c line).se == s.scn.epoch % 2 then s else s.shipLine c line

/-- A line dirty in the open epoch: PS, SE and a Dirty Log entry, unless it carries them already (R380). -/
def State.dirtyOpen (s : State) (c line : Nat) : State :=
  let x := s.l2l c line
  if x.ps && x.se == s.scn.epoch % 2 then s
  else
    let s2 := s.setL2 c line { x with ps := true, se := s.scn.epoch % 2 }
    let s3 := s2.logEntry s.scn.half s.scn.logged.length ⟨c, line⟩
    ({ s3 with scn := { s3.scn with logged := s3.scn.logged ++ [LogEntry.mk c line] } } : State).budgetClose

/-- A line made dirty by a store of epoch `ep` of the bytes `w`. A store from before the close that is under way logs in the
half frozen by it; where the open epoch has written the line already, it belongs to both epochs (R155, R244, R380). -/
def State.dirtyNote (s : State) (c line ep : Nat) (w : List (Nat × Byte)) : State :=
  let x := s.l2l c line
  if !s.scn.running || s.inPriv (line * 256) then s
  else match s.preOf line ep with
    | some d => (s.recPre line w d).dirtyOpen c line
    | none =>
      if s.scn.closing = some ep then
        if x.ps then s
        else
          let s2 := s.setL2 c line { x with ps := true, se := ep % 2 }
          let s3 := s2.logEntry (!s.scn.half) s.scn.halfLen ⟨c, line⟩
          { s3 with scn := { s3.scn with frozen := s3.scn.frozen ++ [LogEntry.mk c line], halfLen := s3.scn.halfLen + 1 } }
      else s.dirtyOpen c line

/-- The epoch that a write of epoch `ep` is recorded in: its own while that is closing, else the open one (R155,
R382). -/
def State.recEp (s : State) (ep : Nat) : Nat := if s.scn.closing = some ep then ep else s.scn.epoch

/-- A write of epoch `ep` that a home accepts without an L2, of the bytes `w`, becomes a LINE record (R155, R244, R382). -/
def State.homeRecEp (s : State) (line ep : Nat) (w : List (Nat × Byte)) : State :=
  if s.scn.running && !s.inPriv (line * 256) then
    match s.preOf line ep with
    | some d => ((s.recPre line w d).scnQueue (s.lineRec s.scn.epoch line)).budgetClose
    | none => (s.scnQueue (s.lineRec (s.recEp ep) line)).budgetClose
  else s

/-- One of the open epoch. -/
def State.homeRec (s : State) (line : Nat) : State := s.homeRecEp line s.scn.epoch []

end Sys2Proof.Machine
end

