-- ==== Sys2Proof/Machine/Coherence.lean ====
section
/-! DEFINITION. Caches and home slices: line states, snoops, fills, evictions, home transactions and
their messages (08 R191-R219), and the accesses that hub blocks make (R210). -/

namespace Sys2Proof.Machine

/-! ## Home slices and the L3 -/

/-- The home slice of a line (R194). -/
def sliceOf (line : Nat) : Nat :=
  (line % 16) ^^^ (line / 2 ^ 8 % 16) ^^^ (line / 2 ^ 16 % 16) ^^^ (line / 2 ^ 24 % 16) ^^^ (line / 2 ^ 32 % 16)

def l3Key (line : Nat) : Nat := sliceOf line * 4096 + line / 16 % 4096

/-- Is the line pinned (R217)? -/
def State.isPinned (s : State) (line : Nat) : Bool :=
  s.pinRes && s.pinned.any fun r => decide (r.1 ≤ line) && decide (line ≤ r.2)

def State.l3set (s : State) (line : Nat) : List L3Line := Map.get noL3 s.l3 (l3Key line)
def State.l3has (s : State) (line : Nat) : Bool := (s.l3set line).any fun x => x.line == line
def State.setL3 (s : State) (line : Nat) (x : List L3Line) : State := { s with l3 := Map.set noL3 s.l3 (l3Key line) x }

/-- A line put into one of the ways `lo` up to `hi`: a free one, else that of the least recently used line that
`may` be replaced (R196). The list is in order of use. DESIGN CHOICE: log 145. -/
def l3Put (line lo hi : Nat) (may : Nat → Bool) (x : List L3Line) : List L3Line :=
  let ways := (List.range (hi - lo)).map (lo + ·)
  match ways.find? fun w => !x.any fun y => y.way == w with
  | some w => ⟨line, w⟩ :: x
  | none =>
    match x.reverse.find? fun y => ways.contains y.way && may y.line with
    | some y => ⟨line, y.way⟩ :: x.erase y
    | none => x

/-- The line made most recently used where it stands, or allocated: while ways are reserved, a pinned line in
ways 30 and 31, a third one in an ordinary way and counted as a pin overflow; every other line in ways 0 to 29, where it replaces no
pinned line (R196, R217, R218). -/
def State.l3Use (s : State) (line : Nat) (alloc : Bool) : State :=
  let x := s.l3set line
  match x.find? fun y => y.line == line with
  | some y => s.setL3 line (y :: x.erase y)
  | none =>
    if !alloc then s
    else if !s.pinRes then s.setL3 line (l3Put line 0 32 (fun _ => true) x)
    else if !s.isPinned line then s.setL3 line (l3Put line 0 30 (fun l => !s.isPinned l) x)
    else if (x.filter fun y => decide (30 ≤ y.way) && s.isPinned y.line).length < 2 then
      s.setL3 line (l3Put line 30 32 (fun l => !s.isPinned l) x)
    else
      let free := x.any fun y => decide (y.way < 30) && !s.isPinned y.line
      let y := s.setL3 line (l3Put line 0 30 (fun l => !free || !s.isPinned l) x)
      let k := sliceOf line
      ({ y with pinOver := Map.set zeroNat y.pinOver k (Map.get zeroNat y.pinOver k + 1) } : State).pmcEvent (blkSlice k) 0x220 0

/-- A line, or with `all` its whole set, dropped from its slice (R216). -/
def State.l3Drop (s : State) (line : Nat) (all : Bool) : State :=
  s.setL3 line (if all then [] else (s.l3set line).filter fun y => y.line != line)

/-- The ranges that Trellis supplies, as lines: the Class 0 queues of every partition with Class 0 enabled and
the top 1,024 entries of its ledger (R217, R287). -/
def State.pinRanges (s : State) : List (Nat × Nat) :=
  let on := fun (p : Nat) => s.rf .trlPcfg [p] 62 62 == 1
  let run := fun (a n : Nat) => if n = 0 then [] else [(a / 256, (a + n - 1) / 256)]
  ((s.trl.sqs.filter fun q => on q.pid && q.cls == 0).flatMap fun q => run q.base (128 * 2 ^ q.k)) ++
  ((s.trl.cqs.filter fun q => on q.pid && q.cls == 0).flatMap fun q => run q.base (32 * 2 ^ q.k)) ++
  (((List.range 48).map (· + 1)).filter on).flatMap fun p =>
    run (s.rf .trlLbase [p] 47 16 * 0x10000 + 128 * (2 ^ s.rf .trlLbase [p] 4 0 - 1024)) (128 * 1024)

/-- The pinned ranges brought up to date. When reservation starts, the unpinned lines in ways 30 and 31 are
invalidated (R217). -/
def State.pinSync (s : State) : State :=
  let s1 := { s with pinned := s.pinRanges, pinRes := s.c0Any }
  if s1.pinRes && !s.pinRes then
    let keep := fun (y : L3Line) => decide (y.way < 30) || s1.isPinned y.line
    { s1 with l3 := (s1.l3.map fun p => (p.1, p.2.filter keep)).filter (fun p => !p.2.isEmpty) }
  else s1

/-- A line accepted into the write queue of its controller: a scrub write-back of the line on its
way is superseded (R196, R251, R262). A full queue lets its oldest line go first. -/
def State.mcAccept (s : State) (line : Nat) : State :=
  let n := s.mcOf (line * 256)
  let q := Map.get noLines s.mcq n
  let q' := if q.contains line then q else (if 128 ≤ q.length then q.drop 1 else q) ++ [line]
  ({ s with mcq := Map.set noLines s.mcq n q' } : State).modMc n fun x =>
    { x with scrubs := x.scrubs.filter (· != line), draining := x.draining || decide (96 < q'.length) }

/-- A write-back accepted: DRAM's write queue, and a copy in the L3 (R196). -/
def State.acceptWb (s : State) (line : Nat) : State := (s.mcAccept line).l3Use line true

/-! ## Reservations (R76) -/

def Arch.dropRsv (line : Nat) (a : Arch) : Arch := if a.rsv = some line then { a with rsv := none } else a
def Thread.dropRsv (line : Nat) (t : Thread) : Thread :=
  { t with
    cur := t.cur.dropRsv line, hard := t.hard.dropRsv line, groups := t.groups.map (Arch.dropRsv line),
    hold := if t.hold = some line then none else t.hold }

/-- A store to bytes `w` of a reserved line: the reservation is lost, but where the iteration of a constrained loop that
completes holds the line, the store is ordered after its STCD (R76, R77, R78). DEDUCED: log 147. -/
def Thread.storeSeen (line : Nat) (w : List (Nat × Byte)) (t : Thread) : Thread :=
  if t.sureOf line then { t with loop := t.loop.map fun l => { l with late := l.late ++ w.map fun p => line * 256 + p.1 % 256 } }
  else t.dropRsv line

/-- A store to a line as its reservations see it (R76). -/
def State.storeSeen (s : State) (line : Nat) (w : List (Nat × Byte)) : State :=
  { s with threads := (s.threads.map fun p => (p.1, p.2.storeSeen line w)).filter fun p => p.2 != Thread.reset p.1 }

/-- The reservations that core `c`'s threads hold on a line lost with the line (R76). -/
def State.coreDropRsv (s : State) (c line : Nat) : State :=
  (s.modThr (2 * c) (Thread.dropRsv line)).modThr (2 * c + 1) (Thread.dropRsv line)

/-! ## First-level caches (R191, R192) -/

def l1Set (line : Nat) : Nat := line % 64

/-- A line removed from a first-level cache. -/
def l1Without (line : Nat) (m : Map (List Nat)) : Map (List Nat) :=
  Map.set noLines m (l1Set line) ((Map.get noLines m (l1Set line)).filter (· != line))

/-- The line leaves both first-level caches of core `c`: its L2 loses it. -/
def State.l1Drop (s : State) (c line : Nat) : State :=
  s.modCore c fun x => { x with l1i := l1Without line x.l1i, l1d := l1Without line x.l1d }

/-- The L1I copy goes as a store updates the L2. The L1D copy, if there is one, is updated: its bytes are those of
the coherent image. -/
def State.l1Store (s : State) (c line : Nat) : State :=
  s.modCore c fun x => { x with l1i := l1Without line x.l1i }

/-- `l` with `x` in front; where all `cap` places are taken, an entry that the spec does not choose leaves.
DESIGN CHOICE: log 24. -/
def State.roomed {α : Type} (s : State) (cap : Nat) (x : α) (l : List α) : List α × State :=
  if l.length < cap then (x :: l, s)
  else
    let r := s.draw
    (x :: l.eraseIdx (r.1.toNat % l.length), r.2)

/-- A fetch (`instr`) or load of core `c` reads the line: its L1I or L1D holds it afterwards (R191). -/
def State.l1Read (s : State) (instr : Bool) (c line : Nat) : State :=
  let x := s.core c
  let l := Map.get noLines (if instr then x.l1i else x.l1d) (l1Set line)
  if l.contains line then s
  else
    let r := s.roomed 8 line l
    r.2.modCore c fun x =>
      if instr then { x with l1i := Map.set noLines x.l1i (l1Set line) r.1 }
      else { x with l1d := Map.set noLines x.l1d (l1Set line) r.1 }

/-- Core `c`'s L2 loses a line, and with it both first-level copies and the reservations of its threads (R76,
R192); a line that waits to ship ships first (R381). -/
def State.loseLine (s : State) (c line : Nat) : State :=
  (((s.shipLine c line).coreDropRsv c line).l1Drop c line).setL2 c line (L2Line.none 0)

/-! ## Snoops -/

/-- The snoops of R199; `part` is the SnpOwn of a WrInvPart (R203). -/
inductive Snp where
  | shared | own | inv | once | part
  deriving DecidableEq, Repr

/-- Response and new state of a snooped L2 line (R203). -/
def snoopAns (k : Snp) (rcm : Bool) (st : L2State) : Rsp × L2State :=
  let st := if st = .f ∧ !rcm then L2State.s else st
  match k, st with
  | _, .i => (.i, .i)
  | _, .ep => (.goneWb, .ep)
  | .shared, .s => (.s, .s)
  | .shared, .f => (.data false, .s)
  | .shared, .e => (.data false, .s)
  | .shared, .o => if rcm then (.dataWb, .s) else (.data true, .o)
  | .shared, .m => if rcm then (.dataWb, .s) else (.data true, .o)
  | .own, .s => (.i, .i)
  | .own, .f => (.data false, .i)
  | .own, .e => (.data false, .i)
  | .own, .o => if rcm then (.dataWb, .i) else (.data true, .i)
  | .own, .m => if rcm then (.dataWb, .i) else (.data true, .i)
  | .inv, _ => (.i, .i)
  | .once, .s => (.s, .s)
  | .once, .f => (.data false, .f)
  | .once, .e => (.data false, .e)
  | .once, .o => if rcm then (.dataWb, .s) else (.data true, .o)
  | .once, .m => if rcm then (.dataWb, .e) else (.data true, .m)
  | .part, .o => (.dataWb, .i)
  | .part, .m => (.dataWb, .i)
  | .part, _ => (.i, .i)

/-- Which snoop a request causes (R199); the kind as served. -/
def snpOf : ReqKind → Snp
  | .rdShared | .prefRd => .shared
  | .rdOwn => .own
  | .upgrade | .wrInv => .inv
  | .rdOnce => .once
  | .wrInvPart => .part

/-- A hold of the line that ran out may be taken again: its L2 has answered a snoop (R214). -/
def Thread.snooped (line : Nat) (t : Thread) : Thread := { t with spentHold := t.spentHold.filter (· != line) }

/-- Core `c`'s L2 answers a snoop: it ships a line it gives up, loses its reservations and first-level copies with the
line, and hands dirty data to the home where the table says so; the data that the SnpOwn of a WrInvPart brings waits
there for the merge (R192, R203, R210, R381). -/
def State.snoopL2 (s : State) (k : Snp) (rcm : Bool) (c line : Nat) : Rsp × State :=
  let x := s.l2l c line
  let a := snoopAns k rcm x.st
  let s1 := if x.st = .i then s else if a.2 = .i then s.loseLine c line
    else s.setL2 c line { s.l2l c line with st := a.2 }
  let s2 := if a.1 = .dataWb ∧ k ≠ .part then s1.acceptWb line else s1
  (a.1, if x.st = .i then s2 else (s2.modThr (2 * c) (Thread.snooped line)).modThr (2 * c + 1) (Thread.snooped line))

/-- Must core `c` keep the line: a posting routine has still to write a flag in it, or the iteration of a constrained loop
that completes has reserved it (R78, R88)? -/
def State.keeps (s : State) (c line : Nat) : Bool :=
  let f := fun (t : Thread) => t.descIn line || t.sureOf line
  f (s.thr (2 * c)) || f (s.thr (2 * c + 1))

/-- Does core `c` hold snoops for the line: for a reservation (R214), or for the flags of descriptors (R88)? -/
def State.holds (s : State) (c line : Nat) : Bool :=
  let f := fun (t : Thread) => t.hold == some line || t.descIn line
  f (s.thr (2 * c)) || f (s.thr (2 * c + 1))

/-- The core whose constrained loop holds the line for its completing iteration, if one does (R78). -/
def State.sureCore (s : State) (line : Nat) : Option Nat :=
  (s.threads.find? fun p => p.2.sureOf line).map fun p => p.1 / 2

/-- The L2s that hold a line in any state but I. -/
def State.holders (s : State) (line : Nat) : List Nat :=
  (List.range 56).filter fun c => (s.l2l c line).st != .i

/-- Snoops of several L2s, answered at once. -/
def State.snoopAll (s : State) (k : Snp) (rcm : Bool) (line : Nat) : List Nat → List (Nat × Rsp) × State
  | [] => ([], s)
  | c :: cs =>
    let a := s.snoopL2 k rcm c line
    let r := a.2.snoopAll k rcm line cs
    ((c, a.1) :: r.1, r.2)

/-! ## Fills -/

/-- Does a response leave a copy at the responder (R201)? -/
def keepsCopy (k : Snp) (rcm : Bool) : Rsp → Bool
  | .s => true
  | .data _ => k = .shared
  | .dataWb => k = .shared && rcm
  | _ => false

/-- The fill state of R201. -/
def fillState (kind : ReqKind) (rcm : Bool) (got : List (Nat × Rsp)) : L2State :=
  match kind with
  | .rdOwn => if got.any fun r => r.2 == .data true then .m else .e
  | .upgrade => .m
  | _ => if got.any fun r => keepsCopy .shared rcm r.2 then (if rcm then .f else .s) else .e

/-- Lines of core `c` in the L2 set of a line (R191). -/
def State.l2Set (s : State) (c line : Nat) : List Nat :=
  (s.l2.filter fun p => p.1 / 2 ^ 40 == c && p.1 % 2048 == line % 2048 && p.2.st != .i).map fun p => p.1 % 2 ^ 40

/-- A dirty line leaves for its home, which accepts it; the L2 keeps it in EP until its WbAck. It joins the active
transaction of the line, and under a full WrInv its data is superseded (R196, R200, R207, R210, R212). -/
def State.wbData (s : State) (c line : Nat) : State :=
  let x := s.l2l c line
  if x.st = .m ∨ x.st = .o then
    let s1 := ((s.shipLine c line).coreDropRsv c line).l1Drop c line
    let s2 := s1.setL2 c line { s1.l2l c line with st := .ep }
    let s3 := { s2 with wbs := s2.wbs ++ [WbMsg.mk c line true] }
    match s3.txns.find? fun t => t.req.line == line with
    | some t =>
      let s4 := if t.req.kind = .wrInv ∨ t.req.kind = .wrInvPart then s3 else s3.acceptWb line
      { s4 with txns := s4.txns.map fun u => if u.req.line = line then { u with wb := true } else u }
    | none => s3.acceptWb line
  else s

/-- WbAck: the way is free (R207). -/
def State.wbAck (s : State) (c line : Nat) : State :=
  if (s.l2l c line).st = .ep then
    ({ s with wbs := s.wbs.filter fun w => !(w.core == c && w.line == line) } : State).setL2 c line (L2Line.none 0)
  else s

/-- A line leaves core `c`'s L2 in a drain or a power-down, its write-back acknowledged. -/
def State.evict (s : State) (c line : Nat) : State :=
  let s1 := (s.wbData c line).wbAck c line
  if (s1.l2l c line).st = .i then s1 else s1.loseLine c line

/-- What a fill needs of the set of its line: a way is free; a way is on its way out; or a dirty line must go
first (R207). -/
inductive Way where
  | ready (s : State)
  | wait
  | dirty (line : Nat)

/-- Room for a line in its set. With all 16 ways taken, a line that the spec does not choose leaves: at once when it is
clean (R191, R202, R207); one that its core must keep leaves last (R88). DESIGN CHOICE: log 12. -/
def State.way (s : State) (c line : Nat) : Way :=
  let l := (s.l2Set c line).filter (· ≠ line)
  if l.length < 16 then .ready s
  else if l.any fun x => (s.l2l c x).st == .ep then .wait
  else
    let r := s.draw
    let free := l.filter fun x => !s.keeps c x
    let l := if free.isEmpty then l else free
    let v := (l[r.1.toNat % l.length]?).getD 0
    let st := (s.l2l c v).st
    if st = .m ∨ st = .o then .dirty v else .ready (r.2.loseLine c v)

/-- The line in core `c`'s L2 in a state, in its way. -/
def State.fill (s : State) (c line : Nat) (st : L2State) : State := s.setL2 c line { s.l2l c line with st := st }

/-- The line filled once it has a way; none while it has not, where a dirty line may begin to leave. -/
def State.fillWay (s : State) (c line : Nat) (st : L2State) : Option State × State :=
  match s.way c line with
  | .ready s1 => (some (s1.fill c line st), s)
  | .wait => (none, s)
  | .dirty v => (none, s.wbData c v)

/-- The active transaction of a line. -/
def State.txn (s : State) (line : Nat) : Option Txn := s.txns.find? fun t => t.req.line == line

/-- Is a request of core `c`'s L2 for the line outstanding, wherever it waits (R207)? -/
def State.asked (s : State) (c line : Nat) : Bool :=
  let mine := fun (r : Req) => r.agent == .core c && r.line == line
  s.ingress.any mine || s.atRing.any mine || s.prefCmp.contains (c, line) || s.txns.any fun t => mine t.req || t.queue.any mine

/-- Requests of core `c`'s L2 that are outstanding (R207). -/
def State.l2Requests (s : State) (c : Nat) : Nat :=
  let mine := fun (r : Req) => r.agent == .core c
  (s.ingress.filter mine).length + (s.atRing.filter mine).length + (s.prefCmp.filter fun x => x.1 == c).length +
    (s.txns.map fun t => (if mine t.req then 1 else 0) + (t.queue.filter mine).length).sum

/-- Trackers of a slice in use (R200). -/
def State.trackers (s : State) (k : Nat) : Nat := (s.txns.filter fun t => sliceOf t.req.line == k).length

/-- Is a tracker free for a request? 16 of a slice's 256 serve only pinned lines (R200, R219). -/
def State.trackerFree (s : State) (line : Nat) : Bool :=
  let k := sliceOf line
  let plain := (s.txns.filter fun t => sliceOf t.req.line == k && !s.isPinned t.req.line).length
  decide (s.trackers k < 256) && (s.isPinned line || decide (plain < 240))

/-- Would a request for a line be ordered at once: a tracker is free, and no earlier request for it waits (R200)? -/
def State.homeOpen (s : State) (line : Nat) : Bool :=
  s.trackerFree line && !(s.ingress.any fun r => r.line == line) && !s.atRing.any fun r => r.line == line

/-- The bytes of a line that writes ordered at its home, and not performed yet, carry (R17, R200). -/
def State.orderedWrites (s : State) (line : Nat) : List (Nat × Byte) :=
  match s.txn line with
  | none => []
  | some t => ((t.req :: t.queue).filter fun r => r.kind == .wrInv || r.kind == .wrInvPart).flatMap Req.data

/-- A byte as a read that its home orders now returns it (R17, R200). -/
def State.homeByte (s : State) (a : Nat) : Byte :=
  (((s.orderedWrites (lineOf a)).reverse.find? fun p => p.1 % 256 == a % 256).map Prod.snd).getD (s.rdByte a)

/-- What a unit of the hub that reads for itself is given, after every write that the home has ordered (R17, R200). -/
def State.homeRd (s : State) (a n : Nat) : List Byte :=
  if s.txns.isEmpty then s.rd a n else (List.range n).map fun i => s.homeByte (a + i)

def State.homeRdD (s : State) (a : Nat) : W64 := BitVec.ofNat 64 (ofBytes (s.homeRd a 8))

/-- Would such a read meet poison: a whole line written by then carries none (R215)? -/
def State.homePoison (s : State) (line : Nat) : Bool :=
  s.poisoned line && match s.txn line with
    | some t => !(t.req :: t.queue).any fun r => r.kind == .wrInv
    | none => true

/-- Can the other L2s answer for a line now: its home takes a request for it, no transaction of it is active, none of them
holds its snoops, and none has it in EP (R198, R200, R214)? -/
def State.clear (s : State) (c line : Nat) : Bool :=
  (s.txn line).isNone && s.homeOpen line && (List.range 56).all fun k => k = c || (!s.holds k line && (s.l2l k line).st != .ep)

/-- Has an L2 supplied the line to the requester (R204)? -/
def Txn.supplied (t : Txn) : Bool := t.got.any fun r => r.2 == .data true || r.2 == .data false

/-- Does a transaction wait for its line from DRAM: a read whose line no L2 has supplied, and that neither the L3 nor a
write-back nor the write queue holds (R196, R204, R251)? -/
def State.wantsDram (s : State) (t : Txn) : Bool :=
  let l := t.req.line
  (t.req.kind == .rdShared || t.req.kind == .prefRd || t.req.kind == .rdOwn || t.req.kind == .rdOnce) && !t.filled &&
  !t.fetched && !t.supplied && !t.wb && !s.l3has l && !(Map.get noLines s.mcq (s.mcOf (l * 256))).contains l

/-- The read queue of controller `n`, in the order of service: at most 128 lines, the pinned ones first (R251). DEDUCED: log 162. -/
def State.readQueue (s : State) (n : Nat) : List Nat :=
  let q := ((s.txns.filter fun t => s.mcOf (t.req.line * 256) == n && s.wantsDram t).map fun t => t.req.line).take 128
  q.filter s.isPinned ++ q.filter fun l => !s.isPinned l

/-- May a read that misses in the L3 go to its controller at once: an L2 supplies the line, or the L3 or the write queue
holds it, or no earlier read waits there (R204, R251)? DEDUCED: log 162. -/
def State.dramTurn (s : State) (line : Nat) : Bool :=
  s.l3has line || (Map.get noLines s.mcq (s.mcOf (line * 256))).contains line ||
  ((s.holders line).any fun c => let st := (s.l2l c line).st; st != .i && st != .s) ||
  (s.readQueue (s.mcOf (line * 256))).isEmpty

/-- May core `c`'s L2 begin a request for a line and have it served (R207)? -/
def State.mayAsk (s : State) (c line : Nat) : Bool :=
  s.clear c line && !s.asked c line && decide (s.l2Requests c < 64)

/-- A whole read transaction of one L2, from its request to its GrantAck, into a way that is there (R200, R201,
R204). -/
def State.readTxn (s : State) (kind : ReqKind) (c line : Nat) : State :=
  let rcm := decide (0 < s.rcm)
  let r := s.snoopAll (snpOf kind) rcm line ((s.holders line).filter (· ≠ c))
  let supplied := r.1.any fun x => match x.2 with
    | .data _ => true
    | _ => false
  let s2 := if kind = .upgrade then r.2 else if supplied then r.2.l3Use line false else r.2.l3Use line true
  s2.fill c line (fillState kind rcm r.1)

/-- The L2 that a request excludes from its snoop broadcast: the requester's own (R199); a
combining buffer's write reaches its own core too (R211). -/
def Req.core? (r : Req) : Option Nat :=
  match r.agent with
  | .core c => some c
  | _ => none

/-- A request becomes its line's active transaction: an Upgrade whose copy was lost is served as
RdOwn (R201), and the snoops are broadcast. An L2 in I answers RspI at once (DEDUCED, log 13). -/
def State.activate (s : State) (r : Req) (queue : List Req) : State :=
  let lost : Bool := match r.agent with
    | .core c => let st := (s.l2l c r.line).st; r.kind == .upgrade && st != .s && st != .f && st != .o
    | _ => false
  let r := if lost then { r with kind := .rdOwn } else r
  let ask := (s.holders r.line).filter fun c => some c != r.core?
  let wb := s.wbs.any fun w => w.line == r.line && w.accepted
  let t : Txn :=
    { req := r, rcm := decide (0 < s.rcm), toSnoop := ask, flying := [], atStop := [], got := [], wb := wb, filled := false,
      fetched := false, queue := queue }
  { s with txns := s.txns ++ [t] }

/-- Room for one more request in a slice's ingress buffer (R200). -/
def State.ingressRoom (s : State) (k : Nat) : Bool :=
  decide ((s.ingress.filter fun q => sliceOf q.line == k).length < 64)

/-- A request reaches its home: it is ordered at once, or waits in the conflict queue, or in the
ingress buffer; with the buffer full it waits at its ring stop (R200). -/
def State.order (s : State) (r : Req) : State :=
  let buffer := if s.ingressRoom (sliceOf r.line) then { s with ingress := s.ingress ++ [r] } else { s with atRing := s.atRing ++ [r] }
  match s.txn r.line with
  | some t =>
    if t.queue.length < 16 then
      { s with txns := s.txns.map fun u => if u.req.line = r.line then { u with queue := u.queue ++ [r] } else u }
    else buffer
  | none => if s.trackerFree r.line then s.activate r [] else buffer

/-- Does R208 let the L2 issue the next-line prefetch of line `n` for a demand access under a PID? `own`: the demand's
request, where it is not counted as outstanding. -/
def State.prefetchOk (s : State) (c pid n own : Nat) : Bool :=
  n % 16 != 0 && (s.l2l c n).st == .i && !s.asked c n && s.isDram (n * 256) && !bit (s.reg .potPfdis) pid &&
    decide (s.l2Requests c + own ≤ 56)

/-- Does the home drop a PrefRd for a line (R208, R215)? -/
def State.dropsPref (s : State) (n : Nat) : Bool :=
  (s.txn n).isSome || decide (224 < (s.txns.filter fun t => sliceOf t.req.line == sliceOf n).length) || s.poisoned n

/-- The next-line prefetch that goes with a demand miss (R208): whole where the other L2s can answer, else its request at the
home. Where no way is free for the line, a dirty line begins to leave and the prefetch is given up. DESIGN CHOICE: log 146. -/
def State.prefetchNext (s : State) (c pid line : Nat) : State :=
  let n := line + 1
  if !s.prefetchOk c pid n 1 || s.dropsPref n then s
  else if !s.clear c n || !s.dramTurn n then s.order ⟨.prefRd, .core c, n, []⟩
  else match s.way c n with
    | .ready s1 => s1.readTxn .prefRd c n
    | .wait => s
    | .dirty v => s.wbData c v

/-- Core `c`'s L2 gains a readable copy (or, with `excl`, exclusive ownership) of a line, and no other line with
it; none when the access must wait (R202, R207, R214). -/
def State.gain (s : State) (c line : Nat) (excl : Bool) : Option State :=
  match (s.l2l c line).st, excl with
  | .ep, _ => none
  | .m, _ => some s
  | .e, false => some s
  | .e, true => some (s.fill c line .m)
  | .i, _ =>
    if !s.mayAsk c line || !s.dramTurn line then none
    else match s.way c line with
      | .ready s1 => some (s1.readTxn (if excl then .rdOwn else .rdShared) c line)
      | _ => none
  | _, false => some s
  | _, true => if s.mayAsk c line then some (s.readTxn .upgrade c line) else none

/-- The dirty line of core `c` that must leave before an access to the line can go on, if that is what it waits
for (R207). -/
def State.inTheWay (s : State) (c line : Nat) : Option Nat :=
  if (s.l2l c line).st = .i && s.mayAsk c line then
    match s.way c line with
    | .dirty v => some v
    | _ => none
  else none

/-- A demand access: the line gained, and on a miss the prefetch of the next (R202, R208). -/
def State.acquire (s : State) (c pid line : Nat) (excl : Bool) : Option State :=
  match s.gain c line excl with
  | none => none
  | some s1 => some (if (s.l2l c line).st = .i then s1.prefetchNext c pid line else s1)

/-- A store of epoch `ep` into a line held in M or E: the line becomes M, reservations of it are lost, and the
write is logged (R76, R155, R202, R221, R380, R381). -/
def State.l2Write (s : State) (c a : Nat) (bs : List Byte) (ep : Nat := s.scn.epoch) : State :=
  let line := lineOf a
  let w := bs.mapIdx fun i b => (a % 256 + i, b)
  let s0 := ((if s.scn.closing = some ep then s else s.shipClosed c line).l1Store c line).savePre line ep
  let s1 := s0.setL2 c line { s0.l2l c line with st := .m }
  ((s1.wr a bs).storeSeen line w).dirtyNote c line ep w

/-! ## Non-caching agents (R210) -/

/-- The PID that a granule's POT entry names as owner, for a record (R143, R215). -/
def State.ownerPid (s : State) (a : Nat) : Nat :=
  if s.rf .potBase [] 0 0 = 1 then
    fld (s.homeRdD (s.rf .potBase [] 47 16 * 0x10000 + 8 * (a / 0x10000))) 63 58
  else 0

/-- Poisoned data read by a non-caching agent: record 0x0204 (R215). -/
def State.poisonRead (s : State) (line : Nat) : State :=
  if s.poisoned line then
    let k := sliceOf line
    s.fault (blkSlice k) clsContained 0x0204 (s.ownerPid (line * 256)) (line * 256)
  else s

/-- A write of a line's bytes by offset. -/
def State.wrOffsets (s : State) (line : Nat) (data : List (Nat × Byte)) : State :=
  data.foldl (fun s p => s.wrByte (line * 256 + p.1 % 256) p.2) s

/-- What acceptance of a non-caching write of epoch `ep` at the home does once every copy is gone; `full`: it is a WrInv,
which leaves no poison (R196, R210, R215, R217, R382). -/
def State.homeWrite (s : State) (line : Nat) (full : Bool) (w : List (Nat × Byte)) (ep : Nat := s.scn.epoch) : State :=
  let s1 := ((s.savePre line ep).wrOffsets line w).storeSeen line w
  let s2 := if full then s1.setPoison line false else s1
  ((s2.mcAccept line).l3Use line (s2.isPinned line)).homeRecEp line ep w

/-! ## Transactions message by message (R199-R214) -/

/-- Where a request enters: its stop on the hub ring (tile `t`'s die-to-die stop is stop `t`, hub blocks have stops 32-39)
and, for a core, its stop on the tile ring (R195). -/
def Agent.stops : Agent → Nat × Nat
  | .core c => (c / 14, c % 14)
  | .comb t => (t / 2 / 14, t / 2 % 14)
  | .hub n => (n, 14)

/-- Stops of a ring from its priority pointer to a stop, counting upward and cyclically. -/
def ringDist (stops ptr stop : Nat) : Nat := (stop + stops - ptr % stops) % stops

/-- Of requests offered in one hub cycle, the one that the priority pointers of the hub ring (40 stops) and of the tile
rings (15 stops) order first (R195, R213). -/
def ringFirst (hub tile : Nat) : List Req → Option Req
  | [] => none
  | r :: rs =>
    let key := fun (q : Req) => ringDist 40 hub q.agent.stops.1 * 15 + ringDist 15 tile q.agent.stops.2
    match ringFirst hub tile rs with
    | some q => if key q < key r then some q else some r
    | none => some r

/-- Of the requests for a slice that wait at their ring stops, the one that the pointers order first enters the ingress
buffer once it has room (R195, R200). Where the pointers stand is time's, so it is a free value (DESIGN CHOICE, log 166). -/
def State.ringNext (s : State) (k : Nat) : State :=
  if !s.ingressRoom k then s
  else
    let r := s.draw
    match ringFirst (fld r.1 15 0) (fld r.1 31 16) (s.atRing.filter fun q => sliceOf q.line == k) with
    | some q => { r.2 with atRing := s.atRing.erase q, ingress := s.ingress ++ [q] }
    | none => s

/-- The oldest request of a slice's ingress buffer proceeds if it now can (R200). -/
def State.ingressNext (s : State) (k : Nat) : State :=
  match s.ingress.find? fun q => sliceOf q.line == k with
  | none => s
  | some r =>
    let can : Bool := match s.txn r.line with
      | some t => decide (t.queue.length < 16)
      | none => s.trackerFree r.line
    if can then (({ s with ingress := s.ingress.erase r } : State).order r).ringNext k else s

/-- A transaction ends and the line's next queued request becomes active (R200). -/
def State.endTxn (s : State) (line : Nat) : State :=
  match s.txn line with
  | none => s
  | some t =>
    let s1 := { s with txns := s.txns.filter fun u => u.req.line != line }
    let s2 := match t.queue with
      | [] => s1
      | r :: rs => s1.activate r rs
    s2.ingressNext (sliceOf line)

def State.setTxn (s : State) (t : Txn) : State :=
  { s with txns := s.txns.map fun u => if u.req.line = t.req.line then t else u }

/-- Every snoop response is in, and a Gone-Writeback's data has arrived (R204, R212). -/
def Txn.complete (t : Txn) : Bool :=
  t.toSnoop.isEmpty && t.flying.isEmpty && t.atStop.isEmpty && (t.wb || !t.got.any fun r => r.2 == .goneWb)

/-- One L2 answers the snoop of the active transaction; a held snoop stays unanswered (R203,
R214). -/
def State.snoopRow (s : State) (ks : List Snp) (c line : Nat) : State :=
  match s.txn line with
  | none => s
  | some t =>
    let k := snpOf t.req.kind
    if k ∈ ks ∧ c ∈ t.toSnoop ∧ !s.holds c line then
      let a := s.snoopL2 k t.rcm c line
      a.2.setTxn { t with toSnoop := t.toSnoop.erase c, flying := t.flying ++ [(c, a.1)] }
    else s

/-- A response reaches the die-to-die stop of its tile. Once each L2 of the tile has answered, the tile's combined
response reaches the home (R199). -/
def Txn.reply (t : Txn) (r : Nat × Rsp) : Txn :=
  let tile := fun (c : Nat) => c / 14 == r.1 / 14
  let t1 := { t with flying := t.flying.erase r, atStop := t.atStop ++ [r] }
  if (t1.toSnoop.any tile) || t1.flying.any fun x => tile x.1 then t1
  else { t1 with
    got := t1.got ++ t1.atStop.filter fun x => tile x.1, atStop := t1.atStop.filter fun x => !tile x.1 }


/-- The requester's line filled in the state of the combined response, once it has a way (R198, R201, R207). -/
def State.fillTxn (s : State) (t : Txn) (c : Nat) (st : L2State) : State :=
  match s.fillWay c t.req.line st with
  | (some s1, _) => s1.setTxn { t with filled := true }
  | (none, s1) => s1

/-- A response in flight from core `c` reaches the home, if it is one of the kind named. The line that an L2
supplied is filled with the last response, which settles its state (R198, R201). -/
def State.respRow (s : State) (p : Rsp → Bool) (c line : Nat) : State :=
  match s.txn line with
  | none => s
  | some t =>
    match t.flying.find? fun r => r.1 == c && p r.2 with
    | none => s
    | some r =>
      let t' := t.reply r
      let s1 := s.setTxn t'
      match t.req.core? with
      | some q => if t'.complete && t'.supplied then s1.fillTxn t' q (fillState t.req.kind t.rcm t'.got) else s1
      | none => s1

/-- RDSHARED, RDOWN, UPGRADE: a request of an L2 that has the line in no state to hit, one for each line and at
most 64 at a time (R202, R207). -/
def coreReq (s : State) (kind : ReqKind) (c line : Nat) : State :=
  let st := (s.l2l c line).st
  let want : Bool := match kind with
    | .upgrade => st = .s || st = .f || st = .o
    | _ => st = .i
  if want && !s.asked c line && decide (s.l2Requests c < 64) && s.isDram (line * 256) then s.order ⟨kind, .core c, line, []⟩ else s

/-- A PrefRd reaches the home, which drops it and answers it with Cmp, or orders it (R199, R208, R215). -/
def prefReq (s : State) (c pid line : Nat) : State :=
  if !s.prefetchOk c pid line 0 then s
  else if s.dropsPref line then { s with prefCmp := s.prefCmp ++ [(c, line)] }
  else s.order ⟨.prefRd, .core c, line, []⟩

/-- The PID whose POT.PFDIS bit governs thread `thr` of core `c` (R208). -/
def State.prefPid (s : State) (c thr : Nat) : Nat := (s.thr (2 * c + thr)).cur.chkPid

/-- A demand request, which the prefetch of the next line goes with when it is issued (R208). -/
def demandReq (s : State) (kind : ReqKind) (c thr line : Nat) : State :=
  let s1 := coreReq s kind c line
  if !s.asked c line && s1.asked c line then prefReq s1 c (s.prefPid c thr) (line + 1) else s1

def execRdshared (c : CoreId) (thr : Bool) (line : Line) (s : State) : Host.Outcome State Fault Refusal :=
  .next (demandReq s .rdShared c thr.toNat line.toNat)

/-- The PrefRd of a demand access to the line before. -/
def execPrefrd (c : CoreId) (thr : Bool) (line : Line) (s : State) : Host.Outcome State Fault Refusal :=
  .next (prefReq s c (s.prefPid c thr.toNat) line.toNat)

def execRdown (c : CoreId) (thr : Bool) (line : Line) (s : State) : Host.Outcome State Fault Refusal :=
  .next (demandReq s .rdOwn c thr.toNat line.toNat)

def execUpgrade (c : CoreId) (line : Line) (s : State) : Host.Outcome State Fault Refusal :=
  .next (coreReq s .upgrade c line.toNat)

def hubStopNo : HubStop → Nat
  | .trellis => 32
  | .sieve => 33
  | .garnet => 34
  | .scion => 35
  | .pot => 36
  | .gatherer => 37
  | .power => 38
  | .coldframe => 39

def execRdonce (stop : HubStop) (line : Line) (s : State) : Host.Outcome State Fault Refusal :=
  .next (if s.isDram (line.toNat * 256) then s.order ⟨.rdOnce, .hub (hubStopNo stop), line.toNat, []⟩ else s)

def sourceAgent : WriteSource → Agent
  | .hub stop => .hub (hubStopNo stop)
  | .comb t => .comb t

/-- The bytes of a full line, with their offsets. -/
def lineData (bs : List Byte) : List (Nat × Byte) := (List.range 256).zip (fit 256 bs)

def execWrinv (src : WriteSource) (line : Line) (data : List Byte) (s : State) :
    Host.Outcome State Fault Refusal :=
  .next (if s.isDram (line.toNat * 256) then
    s.order ⟨.wrInv, sourceAgent src, line.toNat, lineData data⟩ else s)

def execWrinvpart (src : WriteSource) (line : Line) (data : List (BitVec 8 × Byte)) (s : State) :
    Host.Outcome State Fault Refusal :=
  .next (if s.isDram (line.toNat * 256) then
    s.order ⟨.wrInvPart, sourceAgent src, line.toNat, data.map fun p => (p.1.toNat, p.2)⟩ else s)

/-- A dirty line is replaced, unless its core must keep it (R88, R196, R200, R207, R381). -/
def execWbdata (c : CoreId) (line : Line) (s : State) : Host.Outcome State Fault Refusal :=
  .next (if s.keeps c line.toNat then s else s.wbData c line.toNat)

def execSnpshared (c : CoreId) (line : Line) (s : State) : Host.Outcome State Fault Refusal :=
  .next (s.snoopRow [.shared] c line.toNat)
def execSnpown (c : CoreId) (line : Line) (s : State) : Host.Outcome State Fault Refusal :=
  .next (s.snoopRow [.own, .part] c line.toNat)
def execSnpinv (c : CoreId) (line : Line) (s : State) : Host.Outcome State Fault Refusal :=
  .next (s.snoopRow [.inv] c line.toNat)
def execSnponce (c : CoreId) (line : Line) (s : State) : Host.Outcome State Fault Refusal :=
  .next (s.snoopRow [.once] c line.toNat)

/-- A hold that runs out is not repeated for its line until the L2 has answered one snoop for it (R214). -/
def Thread.holdEnd (t : Thread) : Thread :=
  { t with hold := none, spentHold := t.hold.toList ++ t.spentHold.filter fun l => t.hold != some l }

/-- 128 cycles after ownership was gained the hold ends (R214). The second iteration of a constrained loop takes less
(R78). DEDUCED: log 147. -/
def execSnoopHoldExpiry (t : ThreadId) (s : State) : Host.Outcome State Fault Refusal :=
  .next (if (s.thr t).loopSure then s else s.modThr t Thread.holdEnd)

def execRspi (c : CoreId) (line : Line) (s : State) : Host.Outcome State Fault Refusal :=
  .next (s.respRow (· == .i) c line.toNat)
def execRsps (c : CoreId) (line : Line) (s : State) : Host.Outcome State Fault Refusal :=
  .next (s.respRow (· == .s) c line.toNat)
def execRspdata (c : CoreId) (line : Line) (s : State) : Host.Outcome State Fault Refusal :=
  .next (s.respRow (fun r => r == .data true || r == .data false) c line.toNat)
def execRspdatawb (c : CoreId) (line : Line) (s : State) : Host.Outcome State Fault Refusal :=
  .next (s.respRow (· == .dataWb) c line.toNat)
def execRspgonewb (c : CoreId) (line : Line) (s : State) : Host.Outcome State Fault Refusal :=
  .next (s.respRow (· == .goneWb) c line.toNat)

/-- Does another L2 have the line in EP: its WbAck comes before the requester's copy (R198)? -/
def State.epElsewhere (s : State) (c line : Nat) : Bool :=
  (List.range 56).any fun k => k != c && (s.l2l k line).st == .ep

/-- Data from the home, when no L2 supplied the line: from the L3 or DRAM, a RspDataWb or a
write-back; a DRAM read allocates in the L3 (R196, R198, R204, R206). A line that an L2 supplied and that waited for
its way is filled by it too (R207). From DRAM it comes once the controller has read it (R251). -/
def execData (line : Line) (s : State) : Host.Outcome State Fault Refusal :=
  let l := line.toNat
  .next (match s.txn l with
  | none => s
  | some t =>
    match t.req.core? with
    | some c =>
      if t.complete && !t.filled && !s.wantsDram t && t.req.kind != .upgrade && !s.epElsewhere c l then
        (if t.supplied then s else s.l3Use l true).fillTxn t c (fillState t.req.kind t.rcm t.got)
      else s
    | none => s)

def execGrant (line : Line) (s : State) : Host.Outcome State Fault Refusal :=
  let l := line.toNat
  .next (match s.txn l with
  | none => s
  | some t =>
    match t.req.core? with
    | some c =>
      if t.complete && !t.filled && t.req.kind == .upgrade && !s.epElsewhere c l then
        (s.fill c l .m).setTxn { t with filled := true }
      else s
    | none => s)

def execWback (c : CoreId) (line : Line) (s : State) : Host.Outcome State Fault Refusal :=
  .next (s.wbAck c line.toNat)

/-- The combining-buffer line that a completed write carried leaves the buffer (R233). -/
def State.combDone (s : State) (a : Agent) (line : Nat) : State :=
  match a with
  | .comb t => (s.modThr t fun x => { x with cb := x.cb.filter fun l => l.line != line }).queueClose
  | _ => s

/-- The epoch of the write that an agent makes: that of its combining-buffer line, else the open one (R244, R382). -/
def State.agentEp (s : State) (a : Agent) (line : Nat) : Nat :=
  match a with
  | .comb t => (((s.thr t).cb.find? fun l => l.line == line).bind CbLine.ep).getD s.scn.epoch
  | _ => s.scn.epoch

/-- A transaction of a non-caching agent, all its responses in, served at the home: the write accepted, or the RdOnce
done (R200, R210). -/
def State.serveTxn (s : State) (t : Txn) : State :=
  let l := t.req.line
  let ep := s.agentEp t.req.agent l
  match t.req.kind with
  | .rdOnce => ((s.l3Use l (!t.supplied)).poisonRead l).endTxn l
  | .wrInv => ((s.homeWrite l true t.req.data ep).combDone t.req.agent l).endTxn l
  | .wrInvPart => ((s.homeWrite l false t.req.data ep).combDone t.req.agent l).endTxn l
  | _ => s

/-- Does a write wait at its home while the backlog is at T: Trellis's writes to pinned lines may raise it to the budget
(R377). DEDUCED: log 40. -/
def State.reqStalled (s : State) (r : Req) : Bool :=
  if r.agent == .hub (hubStopNo .trellis) && s.isPinned r.line then s.stalledC0 else s.stalled

/-- Cmp: it answers a dropped PrefRd, or ends the line's transaction (R199, R200, R210). A write that would raise the
backlog waits while it is at T (R377). -/
def execCmp (line : Line) (s : State) : Host.Outcome State Fault Refusal :=
  let l := line.toNat
  .next (
    if s.prefCmp.any fun x => x.2 == l then { s with prefCmp := s.prefCmp.filter fun x => x.2 != l }
    else match s.txn l with
      | none => s
      | some t => if t.complete && (t.req.kind == .rdOnce || !s.reqStalled t.req) then s.serveTxn t else s)

def execGrantack (line : Line) (s : State) : Host.Outcome State Fault Refusal :=
  .next (match s.txn line.toNat with
  | none => s
  | some t => if t.filled && t.complete then s.endTxn line.toNat else s)

/-! ## The combining buffer (R211, R233) -/

/-- Does a line stand in the combining buffer of thread `m`? -/
def State.inCb (s : State) (m line : Nat) : Option CbLine := (s.thr m).cb.find? fun l => l.line == line

/-- A combining-buffer line leaves as WrInv or WrInvPart (R211, R233); none while the home cannot
take it, or a store in it has not hardened. -/
def State.combLeave (s : State) (m : Nat) (l : CbLine) : Option State :=
  if !s.clear 56 l.line || s.stalled || l.stores.any (fun x => decide ((s.thr m).hseq < x.seq)) then none
  else
    let full := l.bytes.length = 256
    let s1 := (s.snoopAll (if full then Snp.inv else Snp.part) (decide (0 < s.rcm)) l.line (s.holders l.line)).2
    some ((s1.homeWrite l.line full l.bytes (l.ep.getD s.scn.epoch)).combDone (.comb m) l.line)

/-- Every combining-buffer line of the thread leaves, oldest first (R233). -/
def State.combLeaveAll (s : State) (m : Nat) : Option State :=
  (s.thr m).cb.foldl (fun r l => r.bind fun s => s.combLeave m l) (some s)

/-- Lines written whole leave once they have hardened (R233). DEDUCED: log 111. -/
def State.combFull (s : State) (m : Nat) : State :=
  ((s.thr m).cb.filter fun l => l.data.length == 256).foldl (fun s l => (s.combLeave m l).getD s) s

/-! ## Hardening (R138, R141, R142) -/

/-- Every retired group of a thread hardened, as it does within 12 cycles (R138); the group that a retry
restored ends the retry with it, and combining-buffer lines written whole leave, those that an epoch's close has
hardened among them (R233). -/
def State.hardenThr (s : State) (m : Nat) : State :=
  (if (s.thr m).groups.isEmpty then s else (s.modThr m Thread.hardenAll).hardened m).combFull m

/-- One entry written into the L2 (R232): all its stores, oldest first. -/
def State.drainEntry (s : State) (m : Nat) (e : SbEntry) : State :=
  let s1 := s.modThr m fun t => { t with sb := t.sb.erase e }
  (e.stores.foldl (fun s st => s.l2Write (m / 2) st.addr st.bytes st.ep) s1).queueClose

/-! ## What a hub block's own access meets (R200, R210, R214) -/

/-- The flags of descriptors that routines have still to write in a line are written (R88). -/
def State.descDone (s : State) (line : Nat) : State :=
  ((s.threads.filter fun p => p.2.descIn line).map Prod.fst).foldl (fun s m =>
    let s1 := s.hardenThr m
    ((s1.thr m).sb.filter fun e => !e.device && e.line == line).foldl (fun s e => s.drainEntry m e) s1) s

/-- Every hold of a line ends: that of a reservation runs out, and flags are written first. -/
def State.endHolds (s : State) (line : Nat) : State :=
  let off := fun (p : Nat × Thread) => (p.1, if p.2.hold = some line && !p.2.loopSure then p.2.holdEnd else p.2)
  let s1 := s.descDone line
  { s1 with threads := (s1.threads.map off).filter (fun p => p.2 != Thread.reset p.1) }

/-- The EP copies of a line acknowledged. -/
def State.ackAll (s : State) (line : Nat) : State := (s.holders line).foldl (fun s c => s.wbAck c line) s

/-- A way made for a line, whatever it takes: a dirty line in the way is written back and acknowledged. -/
def State.forceWay (s : State) (c line : Nat) : State :=
  match s.way c line with
  | .ready s1 => s1
  | .wait => ((s.l2Set c line).filter (· ≠ line)).foldl (fun s l => s.wbAck c l) s
  | .dirty v => s.evict c v

/-- The active transaction of a line run to its end. -/
def State.finishTxn (s : State) (line : Nat) (t : Txn) : State :=
  let r := (s.endHolds line).snoopAll (snpOf t.req.kind) t.rcm line t.toSnoop
  let t1 := { t with toSnoop := [], flying := [], atStop := [], got := t.got ++ t.atStop ++ t.flying ++ r.1 }
  match t.req.core? with
  | none => (r.2.setTxn t1).serveTxn t1
  | some c =>
    let s1 := r.2.ackAll line
    let s2 :=
      if t.filled then s1
      else
        let s3 := if t.req.kind = .upgrade ∨ t1.supplied then s1 else s1.l3Use line true
        (s3.forceWay c line).fill c line (fillState t.req.kind t.rcm t1.got)
    s2.endTxn line

/-- Every request that waits for a line before now, ordered or on its way, runs to its end, oldest first. -/
def State.lineTurn (line : Nat) : Nat → State → State
  | 0, s => s
  | n + 1, s =>
    match s.txn line with
    | some t => State.lineTurn line n (s.finishTxn line t)
    | none => match (s.ingress ++ s.atRing).find? fun r => r.line == line with
      | some r => State.lineTurn line n (({ s with ingress := s.ingress.erase r, atRing := s.atRing.erase r } : State).activate r [])
      | none => s

/-- Transactions of the line's slice run to their end until it has a tracker free for it (R200). -/
def State.trackerTurn (line : Nat) : Nat → State → State
  | 0, s => s
  | n + 1, s =>
    if s.trackerFree line then s
    else match s.txns.find? fun t => sliceOf t.req.line == sliceOf line && (s.sureCore t.req.line).isNone with
      | some t => State.trackerTurn line n (s.finishTxn t.req.line t)
      | none => s

/-- A hub block's access to a line has its turn: after every earlier request for it, with its holds run out. Where the
iteration of a constrained loop that completes holds the line, it goes before the requests that wait for that (R78). DESIGN
CHOICE: log 14. -/
def State.turn (s : State) (line : Nat) : State :=
  if (s.sureCore line).isSome then s else (State.lineTurn line 256 (State.trackerTurn line 1024 s)).endHolds line

/-- RdOnce of one line, whole (R204, R210). -/
def State.hubTouch (s : State) (line : Nat) : State :=
  let s := s.turn line
  let r := s.snoopAll .once (decide (0 < s.rcm)) line (s.holders line)
  (r.2.l3Use line (r.1.all fun x => x.2 == .i || x.2 == .s)).poisonRead line

/-- The lines that `n` bytes from `a` on touch. -/
def linesOf (a n : Nat) : List Nat :=
  if n = 0 then [] else (List.range (lineOf (a + n - 1) - lineOf a + 1)).map (lineOf a + ·)

/-- A hub block's read of `n` bytes, in its turn: the data, whether any of it is poisoned, and the state after. DEDUCED:
DESIGN CHOICE, log 14. -/
def State.hubRead (s : State) (a n : Nat) : List Byte × Bool × State :=
  let ls := linesOf a n
  let s1 := ls.foldl State.hubTouch s
  (s1.rd a n, ls.any s1.poisoned, s1)

/-- The doubleword a hub block reads. -/
def State.hubRdD (s : State) (a : Nat) : W64 × State := let r := s.hubRead a 8; (BitVec.ofNat 64 (ofBytes r.1), r.2.2)

/-- WrInv or WrInvPart of bytes within one line, whole (R210). -/
def State.hubWriteLine (s : State) (a : Nat) (bs : List Byte) : State :=
  let line := lineOf a
  let k := if bs.length = 256 then Snp.inv else Snp.part
  let s := s.turn line
  let ask := (s.holders line).filter fun c => s.sureCore line != some c
  (s.snoopAll k (decide (0 < s.rcm)) line ask).2.homeWrite line (bs.length = 256) (bs.mapIdx fun i b => (a % 256 + i, b))

/-- A hub block's write, one request for each line it touches. -/
def hubWriteAux (s : State) (a : Nat) : Nat → List Byte → State
  | 0, _ => s
  | k + 1, bs =>
    let n := 256 - a % 256
    hubWriteAux (s.hubWriteLine a (bs.take n)) (a + n) k (bs.drop n)

def State.hubWrite (s : State) (a : Nat) (bs : List Byte) : State :=
  hubWriteAux s a (linesOf a bs.length).length bs

def State.hubWrD (s : State) (a : Nat) (v : W64) : State := s.hubWrite a (toBytes 8 v.toNat)

end Sys2Proof.Machine
end

