-- ==== Sys2Proof/Machine/Hash.lean ====
section
/-! DEFINITION. SHA-2, SHA-3, HMAC and ECDSA P-384 verification (16 R432; FIPS 180-4, FIPS 202,
FIPS 198-1, FIPS 186-4). -/

namespace Sys2Proof.Machine

/-! ## SHA-2 -/

def isPrime (n : Nat) : Bool := decide (2 ≤ n) && (List.range n).all fun d => decide (d < 2) || n % d != 0

/-- The first 80 primes. -/
def primes : List Nat := (List.range 410).filter isPrime

/-- The largest `r` below 2^`b` with `r`^`e` ≤ `n`. -/
def rootBits (e n : Nat) : Nat → Nat → Nat
  | 0, r => r
  | b + 1, r => rootBits e n b (if (r + 2 ^ b) ^ e ≤ n then r + 2 ^ b else r)

/-- The first `w` bits of the fraction of the `e`-th root of `p`. -/
def rootFrac (w e p : Nat) : Nat := rootBits e (p * 2 ^ (e * w)) (w + 5) 0 % 2 ^ w

/-- The word size and rotation amounts of SHA-256 and of SHA-512. -/
structure Sha2 where
  w : Nat
  rounds : Nat
  big0 : List Nat
  big1 : List Nat
  small0 : List Nat
  small1 : List Nat
  deriving DecidableEq, Repr

def sha2x32 : Sha2 := ⟨32, 64, [2, 13, 22], [6, 11, 25], [7, 18, 3], [17, 19, 10]⟩
def sha2x64 : Sha2 := ⟨64, 80, [28, 34, 39], [14, 18, 41], [1, 8, 7], [19, 61, 6]⟩

def rotrN (w x n : Nat) : Nat := x / 2 ^ n + x % 2 ^ n * 2 ^ (w - n)
def at3 (l : List Nat) (i : Nat) : Nat := (l[i]?).getD 0
def bigSigma (c : Sha2) (r : List Nat) (x : Nat) : Nat :=
  rotrN c.w x (at3 r 0) ^^^ rotrN c.w x (at3 r 1) ^^^ rotrN c.w x (at3 r 2)
def smallSigma (c : Sha2) (r : List Nat) (x : Nat) : Nat :=
  rotrN c.w x (at3 r 0) ^^^ rotrN c.w x (at3 r 1) ^^^ (x / 2 ^ at3 r 2)

/-- The message schedule, newest word first. -/
def schedule (c : Sha2) : Nat → List Nat → List Nat
  | 0, ws => ws
  | n + 1, ws =>
    schedule c n (((smallSigma c c.small1 (at3 ws 1) + at3 ws 6 + smallSigma c c.small0 (at3 ws 14) + at3 ws 15)
      % 2 ^ c.w) :: ws)

def round2 (c : Sha2) (h : List Nat) (kw : Nat) : List Nat :=
  match h with
  | [a, b, d, e, f, g, i, j] =>
    let ch := (f &&& g) ^^^ ((2 ^ c.w - 1 - f) &&& i)
    let maj := (a &&& b) ^^^ (a &&& d) ^^^ (b &&& d)
    let t1 := j + bigSigma c c.big1 f + ch + kw
    let t2 := bigSigma c c.big0 a + maj
    [(t1 + t2) % 2 ^ c.w, a, b, d, (e + t1) % 2 ^ c.w, f, g, i]
  | _ => h

def block2 (c : Sha2) (ks h : List Nat) (b : List Byte) : List Nat :=
  let ws := (schedule c (c.rounds - 16) ((chunks (c.w / 8) b).map ofBytes).reverse).reverse
  let r := ((ks.zipWith (· + ·) ws).foldl (round2 c) h)
  h.zipWith (fun x y => (x + y) % 2 ^ c.w) r

/-- The padded message. -/
def pad2 (c : Sha2) (m : List Byte) : List Byte :=
  let bl := 2 * c.w
  let lb := c.w / 4
  m ++ [0x80] ++ List.replicate ((2 * bl - 1 - lb - m.length % bl) % bl) 0 ++ toBytes lb (8 * m.length)

def sha2 (c : Sha2) (iv : List Nat) (m : List Byte) : List Byte :=
  let ks := (primes.take c.rounds).map (rootFrac c.w 3)
  ((chunks (2 * c.w) (pad2 c m)).foldl (block2 c ks) iv).flatMap (toBytes (c.w / 8))

def sha256 (m : List Byte) : List Byte := sha2 sha2x32 ((primes.take 8).map (rootFrac 32 2)) m
def sha512 (m : List Byte) : List Byte := sha2 sha2x64 ((primes.take 8).map (rootFrac 64 2)) m
def sha384 (m : List Byte) : List Byte :=
  (sha2 sha2x64 (((primes.drop 8).take 8).map (rootFrac 64 2)) m).take 48

/-! ## SHA-3 -/

/-- The round-constant bits, one LFSR step after another. -/
def lfsrBits : Nat → Nat → List Bool
  | 0, _ => []
  | n + 1, r =>
    let s := 2 * r
    decide (r % 2 = 1) :: lfsrBits n (if s < 256 then s else (s - 256) ^^^ 0x71)

def roundConst (ir : Nat) : W64 :=
  let bs := (lfsrBits (7 * (ir + 1)) 1).drop (7 * ir)
  (List.range 7).foldl (fun c j => if (bs[j]?).getD false then setBit c (2 ^ j - 1) true else c) 0

def lane (a : List W64) (x y : Nat) : W64 := (a[x % 5 + 5 * (y % 5)]?).getD 0

/-- Rho offsets: the walk (x, y) → (y, 2x + 3y), by lane index. -/
def rhoWalk : Nat → Nat → Nat → Nat → List (Nat × Nat)
  | 0, _, _, _ => []
  | n + 1, t, x, y => (x + 5 * y, (t + 1) * (t + 2) / 2 % 64) :: rhoWalk n (t + 1) y ((2 * x + 3 * y) % 5)

def rhoOff (i : Nat) : Nat := match (rhoWalk 24 0 1 0).find? fun p => p.1 == i with
  | some p => p.2
  | none => 0

def keccakRound (a : List W64) (ir : Nat) : List W64 :=
  let col := (List.range 5).map fun x => lane a x 0 ^^^ lane a x 1 ^^^ lane a x 2 ^^^ lane a x 3 ^^^ lane a x 4
  let d := (List.range 5).map fun x =>
    (col[(x + 4) % 5]?).getD 0 ^^^ ((col[(x + 1) % 5]?).getD 0).rotateLeft 1
  let a1 := a.mapIdx fun i v => (v ^^^ (d[i % 5]?).getD 0).rotateLeft (rhoOff i)
  let b := (List.range 25).map fun i => lane a1 (i % 5 + 3 * (i / 5)) (i % 5)
  let a2 := (List.range 25).map fun i =>
    lane b (i % 5) (i / 5) ^^^ (~~~ lane b (i % 5 + 1) (i / 5) &&& lane b (i % 5 + 2) (i / 5))
  a2.mapIdx fun i v => if i = 0 then v ^^^ roundConst ir else v

def keccakF (a : List W64) : List W64 := (List.range 24).foldl keccakRound a

/-- SHA3 with a digest of `n` bytes. -/
def sha3 (n : Nat) (m : List Byte) : List Byte :=
  let rate := 200 - 2 * n
  let z := rate - m.length % rate
  let p := if z = 1 then [0x86] else [0x06] ++ List.replicate (z - 2) 0 ++ [0x80]
  let leWord := fun (b : List Byte) => BitVec.ofNat 64 (ofBytes b.reverse)
  let st := (chunks rate (m ++ p)).foldl (fun a b =>
    keccakF (a.zipWith (· ^^^ ·) ((chunks 8 (fit 200 b)).map leWord))) (List.replicate 25 0)
  (st.flatMap fun w => (toBytes 8 w.toNat).reverse).take n

/-! ## HMAC -/

def hmac (h : List Byte → List Byte) (block : Nat) (key m : List Byte) : List Byte :=
  let k := fit block (if block < key.length then h key else key)
  h (k.map (· ^^^ 0x5C) ++ h (k.map (· ^^^ 0x36) ++ m))

def hmac256 (key m : List Byte) : List Byte := hmac sha256 64 key m
def hmac384 (key m : List Byte) : List Byte := hmac sha384 128 key m
def hmac512 (key m : List Byte) : List Byte := hmac sha512 128 key m

/-- The digests of GOP 0x60 to 0x64. -/
def shaOf (gop : Nat) (m : List Byte) : List Byte :=
  if gop = 0x60 then sha256 m else if gop = 0x61 then sha384 m else if gop = 0x62 then sha512 m
  else if gop = 0x63 then sha3 32 m else sha3 64 m

/-- The MACs of GOP 0x70 to 0x72 and 0x78 to 0x7A. -/
def hmacOf (gop : Nat) (key m : List Byte) : List Byte :=
  if gop % 8 = 0 then hmac256 key m else if gop % 8 = 1 then hmac384 key m else hmac512 key m

/-! ## ECDSA over P-384 -/

def p384 : Nat := 2 ^ 384 - 2 ^ 128 - 2 ^ 96 + 2 ^ 32 - 1
def p384b : Nat :=
  0xb3312fa7e23ee7e4988e056be3f82d19181d9c6efe8141120314088f5013875ac656398d8a2ed19d2a85c8edd3ec2aef
def p384n : Nat :=
  0xffffffffffffffffffffffffffffffffffffffffffffffffc7634d81f4372ddf581a0db248b0a77aecec196accc52973
def p384gx : Nat :=
  0xaa87ca22be8b05378eb1c71ef320ad746e1d3b628ba79b9859f741e082542a385502f25dbf55296c3a545e3872760ab7
def p384gy : Nat :=
  0x3617de4a96262c6f5d9e98bf9292dc29f8f41dbd289a147ce9da3113b5f0b8c00a60b1ce1d7e819d7a431d7c90ea0e5f

def powGo (m : Nat) (b e : Nat) : Nat → Nat → Nat
  | 0, acc => acc
  | k + 1, acc => powGo m b e k (if (e / 2 ^ k) % 2 = 1 then acc * acc % m * b % m else acc * acc % m)

/-- `b`^`e` modulo `m`, for `e` below 2^384. -/
def powMod (m b e : Nat) : Nat := powGo m b e 384 1
def invMod (m a : Nat) : Nat := powMod m a (m - 2)

/-- A point in Jacobian coordinates; Z = 0 is the neutral element. -/
structure Pt where
  x : Nat
  y : Nat
  z : Nat
  deriving DecidableEq, Repr

def subP (a b : Nat) : Nat := (a + p384 - b % p384) % p384

def Pt.dbl (p : Pt) : Pt :=
  let yy := p.y * p.y % p384
  let s := 4 * p.x * yy % p384
  let zz := p.z * p.z % p384
  let m := 3 * (subP p.x zz * ((p.x + zz) % p384)) % p384
  let x := subP (m * m % p384) (2 * s)
  ⟨x, subP (m * subP s x % p384) (8 * yy * yy), 2 * p.y * p.z % p384⟩

def Pt.add (p q : Pt) : Pt :=
  if p.z = 0 then q else if q.z = 0 then p
  else
    let z1 := p.z * p.z % p384
    let z2 := q.z * q.z % p384
    let u1 := p.x * z2 % p384
    let u2 := q.x * z1 % p384
    let s1 := p.y * z2 % p384 * q.z % p384
    let s2 := q.y * z1 % p384 * p.z % p384
    if u1 = u2 then (if s1 = s2 then p.dbl else ⟨1, 1, 0⟩)
    else
      let h := subP u2 u1
      let r := subP s2 s1
      let h2 := h * h % p384
      let h3 := h2 * h % p384
      let v := u1 * h2 % p384
      let x := subP (subP (r * r % p384) h3) (2 * v)
      ⟨x, subP (r * subP v x % p384) (s1 * h3), p.z * q.z % p384 * h % p384⟩

def mulGo (p : Pt) (k : Nat) : Nat → Pt → Pt
  | 0, acc => acc
  | n + 1, acc => mulGo p k n (if (k / 2 ^ n) % 2 = 1 then acc.dbl.add p else acc.dbl)

def Pt.mul (p : Pt) (k : Nat) : Pt := mulGo p k 384 ⟨1, 1, 0⟩

/-- The affine x coordinate. -/
def Pt.affX (p : Pt) : Nat := let i := invMod p384 p.z; p.x * (i * i % p384) % p384

def onCurve (x y : Nat) : Bool :=
  decide (x < p384) && decide (y < p384) &&
  (y * y) % p384 == (x * x % p384 * x + (p384 - 3) * x + p384b) % p384

/-- Does (r, s) verify over a 48-byte digest under the key (qx, qy)? -/
def ecdsaVerify (qx qy r s : Nat) (digest : List Byte) : Bool :=
  if r = 0 || s = 0 || decide (p384n ≤ r) || decide (p384n ≤ s) || !onCurve qx qy then false
  else
    let e := ofBytes digest
    let w := invMod p384n s
    let g : Pt := ⟨p384gx, p384gy, 1⟩
    let q : Pt := ⟨qx, qy, 1⟩
    let t := (g.mul (e * w % p384n)).add (q.mul (r * w % p384n))
    t.z != 0 && t.affX % p384n == r

end Sys2Proof.Machine
end

