-- ==== Sys2Proof/Machine/KeyStore.lean ====
section
/-! DEFINITION. Garnet's key slots, hardware IVs and key store (16 R435-R442, R454). -/

namespace Sys2Proof.Machine

def State.modGnt (s : State) (f : Gnt → Gnt) : State := { s with gnt := f s.gnt }

def State.slot (s : State) (n : Nat) : KeySlot := Map.get KeySlot.empty s.gnt.slots n

/-! ## The store (R439) -/

def deviceKeyBytes : List Byte := toBytes 32 Config.deviceKey

def State.ksBase (s : State) : Nat := s.rf .gntKsbase [] 47 20 * 2 ^ 20

/-- The plaintext of a slot record; the layout is the model's (DESIGN CHOICE, log 28). -/
def KeySlot.plain (k : KeySlot) : List Byte :=
  dwords [k.attr, pack [(63, 62, k.st), (61, 61, k.fresh.toNat), (31, 31, k.pairId.toNat), (30, 0, k.inst)], BitVec.ofNat 64 k.ceil,
    BitVec.ofNat 64 k.set] ++ fit 128 k.key

/-- Key bytes of a type (R436). -/
def keyLen (attr : W64) : Nat :=
  match fld attr 63 60 with
  | 1 => 16
  | 2 => 32
  | 3 => 32
  | 4 => 64
  | 5 => 8 * fld attr 39 32
  | 6 => 32
  | _ => 0

/-- A slot from a record's plaintext: it resumes at the ceiling (R442). -/
def KeySlot.ofPlain (p : List Byte) : KeySlot :=
  let w := dwordAt p 8
  let ceil := (dwordAt p 16).toNat
  { st := fld w 63 62, attr := dwordAt p 0, key := (p.drop 32).take (keyLen (dwordAt p 0)),
    set := (dwordAt p 24).toNat, inst := fld w 30 0, pairId := bit w 31, counter := ceil, ceil := ceil,
    fresh := bit w 61 }

/-- A slot changed on chip and in the store, encrypted under the key-store key (R439). -/
def State.putSlot (s : State) (n : Nat) (k : KeySlot) : State :=
  let s1 := s.modGnt fun g => { g with slots := Map.set KeySlot.empty g.slots n k }
  if s.rf .gntKsbase [] 0 0 = 0 then s1
  else
    let d := s1.drawBytes 12
    let c := gcmEnc s.gnt.ksk d.1 [] k.plain
    d.2.hubWrite (s.ksBase + 256 * n) (fit 256 (d.1 ++ c.1 ++ c.2))

/-- Bytes of the store within one line as Garnet reads them, or none where the line is uncorrectable (R455). -/
def State.ksRead (s : State) (a n : Nat) : Option (List Byte) := if s.homePoison (a / 256) then none else some (s.homeRd a n)

/-- Slot `n` as its record in memory holds it; none where the record cannot be read or does not open. -/
def State.readSlot (s : State) (ksk : List Byte) (n : Nat) : Option KeySlot :=
  (s.ksRead (s.ksBase + 256 * n) 256).bind fun r => (gcmDec ksk (r.take 12) [] ((r.drop 12).take 160) ((r.drop 172).take 16)).map KeySlot.ofPlain

/-- Is a pairing key provisioned, with pairing enabled (R439)? -/
def State.copyB (s : State) : Bool :=
  s.rf .scnCtl [] 0 0 == 1 && s.scn.key.any (· != 0)

/-- Both copies of the key-store key written under the current keys. -/
def State.writeKsk (s : State) : State :=
  let h := s.ksBase + 2 ^ 20
  let s1 := s.hubWrite h (kwWrap deviceKeyBytes s.gnt.ksk)
  if s.copyB then s1.hubWrite (h + 0x100) (kwWrap (Config.pairingKek s.scn.key) s.gnt.ksk)
  else s1.hubWrite (h + 0x100) (List.replicate 40 0)

/-- Is slot `n` in the range of partition `p` (R435)? -/
def State.inRange (s : State) (p n : Nat) : Bool :=
  let b := s.rf .gntPslot [p] 11 0
  decide (b ≤ n) && decide (n < b + s.rf .gntPslot [p] 44 32)

/-- The partition whose range holds a slot (R435). -/
def State.slotPid (s : State) (n : Nat) : Option Nat := (List.range 49).find? fun p => s.inRange p n

/-- Every slot as the store holds it under a recovered key. A record that does not open leaves its
slot EMPTY and is recorded against the slot's partition (R455). DEDUCED: log 143. -/
def State.loadSlots (s : State) (fresh : Bool) : State :=
  let rs := (List.range 4096).map fun n => (n, s.readSlot s.gnt.ksk n)
  let ks := rs.filterMap fun r => r.2.map fun k => (r.1, { k with fresh := (fresh || k.fresh) && k.st == 1 })
  let s1 := s.modGnt fun g => { g with slots := ks.filter fun p => p.2 ≠ KeySlot.empty 0 }
  (rs.filter fun r => r.2.isNone).foldl (fun s r => s.fault blkGarnet clsContained 0x0904 ((s.slotPid r.1).getD 0) 0) s1

/-- The key-store key recovered from copy A or, failing that, from copy B. -/
def State.recoverKsk (s : State) : Option (List Byte) :=
  let h := s.ksBase + 2 ^ 20
  match (s.ksRead h 40).bind (kwUnwrap deviceKeyBytes) with
  | some k => some k
  | none => (s.ksRead (h + 0x100) 40).bind (kwUnwrap (Config.pairingKek s.scn.key))

/-- What setting GNT.KSBASE.EN does (R439). `warm`: the last module reset was a warm one. -/
def State.enableKeyStore (s : State) (warm : Bool) : State :=
  match s.recoverKsk with
  | some k => ((s.modGnt fun g => { g with ksk := k }).loadSlots false).writeKsk
  | none =>
    let d := s.drawBytes 32
    let s1 := d.2.modGnt fun g => { g with ksk := d.1, slots := [] }
    let s2 := (List.range 4096).foldl (fun s n => s.putSlot n (KeySlot.empty n)) s1
    let s3 := s2.writeKsk
    if warm then s3.fault blkGarnet clsCorrected 0x0906 0 0 else s3

/-! ## Slots and IVs -/

/-- The slot types that a GOP needs, and the usage bit (R432, R436). -/
def gopTypes (gop : Nat) : List Nat :=
  if gop < 0x40 then [1, 2] else if gop < 0x50 then [3, 4] else if gop < 0x60 then [6] else [5]
def gopUse (gop : Nat) : Nat :=
  if gop = 0x10 ∨ gop = 0x20 ∨ gop = 0x30 ∨ gop = 0x40 ∨ (0x70 ≤ gop ∧ gop ≤ 0x72) then 55 else 54

/-- Does a GOP need a new IV (R440)? -/
def gopIv (gop : Nat) : Bool := gop == 0x10 || gop == 0x20 || gop == 0x30

/-- May partition `p`'s set use slot `n` for a GOP (R437)? Zero, or the status of R450. `cont`: a later
part of a chain, which needs no new IV. -/
def State.keyStatus (s : State) (p set n gop : Nat) (inline cont : Bool) : Nat :=
  let k := s.slot n
  if !s.inRange p n then 0x10
  else if k.st = 0 then 0x12
  else if set ≠ 0 ∧ k.set ≠ set then 0x10
  else if !(gopTypes gop).contains (fld k.attr 63 60) || !bit k.attr (gopUse gop) || (inline && !bit k.attr 51) then 0x11
  else if k.st = 2 && gopIv gop && !cont then 0x13
  else 0

/-- The next instance value; none when the counter is exhausted (R441). -/
def State.drawInst (s : State) : Option Nat × State :=
  if 2 ^ 31 ≤ s.gnt.inst then (none, s)
  else (some s.gnt.inst, s.modGnt fun g => { g with inst := g.inst + 1 })

/-- PAIR_ID as drawn instances carry it (R440). -/
def State.pairBit (s : State) : Bool := s.rf .scnCtl [] 0 0 == 1 && s.pins.pairId

def ivLimit (attr : W64) : Nat := let l := fld attr 47 40; 2 ^ (if l = 0 then 32 else l)

/-- A slot that needs a fresh instance draws one, or becomes RETIRED (R441). -/
def State.refresh (s : State) (n : Nat) : State :=
  let k := s.slot n
  if !k.fresh then s
  else match s.drawInst with
    | (some i, s') =>
      s'.putSlot n { k with inst := i, pairId := s.pairBit, counter := 0, ceil := 0, fresh := false }
    | (none, s') => s'.putSlot n { k with st := 2, fresh := false }

/-- The slot's next IV, or none where the slot is RETIRED (R440-R442). -/
def State.drawIv (s : State) (n : Nat) : Option (List Byte) × State :=
  let s1 := s.refresh n
  let k := s1.slot n
  if k.st ≠ 1 ∨ ivLimit k.attr ≤ k.counter then (none, s1.putSlot n { k with st := 2 })
  else
    let iv := toBytes 12 (k.pairId.toNat * 2 ^ 95 + k.inst * 2 ^ 64 + k.counter)
    let k1 := { k with
      counter := k.counter + 1, ceil := if k.ceil ≤ k.counter then k.ceil + 65536 else k.ceil,
      st := if ivLimit k.attr ≤ k.counter + 1 then 2 else 1 }
    let s2 := s1.modGnt fun g => { g with slots := Map.set KeySlot.empty g.slots n k1 }
    (some iv, if k1.ceil = k.ceil ∧ k1.st = 1 then s2 else s1.putSlot n k1)

/-- Attributes that a slot can be loaded with (R436). -/
def attrOk (a : W64) : Bool :=
  let ty := fld a 63 60
  let l := fld a 47 40
  decide (1 ≤ ty) && decide (ty ≤ 6) && fld a 59 56 == 0 && fld a 50 48 == 0 && fld a 31 0 == 0 &&
  (l == 0 || decide (16 ≤ l) && decide (l ≤ 64)) &&
  (if ty = 5 then decide (1 ≤ fld a 39 32) && decide (fld a 39 32 ≤ 16) else fld a 39 32 == 0) &&
  (ty == 6 || !bit a 53)

/-- Slots bound to a set (R437). -/
def State.bound (s : State) (set : Nat) : Nat := (s.gnt.slots.filter fun p => p.2.st != 0 && p.2.set == set).length

/-! ## GNT.PSLOT (R435, R454) -/

/-- Would the range overlap another partition's, or run past the last slot? -/
def State.pslotBad (s : State) (p base count : Nat) : Bool :=
  decide (4096 < base + count) ||
  (count != 0 && (List.range 49).any fun q =>
    let b := s.rf .gntPslot [q] 11 0
    let c := s.rf .gntPslot [q] 44 32
    q != p && q != 0 && c != 0 && decide (b < base + count) && decide (base < b + c))

def State.writePslot (s : State) (p : Nat) (v : W64) : State :=
  let base := fld v 11 0
  let count := fld v 44 32
  if p = 0 ∨ 48 < p ∨ s.pslotBad p base count then s
  else
    let ob := s.rf .gntPslot [p] 11 0
    let gone := ((List.range (s.rf .gntPslot [p] 44 32)).map (ob + ·)).filter fun n =>
      !(decide (base ≤ n) && decide (n < base + count)) && s.slot n != KeySlot.empty n
    (gone.foldl (fun s n => s.putSlot n (KeySlot.empty n)) s).setReg .gntPslot [p]
      (pack [(44, 32, count), (11, 0, base)])

end Sys2Proof.Machine
end

