-- ==== Sys2Proof/Machine/Translate.lean ====
section
/-! DEFINITION. Address translation, translation caches and ownership checks of core accesses
(07 R157-R171). -/

namespace Sys2Proof.Machine

/-- An exception that an instruction raises (R52), with what SR.ECAUSE adds (R49). -/
structure Exc where
  code : Nat
  addr : Nat
  stg : Nat
  wr : Bool
  wf : Bool
  /-- It arose in the fill of an ERET. -/
  rf : Bool := false
  deriving DecidableEq, Repr

/-- Why an instruction does not complete: an exception; a poisoned line consumed (its line, R215);
a wait, after which the same command may be sent again; such a wait for a way, which a dirty line of core `core`
must leave first (R207); or a wait for the Scion backlog, which is counted (R377). -/
inductive Halt where
  | exc (e : Exc) (s : State)
  | poison (line : Nat) (s : State)
  | wait
  | evict (core line : Nat)
  | stall

/-- The wait of an access of core `c` that the L2 could not serve. -/
def State.waits (s : State) (c line : Nat) : Halt :=
  match s.inTheWay c line with
  | some v => .evict c v
  | none => .wait

abbrev R (α : Type) := Except Halt α

/-- Kinds of access (R162). -/
inductive Acs where
  | read | write | fetch
  deriving DecidableEq, Repr

def mkExc (code addr : Nat) : Exc := ⟨code, addr, 0, false, false, false⟩

/-! ## Page ownership (R169-R173, R176) -/

/-- The POT entry of an address (R169). -/
def State.potEntry (s : State) (a : Nat) : W64 :=
  s.homeRdD (s.rf .potBase [] 47 16 * 0x10000 + 8 * (a / 0x10000))

/-- Where the entry of granule `g` lies (R169). -/
def State.potAt (s : State) (g : Nat) : Nat := s.rf .potBase [] 47 16 * 0x10000 + 8 * g

/-- The entry of granule `g` in the POT cache. -/
def State.potCached (s : State) (g : Nat) : Option W64 :=
  ((Map.get noEntries s.potc (g % 4096)).find? fun e => e.1 == g).map Prod.snd

/-- The entry of granule `g` as a check of core `c`, or of a hub block, sees it: in the core's granule check cache, in
the POT cache, or in the table; none where the table cannot be read (R170, R173). -/
def State.potSeen (s : State) (c : Option Nat) (g : Nat) : Option W64 :=
  let own := match c with
    | some k => (((s.core k).grc).find? fun e => e.1 == g).map Prod.snd
    | none => none
  match own, s.potCached g with
  | some e, _ => some e
  | none, some e => some e
  | none, none => if s.homePoison (lineOf (s.potAt g)) then none else some (s.homeRdD (s.potAt g))

/-- One entry into its set of the POT cache (R170). -/
def State.potPut (s : State) (g : Nat) : State :=
  let l := (Map.get noEntries s.potc (g % 4096)).filter fun e => e.1 != g
  let r := s.roomed 16 (g, s.homeRdD (s.potAt g)) l
  { r.2 with potc := Map.set noEntries r.2.potc (g % 4096) r.1 }

/-- What a check leaves in the caches: on a POT cache miss the 32 entries of one line of the table, and the entry
in the core's granule check cache (R170). -/
def State.potFill (s : State) (c : Option Nat) (a : Nat) : State :=
  let g := a / 0x10000
  if !s.isDram a || s.rf .potBase [] 0 0 == 0 then s
  else match s.potSeen c g with
    | none => s
    | some e =>
      let have_ := match c with
        | some k => (s.core k).grc.any fun x => x.1 == g
        | none => false
      let s1 := if have_ || (s.potCached g).isSome then s
        else ((List.range 32).map (g / 32 * 32 + ·)).foldl State.potPut s
      match c with
      | none => s1
      | some k =>
        if have_ then s1
        else
          let r := s1.roomed 512 (g, e) (s1.core k).grc
          r.2.modCore k fun x => { x with grc := r.1 }

/-- Granules `first` up to `last` leave the POT cache: its unit writes their entries (R176). -/
def State.potForget (s : State) (first last : Nat) : State :=
  let keep := fun (e : Nat × W64) => !(decide (first ≤ e.1) && decide (e.1 ≤ last))
  { s with potc := (s.potc.map fun p => (p.1, p.2.filter keep)).filter (fun p => !p.2.isEmpty) }

/-- POT states (R169). -/
def potOwned : Nat := 1
def potWindow : Nat := 2
def potShared : Nat := 3
def potScrub : Nat := 4
def potModule : Nat := 5

/-- The table of R171 for one entry. -/
def potPasses (e : W64) (secure : Bool) (pid : Nat) (fetch : Bool) : Bool :=
  let owner := fld e 63 58
  let world := fld e 57 57
  let st := fld e 56 54
  if secure then
    if st = potOwned then !fetch || (owner == 0 && world == 1)
    else (st == potWindow || st == potShared || st == potModule) && !fetch
  else if st = potOwned then owner == pid && world == 0
  else if st = potWindow then !fetch && owner == pid
  else if st = potShared then !fetch && (owner == pid || fld e 53 48 == pid)
  else false

/-- Is granule `g` one of the active patch's image, which stays Reserved-Module until the next module reset (R136)? -/
def State.inPatch (s : State) (g : Nat) : Bool :=
  decide (s.patch.base / 0x10000 ≤ g) && decide (g < s.patch.base / 0x10000 + s.patch.granules)

/-- May an access of world and PID, by core `c` or by an engine for a partition, reach physical address `a`: also a doorbell
page is its partition's own (R22, R24, R25, R170, R171, R275)? -/
def State.ownOk (s : State) (c : Option Nat) (secure : Bool) (pid : Nat) (fetch : Bool) (a : Nat) : Bool :=
  if s.isDram a then
    if s.rf .potBase [] 0 0 = 0 then secure
    else match s.potSeen c (a / 0x10000) with
      | some e => potPasses e secure pid fetch
      | none => false
  else if fetch then false
  else if isModReg a then secure
  else isMmio a || (isDoorbell a && (secure || (dbPage a).mine pid))

/-- The same for an access of a kind: nobody writes the image of the active patch (R136). DEDUCED: log 155. -/
def State.ownOkTo (s : State) (c : Option Nat) (secure : Bool) (pid : Nat) (acs : Acs) (a : Nat) : Bool :=
  s.ownOk c secure pid (acs = .fetch) a && !(acs = .write && s.isDram a && s.inPatch (a / 0x10000))

/-- What the POT unit does about a refused core access: it counts it, and records an entry that could not be read
(R171, R173). -/
def State.ownRefuse (s : State) (c : Nat) (a : Nat) : State :=
  let s1 := { s with ownFaults := s.ownFaults + 1 }
  if s.isDram a && s.rf .potBase [] 0 0 == 1 && (s.potSeen (some c) (a / 0x10000)).isNone then
    s1.fault blkPot clsFatal 0x0507 0 (s.potAt (a / 0x10000))
  else s1

/-! ## Walks (R159-R164) -/

/-- A walk level: its number, the shift of its index, and the index bits (R159). -/
def walkLevels : List (Nat × Nat × Nat) := [(0, 48, 8), (1, 39, 9), (2, 30, 9), (3, 20, 10), (4, 12, 8)]

/-- The leaf a walk ends at: the entry, where it lies, the size it maps, and the intermediate pages of the stage 2
entries used on the way. -/
structure Leaf where
  entry : W64
  at_ : Nat
  size : Nat
  used : List (Nat × Nat)
  deriving DecidableEq, Repr

/-- Everything a walk needs of the thread that makes it. -/
structure Walker where
  core : Nat
  thread : Nat
  regime : Regime
  secure : Bool
  pid : Nat
  vmid : Option Nat
  asid : Option Nat
  acs : Acs
  deriving DecidableEq, Repr

def Walker.ownCode (w : Walker) : Nat := if w.acs = .fetch then 0x03 else 0x0F
def Walker.xlCode (w : Walker) : Nat := if w.acs = .fetch then 0x02 else 0x0E
def Walker.own (w : Walker) (stg pa : Nat) : Exc := ⟨w.ownCode, pa, stg, w.acs = .write, false, false⟩
def Walker.miss (w : Walker) (stg addr : Nat) : Exc := ⟨w.xlCode, addr, stg, w.acs = .write, false, false⟩

/-- A store overlaid on bytes read at `a`. -/
def overlay (a : Nat) (bs : List Byte) (st : Store) : List Byte :=
  bs.mapIdx fun i b =>
    if st.addr ≤ a + i ∧ a + i < st.addr + st.bytes.length then (st.bytes[a + i - st.addr]?).getD b else b

/-- What the thread reads at `pa`: memory, with its own buffered stores forwarded (R139, R223). -/
def State.view (s : State) (m pa n : Nat) : List Byte :=
  ((s.thr m).sb.flatMap SbEntry.stores).foldl (overlay pa) (s.rd pa n)

/-- An access that overlaps a combining-buffer line waits until the line has left (R233). -/
def combFirst (m line : Nat) (s : State) : R State :=
  match s.inCb m line with
  | none => .ok s
  | some l => match s.combLeave m l with
    | some s' => .ok s'
    | none => .error .wait

/-- Has the other thread of the core a descriptor's flag to write in the line, which nobody else writes meanwhile (R88)? -/
def State.sibDesc (s : State) (m line : Nat) : Bool := (s.thr (if m % 2 = 0 then m + 1 else m - 1)).descIn line

/-- A table entry read through the core's L2, checked for ownership; the walking thread's own stores to it come
first (R164, R220, R224, R233). -/
def walkRead (w : Walker) (stg pa : Nat) (s : State) : R (W64 × State) :=
  if !s.ownOk (some w.core) w.secure w.pid false pa || !s.isDram pa then
    .error (.exc (w.own stg pa) (s.ownRefuse w.core pa))
  else
    combFirst w.thread (lineOf pa) (s.potFill (some w.core) pa) >>= fun s1 => match s1.acquire w.core w.pid (lineOf pa) false with
    | none => .error (s1.waits w.core (lineOf pa))
    | some s' =>
      if s'.poisoned (lineOf pa) then .error (.poison (lineOf pa) s')
      else .ok (BitVec.ofNat 64 (ofBytes (s'.view w.thread pa 8)), s')

/-- Zero fields and alignment of a leaf (R160-R162). -/
def leafBad (stage2 : Bool) (lvl : Nat) (e : W64) : Bool :=
  (if stage2 then fld e 56 48 != 0 else fld e 54 48 != 0) || fld e 10 0 != 0 ||
  (if lvl = 4 then bit e 11 else if lvl = 3 then fld e 19 11 != 0 else fld e 29 11 != 0)

/-- A walk-cache hit: the table that the entry at a level points to (R167). -/
def walkHit (w : Walker) (stage2 : Bool) (lvl pre : Nat) (s : State) : Option (Nat × List (Nat × Nat)) :=
  ((s.core w.core).walk.find? fun x =>
    x.regime == w.regime && x.stage2 == stage2 && x.pid == w.pid && x.vmid == w.vmid && x.asid == w.asid && x.level == lvl && x.pre == pre).map fun x => (x.next, x.used)

/-- A table pointer entry into the walk cache of 64 (R167). -/
def State.walkAdd (s : State) (c : Nat) (e : WalkEntry) : State :=
  let r := s.roomed 64 e (s.core c).walk
  r.2.modCore c fun x => { x with walk := r.1 }

/-- A leaf whose A bit, and for a write its D bit, the access sets once it passes. -/
structure Mark where
  stage2 : Bool
  write : Bool
  leaf : Leaf
  deriving DecidableEq, Repr

/-- The A bit, and for a write the D bit, set in a leaf by an atomic update, checked as a write (R163, R164). The
walking thread's own stores to the entry must have been performed, with those that a barrier puts before it, and nobody may
hold its line for a descriptor's flag (R88, R224, R235). -/
def setAD (w : Walker) (k : Mark) (s : State) : R State :=
  let l := k.leaf
  let stg := if k.stage2 then 2 else 1
  let put := fun (x : W64) =>
    let y := setBit x (if k.stage2 then 58 else 56) true
    if k.write then setBit y (if k.stage2 then 57 else 55) true else y
  if put l.entry = l.entry then .ok s
  else if !s.ownOkTo (some w.core) w.secure w.pid .write l.at_ then
    .error (.exc (w.own stg l.at_) (s.ownRefuse w.core l.at_))
  else if (s.thr w.thread).sb.any fun e => !e.device && e.line == lineOf l.at_ then .error .wait
  else if (s.thr w.thread).olderGen (s.thr w.thread).barGen || s.sibDesc w.thread (lineOf l.at_) then .error .wait
  else match s.acquire w.core w.pid (lineOf l.at_) true with
    | none => .error (s.waits w.core (lineOf l.at_))
    | some s' => .ok (s'.l2Write w.core l.at_ (toBytes 8 (put (s'.rdD l.at_)).toNat))

def setADs (w : Walker) : List Mark → State → R State
  | [], s => .ok s
  | k :: ks, s => do
    let s1 ← setAD w k s
    setADs w ks s1

/-- What a walk of stage 2 for a table address gives the walk of stage 1: the physical address, the intermediate
page used, and the leaf to mark. -/
structure Step2 where
  pa : Nat
  used : List (Nat × Nat)
  marks : List Mark

/-- A walk of one stage over the remaining levels; `tr` turns a table address into a physical one,
and `far` is the address SR.FAULTADDR gets (R159-R164). The leaf that mapped a table is marked once its entry has been
read. -/
def walkStage (w : Walker) (stage2 : Bool) (stg far input : Nat) (tr : Nat → State → R (Step2 × State)) :
    List (Nat × Nat × Nat) → Nat → List (Nat × Nat) → State → R (Leaf × State)
  | [], _, _, s => .error (.exc (w.miss stg far) s)
  | (lvl, sh, bits) :: rest, base, used, s => do
    let pre := input / 2 ^ sh
    match walkHit w stage2 lvl pre s with
    | some (next, old) => walkStage w stage2 stg far input tr rest next old s
    | none =>
      let (t, s1) ← tr (base + 8 * (pre % 2 ^ bits)) s
      let used := used ++ t.used
      let (e, s2) ← walkRead w stg t.pa s1
      let s2 ← setADs w t.marks s2
      if !bit e 63 then .error (.exc (w.miss stg far) s2)
      else if bit e 62 then
        if lvl < 2 || leafBad stage2 lvl e then .error (.exc (w.miss stg far) s2)
        else .ok (⟨e, t.pa, 2 ^ sh, used⟩, s2)
      else if lvl = 4 then .error (.exc (w.miss stg far) s2)
      else
        let next := fld e 47 11 * 2048
        walkStage w stage2 stg far input tr rest next used
          (s2.walkAdd w.core ⟨w.regime, stage2, w.pid, w.vmid, w.asid, lvl, pre, next, used⟩)

/-- Permissions of a stage 2 or hypervisor leaf (R162). -/
def perm2 (acs : Acs) (e : W64) : Bool :=
  match acs with
  | .read => bit e 61
  | .write => bit e 60
  | .fetch => bit e 59

/-- Permissions of a stage 1 or Secure leaf (R162). -/
def perm1 (user : Bool) (acs : Acs) (u w xu xs : Bool) : Bool :=
  match acs with
  | .read => !user || u
  | .write => w && (!user || u)
  | .fetch => if user then u && xu else xs && !u

/-- A whole stage 2 or hypervisor walk: physical address, leaf. -/
def stage2 (w : Walker) (root far input : Nat) (acs : Acs) (s : State) : R ((Nat × Leaf) × State) := do
  let (l, s1) ← walkStage w true 2 far input (fun a s => .ok (⟨a, [], []⟩, s)) (walkLevels.drop 1) root [] s
  if !perm2 acs l.entry then .error (.exc (w.miss 2 far) s1)
  else .ok ((fld l.entry 47 11 * 2048 / l.size * l.size + input % l.size, l), s1)

/-- The walker of a thread's access at a level. -/
def State.walker (s : State) (m lvl : Nat) (acs : Acs) : Walker :=
  let a := (s.thr m).cur
  let sec := lvl = 3
  { core := m / 2, thread := m, regime := if lvl = 3 then .secure else if lvl = 2 then .hyp else .user,
    secure := sec, pid := if sec then 0 else a.pid,
    vmid := if lvl ≤ 1 ∧ s.rf .potTs2 [m] 0 0 = 1 then some (s.rf .potTs2 [m] 59 48) else none,
    asid := if lvl ≤ 1 ∧ s.rf .potTs1 [m] 0 0 = 1 then some (s.rf .potTs1 [m] 63 48) else none,
    acs := acs }

/-! ## Translation caches (R157, R167) -/

/-- An entry made with stage 1 on is global where its G bit is set; one made with a stage off matches only a thread
with that stage off. -/
def tlbMatch (w : Walker) (va : Nat) (e : TlbEntry) : Bool :=
  e.regime == w.regime && e.pid == w.pid && e.vmid == w.vmid &&
  (e.asid == w.asid || (e.glob && w.asid.isSome)) &&
  decide (e.va ≤ va) && decide (va < e.va + e.size)

/-- Permissions of a TLB entry for an access. -/
def tlbPerm (lvl : Nat) (acs : Acs) (e : TlbEntry) : Bool × Bool :=
  (e.regime = .hyp || perm1 (lvl = 0) acs e.u e.w e.xu e.xs,
   match acs with
   | .read => e.r2
   | .write => e.w2
   | .fetch => e.x2)

def tlbSame (e y : TlbEntry) : Bool :=
  y.regime == e.regime && y.pid == e.pid && y.vmid == e.vmid && y.asid == e.asid && y.va == e.va && y.size == e.size

/-- An entry put into the L1 TLB of its kind of access. -/
def State.l1TlbAdd (s : State) (c : Nat) (fetch : Bool) (e : TlbEntry) : State :=
  let x := s.core c
  let l := (if fetch then x.itlb else x.dtlb).filter fun y => !tlbSame e y
  let r := s.roomed (if fetch then 64 else 96) e l
  r.2.modCore c fun x => if fetch then { x with itlb := r.1 } else { x with dtlb := r.1 }

/-- An entry put into the L1 TLB of its kind of access and into the 8-way L2 TLB of 512 sets; which set an entry has, and
which entry leaves, the spec does not say. DESIGN CHOICE: log 24. -/
def State.tlbAdd (s : State) (c : Nat) (fetch : Bool) (e : TlbEntry) : State :=
  let old := fun (l : List TlbEntry) => l.filter fun y => !tlbSame e y
  let s0 := s.modCore c fun x => { x with itlb := old x.itlb, dtlb := old x.dtlb, tlb := old x.tlb }
  let x := s0.core c
  let s1 :=
    if x.tlb.length < 8 then s0.modCore c fun x => { x with tlb := e :: x.tlb }
    else
      let set := fun (y : TlbEntry) => Config.tlbSet y.va y.size % 512
      let mine := x.tlb.filter fun y => set y == set e
      let r := s0.roomed 8 e mine
      r.2.modCore c fun x => { x with tlb := r.1 ++ x.tlb.filter fun y => set y != set e }
  s1.l1TlbAdd c fetch e

/-- The entry that an access hits: in the L1 TLB of its kind, else in the L2 TLB, from where it enters the L1 TLB. -/
def State.tlbFind (s : State) (w : Walker) (va : Nat) : Option (TlbEntry × State) :=
  let x := s.core w.core
  let fetch := w.acs = .fetch
  match (if fetch then x.itlb else x.dtlb).find? (tlbMatch w va) with
  | some e => some (e, s)
  | none => (x.tlb.find? (tlbMatch w va)).map fun e => (e, s.l1TlbAdd w.core fetch e)

/-- A translation: the physical address, the leaves to mark once the access passes, and the entry that the TLBs keep
of it. -/
structure Found where
  pa : Nat
  marks : List Mark
  entry : Option TlbEntry

/-- Translation of an access of thread `m` at level `lvl` by its tables (R157, R158, R164). -/
def xlateWalk (m lvl : Nat) (w : Walker) (va : Nat) (s : State) : R (Found × State) := do
  let low := va % 2 ^ 56
  let wr := decide (w.acs = .write)
  if lvl = 2 then
    let ((pa, l), s1) ← stage2 w (s.rf .potTh [m] 47 11 * 2048) va va w.acs s
    let e := l.entry
    let base := va / l.size * l.size
    .ok (⟨pa, [⟨true, wr, l⟩], some ⟨.hyp, w.pid, none, none, false, base, l.size,
      pa / l.size * l.size, base, (base, l.size), [], true, true, true, true, bit e 61, bit e 60, bit e 59, wr⟩⟩, s1)
  else
    let s2on := decide (lvl ≤ 1) && s.rf .potTs2 [m] 0 0 == 1
    let root2 := s.rf .potTs2 [m] 47 11 * 2048
    let tr : Acs → Nat → State → R ((Nat × Option Leaf) × State) := fun acs ipa s =>
      if s2on then
        if 2 ^ 48 ≤ ipa then .error (.exc (w.miss 2 ipa) s)
        else do
          let ((pa, l), s') ← stage2 w root2 ipa ipa acs s
          .ok ((pa, some l), s')
      else .ok ((ipa, none), s)
    let page := fun (a : Nat) (l : Option Leaf) => (l.map fun l => (a / l.size * l.size, l.size)).toList
    let s1on := if lvl = 3 then s.rf .potSxroot [] 0 0 == 1 else s.rf .potTs1 [m] 0 0 == 1
    let root1 := if lvl = 3 then s.rf .potSxroot [] 47 11 * 2048 else s.rf .potTs1 [m] 47 11 * 2048
    if s1on then
      let (l1, s1) ← walkStage w false 1 va low
        (fun a s => do
          let ((pa, l), s') ← tr .read a s
          .ok (⟨pa, page a l, (l.map fun l => Mark.mk true false l).toList⟩, s')) walkLevels root1 [] s
      let e := l1.entry
      if !perm1 (lvl = 0) w.acs (bit e 60) (bit e 59) (bit e 58) (bit e 57) then
        .error (.exc (w.miss 1 va) s1)
      else
        let ipa := fld e 47 11 * 2048 / l1.size * l1.size + low % l1.size
        let ((pa, l2), s2) ← tr w.acs ipa s1
        let sz := match l2 with
          | some l => min l.size l1.size
          | none => l1.size
        let p2 : W64 := match l2 with
          | some l => l.entry
          | none => BitVec.allOnes 64
        .ok (⟨pa, (l2.map fun l => Mark.mk true wr l).toList ++ [⟨false, wr, l1⟩],
          some ⟨w.regime, w.pid, w.vmid, w.asid, bit e 61, va / sz * sz, sz, pa / sz * sz, ipa / sz * sz,
            (va / l1.size * l1.size, l1.size), l1.used ++ page ipa l2, bit e 60, bit e 59, bit e 58,
            bit e 57, bit p2 61, bit p2 60, bit p2 59, wr⟩⟩, s2)
    else
      let ((pa, l2), s2) ← tr w.acs va s
      .ok (match l2 with
        | none => (⟨pa, [], none⟩, s2)
        | some l =>
          let base := va / l.size * l.size
          (⟨pa, [⟨true, wr, l⟩], some ⟨w.regime, w.pid, w.vmid, w.asid, false, base, l.size,
            pa / l.size * l.size, base, (base, l.size), [(base, l.size)], true, true, true, true,
            bit l.entry 61, bit l.entry 60, bit l.entry 59, wr⟩⟩, s2))

/-- Is a virtual address canonical (R158)? -/
def canonical (va : Nat) : Bool := let h := va / 2 ^ 55; h == 0 || h == 2 ^ 9 - 1

/-- Translation of virtual address `va` for thread `m` at level `lvl`: a level whose walks are not enabled passes it
through, whatever the TLBs hold (R157, R158, R165, R167). -/
def xlate (m lvl : Nat) (acs : Acs) (va : Nat) (s : State) : R (Found × State) :=
  let w := s.walker m lvl acs
  if lvl = 2 && decide (2 ^ 48 ≤ va) then .error (.exc (w.miss 2 va) s)
  else if lvl != 2 && !canonical va then .error (.exc (w.miss 1 va) s)
  else if (lvl = 2 && s.rf .potTh [m] 0 0 == 0) || (lvl = 3 && s.rf .potSxroot [] 0 0 == 0) then .ok (⟨va, [], none⟩, s)
  else
    match s.tlbFind w va with
    | some (e, s1) =>
      let p := tlbPerm lvl acs e
      if !p.1 then .error (.exc (w.miss 1 va) s1)
      else if !p.2 then .error (.exc (w.miss 2 (if lvl = 2 then va else e.ia + (va - e.va))) s1)
      else if acs = .write && !e.dirty then xlateWalk m lvl w va s1
      else .ok (⟨e.pa + (va - e.va), [], none⟩, s1)
    | none => xlateWalk m lvl w va s

/-- Translation and the checks of an access: `kind` says whether its target takes an access of its kind, which is judged
before its ownership (R52, R73); A and D are set once all pass (R157-R171). -/
def accessAs (m lvl : Nat) (acs : Acs) (kind : Nat → Bool) (va : Nat) (s : State) : R (Nat × State) := do
  let (f, s1) ← xlate m lvl acs va s
  let w := s1.walker m lvl acs
  if !kind f.pa then .error (.exc ⟨0x0D, va, 0, acs = .write, false, false⟩ s1)
  else if !s1.ownOkTo (some w.core) w.secure w.pid acs f.pa then
    .error (.exc (w.own 0 f.pa) (s1.ownRefuse w.core f.pa))
  else
    let s2 ← setADs w f.marks (s1.potFill (some w.core) f.pa)
    .ok (f.pa, match f.entry with
      | some e => s2.tlbAdd w.core (acs = .fetch) e
      | none => s2)

/-- An access whose target may be of any kind. -/
def access (m lvl : Nat) (acs : Acs) (va : Nat) (s : State) : R (Nat × State) := accessAs m lvl acs (fun _ => true) va s

end Sys2Proof.Machine
end

