-- ==== Sys2Proof/Machine/Trellis.lean ====
section
/-! DEFINITION. Trellis: rings and doorbells, the checks on its accesses, dirty logs, the ledger,
completion queues and terminal states (11 R273-R293, R303, R308; 07 R172, R173; 13 R363). -/

namespace Sys2Proof.Machine

def State.modTrl (s : State) (f : Trl → Trl) : State := { s with trl := f s.trl }
def State.port (s : State) (p : Nat) : Port := Map.get Port.empty s.ports p
def State.modPort (s : State) (p : Nat) (f : Port → Port) : State :=
  { s with ports := Map.set Port.empty s.ports p (f (s.port p)) }

/-! ## Sets and queues -/

/-- Stream ID (R273). -/
def streamId (p set q : Nat) : Nat := p * 2 ^ 26 + set * 2 ^ 15 + q

def State.trlOn (s : State) : Bool := s.rf .trlCtxbase [] 0 0 == 1

/-- Is the set enabled (R275, R350)? -/
def State.setOn (s : State) (p set : Nat) : Bool :=
  s.trlOn && (if set = 0 then s.rf .trlPcfg [p] 63 63 == 1
    else s.trl.sets.any fun v => v.id == set && v.pid == p && v.enabled)

def State.vset? (s : State) (p set : Nat) : Option VSet := s.trl.sets.find? fun v => v.id == set && v.pid == p
def State.sq? (s : State) (p set q : Nat) : Option Sq :=
  s.trl.sqs.find? fun x => x.pid == p && x.set == set && x.q == q
def State.cq? (s : State) (p set q : Nat) : Option Cq :=
  s.trl.cqs.find? fun x => x.pid == p && x.set == set && x.q == q
def State.modSq (s : State) (p set q : Nat) (f : Sq → Sq) : State :=
  s.modTrl fun t => { t with sqs := t.sqs.map fun x => if x.pid = p ∧ x.set = set ∧ x.q = q then f x else x }
def State.modCq (s : State) (p set q : Nat) (f : Cq → Cq) : State :=
  s.modTrl fun t => { t with cqs := t.cqs.map fun x => if x.pid = p ∧ x.set = set ∧ x.q = q then f x else x }
def State.modVset (s : State) (set : Nat) (f : VSet → VSet) : State :=
  s.modTrl fun t => { t with sets := t.sets.map fun v => if v.id = set then f v else v }

/-- The generation in force for a set (R310, R360). -/
def State.genOf (s : State) (p set : Nat) : Nat :=
  Map.get zeroNat s.trl.gens (if set = 0 then 2048 + p else set)
def State.bumpGen (s : State) (p set : Nat) : State :=
  let g := (s.genOf p set + 1) % 2 ^ 16
  s.modTrl fun t => { t with gens := Map.set zeroNat t.gens (if set = 0 then 2048 + p else set) g }

def State.admin (s : State) (p : Nat) : AdminQ := Map.get AdminQ.empty s.trl.admin p
def State.modAdmin (s : State) (p : Nat) (f : AdminQ → AdminQ) : State :=
  s.modTrl fun t => { t with admin := Map.set AdminQ.empty t.admin p (f (s.admin p)) }

/-- Key of a job context: Sieve (0) or Garnet (1), partition, context. -/
def ctxKey (e p c : Nat) : Nat := e * 1024 + p * 16 + c
def State.ctx (s : State) (e p c : Nat) : JobCtx := Map.get JobCtx.empty s.trl.ctxs (ctxKey e p c)
def State.modCtx (s : State) (e p c : Nat) (f : JobCtx → JobCtx) : State :=
  s.modTrl fun t => { t with ctxs := Map.set JobCtx.empty t.ctxs (ctxKey e p c) (f (s.ctx e p c)) }

/-! ## Rings (R276-R278) -/

def Ring.ignore (r : Ring) : Ring := { r with ignored := r.ignored + 1 }

/-- The next slot reserved, if the index is below head + size (R277). DESIGN CHOICE: log 51. -/
def Ring.reserve (r : Ring) (size lcore : Nat) : Option (Nat × Ring) :=
  if r.tail < r.head + size then
    some (r.tail, { r with tail := r.tail + 1, slots := r.slots ++ [⟨r.tail, lcore, .reserved⟩] })
  else none

/-- A reserved slot marked; anything else is ignored and counted (R278). -/
def Ring.mark (r : Ring) (idx : Nat) (st : SlotSt) : Ring :=
  if r.slots.any fun x => x.idx == idx && x.st == .reserved then
    { r with slots := r.slots.map fun x => if x.idx = idx then { x with st := st } else x }
  else r.ignore

/-- Released and void slots at the head are skipped (R278). -/
def Ring.skip (r : Ring) : Ring :=
  let dead := r.slots.takeWhile fun x => x.st == .released || x.st == .void
  { r with head := r.head + dead.length, slots := r.slots.drop dead.length }

/-- The slot at the head, if it is marked ready. -/
def Ring.front (r : Ring) : Option Slot :=
  match r.skip.slots with
  | x :: _ => if x.st = .ready then some x else none
  | [] => none

/-- The head slot taken. -/
def Ring.pop (r : Ring) : Ring :=
  let r := r.skip
  { r with head := r.head + 1, slots := r.slots.drop 1 }

/-- Every slot that is reserved and not ready becomes void (R304, R306). -/
def Ring.voidAll (r : Ring) : Ring :=
  { r with slots := r.slots.map fun x => if x.st = .reserved then { x with st := .void } else x }

/-- Job ring size (R416). -/
def State.jobSize (s : State) (e p c : Nat) : Nat :=
  2 ^ s.rf (if e = 0 then .sveJring else .gntJring) [p, c] 3 0

/-- The ring that a reference names, its size, and whether it takes reservations (R275, R276). -/
def State.ringOf (s : State) : QueueRef → Option (Ring × Nat × Bool)
  | .sq p set q => (s.sq? p.val set.val q.toNat).map fun x =>
      (x.ring, 2 ^ x.k, x.enabled && s.setOn p.val set.val)
  | .admin p => if s.rf .trlAq [p.val] 0 0 = 1 then some ((s.admin p.val).ring, 64, s.setOn p.val 0) else none
  | .sieve p c => let x := s.ctx 0 p.val c.val; some (x.ring, s.jobSize 0 p.val c.val, x.state == 1)
  | .garnet p c => let x := s.ctx 1 p.val c.val; some (x.ring, s.jobSize 1 p.val c.val, x.state == 1)

def State.putRing (s : State) (q : QueueRef) (r : Ring) : State :=
  match q with
  | .sq p set q => s.modSq p.val set.val q.toNat fun x => { x with ring := r }
  | .admin p => s.modAdmin p.val fun a => { a with ring := r }
  | .sieve p c => s.modCtx 0 p.val c.val fun x => { x with ring := r }
  | .garnet p c => s.modCtx 1 p.val c.val fun x => { x with ring := r }

/-- Do ready and release stores reach the ring? A store to a page of a set that is not enabled is discarded (R275), but
for a slot of a submission queue that was reserved before the disable of its queue or VCS (R306). DEDUCED: log 164. -/
def State.pageOn (s : State) : QueueRef → Bool
  | .sq p set _ => if set.val = 0 then s.setOn p.val 0 else s.trlOn
  | .admin p => s.setOn p.val 0
  | .sieve .. => true
  | .garnet .. => true

/-- A reservation: the doubleword that the load returns (R276, R277). -/
def State.reserve (s : State) (q : QueueRef) (lcore : Nat) : W64 × State :=
  match s.ringOf q with
  | none => (pack [(62, 62, 1)], s)
  | some (r, size, on) =>
    if !on then (pack [(62, 62, 1)], s)
    else match r.skip.reserve size lcore with
      | some (i, r') => (pack [(63, 63, 1), (31, 0, i)], s.putRing q r')
      | none => (0, s.putRing q r.skip)

/-- A doorbell store that is ignored, or discarded, and counted (R275, R276, R278). -/
def State.dbIgnored (s : State) (q : QueueRef) : State :=
  match s.ringOf q with
  | some (r, _, _) => s.putRing q r.ignore
  | none => s.modTrl fun t => { t with ignored := t.ignored + 1 }

/-- A ready or release store for a slot (R278). -/
def State.markSlot (s : State) (q : QueueRef) (idx : Nat) (st : SlotSt) : State :=
  match s.ringOf q with
  | none => s.dbIgnored q
  | some (r, _, _) => if s.pageOn q then s.putRing q (r.mark idx st).skip else s.putRing q r.ignore

/-- Is a logical core stopped for a sparing, so that its reservations' 2 ms are held (R278)? -/
def State.lcoreStopped (s : State) (l : Nat) : Bool := s.sparings.any fun x => x.lcore == l

/-- A doorbell page of a queue (R275, R276, R417, R444). -/
def doorbellOf : QueueRef → Nat
  | .sq p set q => 0xF00000000000 + (p.val * 0x800 + set.val) * 0x1000 + 0x20 * q.toNat
  | .admin p => 0xF00000000000 + p.val * 0x800 * 0x1000 + 0x800
  | .sieve p c => 0xF02000000000 + (p.val * 16 + c.val) * 0x1000
  | .garnet p c => 0xF04000000000 + (p.val * 16 + c.val) * 0x1000

def queuePid : QueueRef → Nat
  | .sq p _ _ => p.val
  | .admin p => p.val
  | .sieve p _ => p.val
  | .garnet p _ => p.val

/-! ## Checked accesses (R172, R173) -/

/-- Why Trellis may not reach an address for partition `p`: none, or the code. `data` is the
recorded generation for a data segment; none for a queue, ledger or descriptor (R172, R173). -/
def State.trlCause (s : State) (p : Nat) (data : Option Nat) (a : Nat) : Option Nat :=
  if isModReg a then some 0x0505
  else if !s.isDram a then some 0x0504
  else if s.rf .potBase [] 0 0 = 0 then some 0x0501
  else match s.potSeen none (a / 0x10000) with
    | none => some 0x0507
    | some e =>
      let st := fld e 56 54
      match data with
      | none =>
        if (st = potOwned ∨ st = potWindow) ∧ fld e 63 58 = p ∧ fld e 57 57 = 0 then none else some 0x0501
      | some gen =>
        if st ≠ potWindow ∧ st ≠ potShared then some 0x0502
        else if fld e 63 58 ≠ p ∧ ¬(st = potShared ∧ fld e 53 48 = p) then some 0x0501
        else if fld e 47 32 ≠ gen then some 0x0503
        else none

/-- The granules that a range touches, by an address in each. -/
def granulesOf (a n : Nat) : List Nat :=
  if n = 0 then [] else (List.range ((a + n - 1) / 0x10000 - a / 0x10000 + 1)).map fun i => a / 0x10000 * 0x10000 + i * 0x10000

/-- Codes in the order in which a refused access takes them (R173); an entry that cannot be read leaves nothing else to
judge by. -/
def causeOrder : List Nat := [0x0505, 0x0504, 0x0507, 0x0502, 0x0501, 0x0503]

/-- Why Trellis may not reach a range: of the causes of all its granules, the first in the order. -/
def State.rangeCause (s : State) (p : Nat) (data : Option Nat) (a n : Nat) : Option Nat :=
  let cs := (granulesOf a n).filterMap fun g => s.trlCause p data (max g a)
  causeOrder.find? cs.contains

/-- The record of a refused access (R173). -/
def State.potRefuse (s : State) (code p a : Nat) : State :=
  if code = 0x0507 then s.fault blkPot clsFatal code p a else s.fault blkPot clsContained code p a

/-- The entries of a range in the POT cache after a check of it (R170). -/
def State.potFills (s : State) (a n : Nat) : State := (granulesOf a n).foldl (fun s g => s.potFill none g) s

/-- A checked read: the bytes and whether any line is poisoned; none where it is refused, which the
POT unit records. -/
def State.trlRead (s : State) (p : Nat) (data : Option Nat) (a n : Nat) : Option (List Byte × Bool) × State :=
  match s.rangeCause p data a n with
  | some code => (none, s.potRefuse code p a)
  | none => let r := (s.potFills a n).hubRead a n; (some (r.1, r.2.1), r.2.2)

/-- A checked write; false where it is refused. -/
def State.trlWrite (s : State) (p : Nat) (data : Option Nat) (a : Nat) (bs : List Byte) : Bool × State :=
  match s.rangeCause p data a bs.length with
  | some code => (false, s.potRefuse code p a)
  | none => (true, (s.potFills a bs.length).hubWrite a bs)

/-! ## Dirty-page logs (R363, R364) -/

def dlogKey (p set : Nat) : Nat := p * 2048 + set

/-- The bit of one page set in a log, or its OVF indication. -/
def State.dlogPage (s : State) (p set : Nat) (d : Dlog) (page : Nat) : State :=
  if (page * 4096 < d.start) ∨ d.start + d.pages * 4096 ≤ page * 4096 then
    let key := dlogKey p set
    let mark := fun (x : Nat × Dlog) => if x.1 = key then (x.1, { x.2 with ovf := true }) else x
    s.modTrl fun t => { t with dlogs := t.dlogs.map mark }
  else
    let n := page - d.start / 4096
    let a := d.bitmap + 8 * (n / 64)
    match s.trlRead p none a 8 with
    | (some (bs, _), s1) =>
      (s1.trlWrite p none a (toBytes 8 (setBit (dwordAt bs 0) (63 - n % 64) true).toNat)).2
    | (none, s1) => s1

/-- The pages of a write noted before it is accepted. -/
def State.dlogNote (s : State) (p set a n : Nat) : State :=
  match s.trl.dlogs.find? fun x => x.1 == dlogKey p set with
  | none => s
  | some x =>
    if n = 0 then s
    else ((List.range ((a + n - 1) / 4096 - a / 4096 + 1)).map (a / 4096 + ·)).foldl
      (fun s g => s.dlogPage p set x.2 g) s

/-- A checked write for a set's exchange that its dirty log covers. -/
def State.setWrite (s : State) (p set : Nat) (data : Option Nat) (a : Nat) (bs : List Byte) : Bool × State :=
  if (s.rangeCause p data a bs.length).isSome then s.trlWrite p data a bs
  else (s.dlogNote p set a bs.length).trlWrite p data a bs

/-! ## The ledger (R288-R290) -/

def State.stamp (s : State) : Stamp := ⟨s.stc.sec % 2 ^ 48, s.stc.ns, s.stc.frac / 2 ^ 24⟩
def Stamp.words (t : Stamp) : List W64 := [pack [(63, 16, t.sec)], pack [(63, 32, t.ns), (31, 16, t.frac)]]
def stampWords : Option Stamp → List W64
  | some t => t.words
  | none => [0, 0]

/-- The bytes that the port admitted for the exchange: DMA of segments that are not transformed, reads of the staged
frame and writes of inbound staging (R325). DEDUCED: log 29. -/
def Xch.total (x : Xch) : Nat :=
  (((x.segs.filter fun g => if g.dir then x.xf % 4 == 0 else x.xf / 4 % 4 == 0).map Seg.done).sum + x.frameRead + x.done) % 2 ^ 32

def Xch.stream (x : Xch) : Nat := streamId x.pid x.set x.q

/-- The 128 bytes of an entry. -/
def Xch.entry (x : Xch) (st sub : Nat) (tcomp : Option Stamp) (astatus : Nat) (ares : W64) : List Byte :=
  let iv := ofBytes (x.iv.getD [])
  dwords ([pack [(63, 60, st), (59, 56, sub), (55, 54, x.cls), (53, 51, x.path), (47, 32, x.gen)],
    pack [(63, 32, x.stream), (31, 0, x.slot)], BitVec.ofNat 64 x.xsn, x.tag,
    pack [(63, 56, x.ptried), (55, 48, x.attempts), (45, 32, x.dev), (31, 0, x.total)]] ++
    x.tpost.words ++ stampWords x.twire ++ stampWords tcomp ++
    [pack [(63, 32, astatus)], BitVec.ofNat 64 (iv / 2 ^ 32), pack [(63, 32, iv % 2 ^ 32)], ares, 0])

def State.ledgerAt (s : State) (p i : Nat) : Nat := s.rf .trlLbase [p] 47 16 * 0x10000 + 128 * i

/-- The entry of an exchange that is not terminal rewritten; a refused write is recorded (R308). -/
def State.putEntry (s : State) (x : Xch) : State :=
  let r := s.trlWrite x.pid none (s.ledgerAt x.pid x.lidx) (x.entry x.state 0 none 0 0)
  if r.1 then r.2 else r.2.fault blkTrellis clsContained 0x0602 x.pid (s.ledgerAt x.pid x.lidx)

def State.xch? (s : State) (p lidx : Nat) : Option Xch := s.trl.xchs.find? fun x => x.pid == p && x.lidx == lidx
def State.dropXch (s : State) (p lidx : Nat) : State :=
  s.modTrl fun t => { t with xchs := t.xchs.filter fun x => !(x.pid == p && x.lidx == lidx) }

/-- An exchange replaced in Trellis's context, without its ledger entry. -/
def State.keepXch (s : State) (x : Xch) : State :=
  s.modTrl fun t => { t with xchs := t.xchs.map fun y => if y.pid = x.pid ∧ y.lidx = x.lidx then x else y }

/-- An exchange changed, and its ledger entry with it (R290). -/
def State.setXch (s : State) (x : Xch) : State := (s.keepXch x).putEntry x

/-! ## Completion queues (R291-R293) -/

/-- A completion entry, PHASE clear (R291). -/
def Xch.cqe (x : Xch) (st sub astatus : Nat) : List Byte :=
  dwords [pack [(63, 60, st), (59, 56, sub), (55, 54, x.cls), (51, 32, x.lidx), (31, 0, x.stream)],
    BitVec.ofNat 64 x.xsn, x.tag, pack [(63, 32, astatus), (31, 0, x.total)]]

/-- PHASE set in an entry on even passes through the ring; it stands at bit `b` of the first
doubleword (R291, R351, R423). -/
def withPhase (b tail size : Nat) (bs : List Byte) : List Byte :=
  if tail / size % 2 = 0 then toBytes 8 (setBit (dwordAt bs 0) b true).toNat ++ bs.drop 8 else bs

/-- A completion entry written at the tail, if there is room; it waits otherwise (R293). A refused
write is held for the retry (R308). -/
def State.cqPost (s : State) (p set cq lidx : Nat) (irq : Bool) (bytes : List Byte) : State :=
  match s.cq? p set cq with
  | none => s
  | some c =>
    if 2 ^ c.k ≤ c.tail - c.head then
      s.modCq p set cq fun c => { c with waiting := c.waiting ++ [⟨lidx, irq, bytes⟩] }
    else
      let a := c.base + 32 * (c.tail % 2 ^ c.k)
      let r := s.setWrite p set none a (withPhase 53 c.tail (2 ^ c.k) bytes)
      if r.1 then r.2.modCq p set cq fun c => { c with tail := c.tail + 1, live := c.live ++ [⟨lidx, irq⟩] }
      else (r.2.modTrl fun t => { t with refused := t.refused ++ [⟨p, set, cq, lidx, none, irq, bytes⟩] }).fault
        blkTrellis clsContained 0x0602 p a

/-- Entries that waited for room are written while there is some. -/
def State.cqDrain (s : State) (p set cq : Nat) : Nat → State
  | 0 => s
  | n + 1 =>
    match s.cq? p set cq with
    | none => s
    | some c => match c.waiting with
      | [] => s
      | w :: ws =>
        if 2 ^ c.k ≤ c.tail - c.head then s
        else ((s.modCq p set cq fun c => { c with waiting := ws }).cqPost p set cq w.lidx w.irq w.bytes).cqDrain p set cq n

/-- A ledger entry whose completion the head has passed returns to FREE (R293). -/
def State.ledgerFree (s : State) (p lidx : Nat) : State :=
  let s1 := s.modTrl fun t => { t with kept := t.kept.filter fun k => !(k.pid == p && k.lidx == lidx) }
  let a := s.ledgerAt p lidx
  match s1.trlRead p none a 1 with
  | (some (bs, _), s2) => (s2.trlWrite p none a (bs.map fun b => b &&& 0x0F)).2
  | (none, s2) => s2

/-- A CQ head store (R276, R293). -/
def State.cqHead (s : State) (p set q new : Nat) : State :=
  match s.cq? p set q with
  | none => s
  | some c =>
    if new < c.head ∨ c.tail < new then s
    else
      let gone := c.live.take (new - c.head)
      let s1 := s.modCq p set q fun c => { c with head := new, live := c.live.drop (new - c.head) }
      (gone.foldl (fun s g => s.ledgerFree p g.lidx) s1).cqDrain p set q c.waiting.length

/-! ## Terminal states (R289, R292) -/

/-- FLAG of a segment written, the other bits of its byte as they stand in memory (R283). -/
def State.segFlag (s : State) (p set : Nat) (g : Seg) (flag : Nat) : State :=
  (s.setWrite p set none g.desc [(s.homeByte g.desc &&& 0x3F) ||| BitVec.ofNat 8 (flag * 64)]).2

/-- FLAG and DONE of a segment at the terminal state. -/
def State.segEnd (s : State) (p set : Nat) (good : Bool) (g : Seg) : State :=
  if g.flag = 1 ∨ g.flag = 2 then
    ((s.segFlag p set g (if good then 0 else 3)).setWrite p set none (g.desc + 8) (toBytes 4 g.done)).2
  else s

/-- The terminal writes after the segments: the ledger entry, then the completion (R292, R308). -/
def State.terminal (s : State) (p set cq lidx : Nat) (ledger : List Byte) (irq : Bool) (cqe : List Byte) : State :=
  let a := s.ledgerAt p lidx
  let r := s.trlWrite p none a ledger
  if r.1 then r.2.cqPost p set cq lidx irq cqe
  else
    (r.2.modTrl fun t => { t with refused := t.refused ++ [⟨p, set, cq, lidx, some ledger, irq, cqe⟩] }).fault
      blkTrellis clsContained 0x0602 p a

/-- An exchange reaches its terminal state (R289, R292, R303). -/
def State.finishX (s : State) (x : Xch) (st sub : Nat) (astatus : Nat := 0) (ares : W64 := 0) : State :=
  let cq := match s.sq? x.pid x.set x.q with
    | some q => q.cq
    | none => 0
  let s1 := x.segs.foldl (fun s g => s.segEnd x.pid x.set (st == 8) g) (s.dropXch x.pid x.lidx)
  let s2 := s1.modTrl fun t => { t with kept := t.kept ++ [⟨x.pid, x.set, x.q, x.cls, x.lidx⟩] }
  s2.terminal x.pid x.set cq x.lidx (x.entry st sub (some s.stamp) astatus ares) x.irq (x.cqe st sub astatus)

/-- Adapter messages that were discarded as late (R302). -/
def State.lateMsg (s : State) (p set : Nat) : State :=
  let s1 := s.incRf .trlLatecnt [] 31 0
  let s2 := if set = 0 then
      s1.modTrl fun t => { t with baseLate := Map.set zeroNat t.baseLate p (min (Map.get zeroNat t.baseLate p + 1) 0xFFFFFFFF) }
    else s1.modVset set fun v => { v with late := min (v.late + 1) 0xFFFFFFFF }
  if s2.rated604 = some s2.stc.sec then s2
  else ({ s2 with rated604 := some s2.stc.sec } : State).fault blkTrellis clsCorrected 0x0604 0 0

/-! ## Admin completions, and what waits for exchanges to end (R304, R347, R351, R361) -/

/-- The admin completion ring: an entry written, or kept until there is room (R347, R351). A refused write is recorded
and retried as those of the ledger are, so that no completion is lost (R308, R347). DEDUCED: log 183. -/
def State.adminPost (s : State) (p : Nat) (bytes : List Byte) : State :=
  let a := s.admin p
  if 64 ≤ a.cqTail - a.cqHead then s.modAdmin p fun a => { a with waiting := some bytes }
  else
    let at_ := s.rf .trlAq [p] 47 14 * 2 ^ 14 + 0x2000 + 32 * (a.cqTail % 64)
    let r := s.trlWrite p none at_ (withPhase 55 a.cqTail 64 bytes)
    if r.1 then r.2.modAdmin p fun a => { a with cqTail := a.cqTail + 1, waiting := none }
    else (r.2.modAdmin p fun a => { a with waiting := some bytes }).fault blkTrellis clsContained 0x0602 p at_

/-- A kept admin completion entry tried again. -/
def State.adminRetry (s : State) (p : Nat) : State :=
  match (s.admin p).waiting with
  | some b => s.adminPost p b
  | none => s

/-- The Admin Queue's indexes return to 0 at a partition reset; an entry that waited for room is written then (R347,
R362). DEDUCED: log 183. -/
def State.adminZero (s : State) (p : Nat) : State :=
  (s.modAdmin p fun a => { AdminQ.empty p with waiting := a.waiting, running := a.running }).adminRetry p

/-- A finished admin command's completion (R351). -/
def State.adminDone (s : State) (p cid status : Nat) (r0 r1 r2 : W64) : State :=
  (s.modAdmin p fun a => { a with running := none }).adminPost p
    (dwords [pack [(63, 56, status), (15, 0, cid)], r0, r1, r2])

/-- A set's queues deleted and its quotas and number returned (R361). Ledger entries whose completions stand in a deleted
queue return to FREE with it. DEDUCED: log 52. -/
def State.removeSet (s : State) (p set : Nat) : State :=
  let s1 := (s.trl.kept.filter fun k => k.pid == p && k.set == set).foldl (fun s k => s.ledgerFree p k.lidx) s
  State.pinSync <| s1.modTrl fun t => { t with
    sets := t.sets.filter fun v => !(v.pid == p && v.id == set),
    sqs := t.sqs.filter fun q => !(q.pid == p && q.set == set),
    cqs := t.cqs.filter fun q => !(q.pid == p && q.set == set),
    dlogs := t.dlogs.filter fun d => d.1 != dlogKey p set }

/-- Heads and tails of a set's completion queues 0 (R361). -/
def State.zeroCqs (s : State) (p set : Nat) : State :=
  s.modTrl fun t => { t with
    cqs := t.cqs.map fun q => if q.pid = p ∧ q.set = set then { q with head := 0, tail := 0, live := [], waiting := [] } else q }

/-- Heads and tails of a set's submission queues 0, next XSNs 1 (R361). -/
def State.zeroSqs (s : State) (p set : Nat) : State :=
  s.modTrl fun t => { t with
    sqs := t.sqs.map fun q => if (q.pid = p ∧ q.set = set) then { q with ring := Ring.empty, nextXsn := 1, skipTo := none } else q }

/-- What an admin command still waited for has ended: it finishes (R361). -/
def State.adminCheck (s : State) (p : Nat) : State :=
  match (s.admin p).running with
  | none => s
  | some r =>
    let open_ := s.trl.xchs.any fun x => x.pid == p && x.set == r.set && (r.queue.isNone || r.queue == some x.q)
    if open_ then s
    else
      let s1 := if r.opc = 0x13 then s.zeroSqs p r.set else if r.opc = 0x14 then s.removeSet p r.set else s
      let s2 := s1.adminDone p r.cid 0 r.res0 0 0
      if s.trl.resetting.contains p then s2.adminZero p else s2

/-- A reset partition with no exchange open is quiesced (R304). -/
def State.quiesceCheck (s : State) (p : Nat) : State :=
  if s.trl.resetting.contains p && !(s.trl.xchs.any fun x => x.pid == p) then
    (s.modTrl fun t => { t with resetting := t.resetting.filter (· != p) }).setRf .trlPstat [p] 63 63 1
  else s

/-- What may follow once an exchange has ended. -/
def State.afterEnd (s : State) (p : Nat) : State := (s.adminCheck p).quiesceCheck p

/-! ## Doorbell commands -/

/-- A doorbell load of thread `t` reaches its ring: the answer is kept for the load (R275-R278,
R346, R417, R444; R226), after the thread's earlier device stores to the page (R224). -/
def execSqDoorbellReserve (t : ThreadId) (q : QueueRef) (s : State) : Host.Outcome State Fault Refusal :=
  let x := s.thr t.val
  .next (
    if x.run != .running || (x.cur.pl != 3 && x.cur.pid != queuePid q) || s.pageBusy t.val (doorbellOf q / 4096) then s
    else
      let r := s.reserve q x.cur.lcore
      r.2.modThr t.val fun y => { y.hardenAll with devVal := some (doorbellOf q, r.1.toNat) })

def execSqReady (q : QueueRef) (slot : BitVec 32) (s : State) : Host.Outcome State Fault Refusal :=
  .next (s.markSlot q slot.toNat .ready)

def execSqRelease (q : QueueRef) (slot : BitVec 32) (s : State) : Host.Outcome State Fault Refusal :=
  .next (s.markSlot q slot.toNat .released)

/-- 2 ms after its reservation a slot is void, unless its logical core is stopped for a sparing
(R278). -/
def execSlotVoid (q : QueueRef) (slot : BitVec 32) (s : State) : Host.Outcome State Fault Refusal :=
  .next (match s.ringOf q with
    | none => s
    | some (r, _, _) =>
      if r.slots.any fun x => x.idx == slot.toNat && x.st == .reserved && !s.lcoreStopped x.lcore then
        s.putRing q (r.mark slot.toNat .void).skip
      else s)

/-! ## Rings of the doorbell range (R275, R417, R444) -/

/-- The ring that an offset of a page belongs to. -/
def dbQueue (pg : DbPage) (off : Nat) : Option QueueRef :=
  match pg with
  | .set p set =>
    if h : p < 49 ∧ set < 1025 then
      if off < 0x800 then some (.sq ⟨p, h.1⟩ ⟨set, h.2⟩ (BitVec.ofNat 6 (off / 0x20)))
      else if off < 0x820 ∧ set = 0 then some (.admin ⟨p, h.1⟩)
      else none
    else none
  | .job e p c =>
    if off < 0x20 then
      if h : e = 0 ∧ p < 49 ∧ c < 15 then some (.sieve ⟨p, h.2.1⟩ ⟨c, h.2.2⟩)
      else if h : p < 49 ∧ c < 8 then some (.garnet ⟨p, h.1⟩ ⟨c, h.2⟩)
      else none
    else none
  | _ => none

end Sys2Proof.Machine
end

