-- ==== Sys2Proof/Machine/Operands.lean ====
section
/-! DEFINITION. How a thread runs one instruction: register operands, the window file, loads and
stores through the store buffer, exception entry and retirement (02 R26-R56; 03 R58-R63; 06 R138,
R139; 09 R230-R233). -/

namespace Sys2Proof.Machine

/-! ## Registers (R28, R37, R38) -/

/-- Slot of the window file that holds a window-relative register below 40 (R28, R29). -/
def physReg (cwp n : Nat) : Nat :=
  if n < 8 then n
  else if n < 16 then 8 + 24 * ((cwp + 27) % 28) + 16 + (n - 8)
  else if n < 32 then 8 + 24 * cwp + (n - 16)
  else 8 + 24 * cwp + 16 + (n - 32)

/-- The stored value of an integer register; g0 reads as zero. -/
def Arch.raw (a : Arch) (n : Nat) : W64 := if n = 0 then 0 else Map.get zero64 a.regs (physReg a.cwp n)

/-- What the next instruction reads: the old value while a load delay is pending (R38). -/
def Arch.g (a : Arch) (n : Nat) : W64 :=
  match a.delay with
  | some d => if !d.isF && d.reg == n && n != 0 then d.old.setWidth 64 else a.raw n
  | none => a.raw n

/-- An integer register written; a write to g0 is discarded (R28). -/
def Arch.setG (a : Arch) (n : Nat) (v : W64) : Arch :=
  if n = 0 then a else { a with regs := Map.set zero64 a.regs (physReg a.cwp n) v }

def Arch.rawF (a : Arch) (n : Nat) : W128 := Map.get zero128 a.fregs n

def Arch.f (a : Arch) (n : Nat) : W128 :=
  match a.delay with
  | some d => if d.isF && d.reg == n then d.old else a.rawF n
  | none => a.rawF n

def Arch.setF (a : Arch) (n : Nat) (v : W128) : Arch := { a with fregs := Map.set zero128 a.fregs n v }

/-- The state an instruction builds its result from: no delay pending, at the next address. -/
def Arch.next (a : Arch) : Arch := { a with delay := none, pc := a.pc + 4 }

/-- A load-class result: the register written, with its old value visible to the next
instruction (R38). A load into g0 writes nothing. DEDUCED: log 112. -/
def Arch.loadG (a : Arch) (old : W64) (n : Nat) (v : W64) : Arch :=
  if n = 0 then a else { a.setG n v with delay := some (Delay.mk false n (old.setWidth 128)) }

def Arch.loadF (a : Arch) (old : W128) (n : Nat) (v : W128) : Arch :=
  { a.setF n v with delay := some (Delay.mk true n old) }

/-! ## Exception banks (R40, R49) -/

/-- First state register of the bank of level 1, 2 or 3. -/
def bankBase (b : Nat) : Nat := 0x28 + 8 * b

def Arch.fpe (a : Arch) : Bool := bit (a.srv 1) 12
def Arch.ie (a : Arch) : Bool := bit (a.srv 1) 13
def Arch.ipl (a : Arch) : Nat := fld (a.srv 1) 11 8

def Arch.setWin (a : Arch) (cwp res : Nat) : Arch := a.setSr 2 (pack [(12, 8, res), (4, 0, cwp)])

/-- An instruction retires: its architected state ends in a checkpoint of its own group
(R63, R138; DEDUCED, log 15). -/
def Thread.retire (t : Thread) (a : Arch) : Thread :=
  { t with cur := a, groups := t.groups ++ [a], seq := t.seq + 1 }

/-! ## Stores and loads of DRAM -/

/-- A cacheable load of `n` bytes within one line (R191, R202, R215, R220). DEDUCED: log 134. -/
def loadMem (m pa n : Nat) (s : State) : R (List Byte × State) := do
  let s1 ← combFirst m (lineOf pa) s
  match s1.acquire (m / 2) (s1.thr m).cur.chkPid (lineOf pa) false with
  | none => .error (s1.waits (m / 2) (lineOf pa))
  | some s2 =>
    if s2.poisoned (lineOf pa) then .error (.poison (lineOf pa) s2)
    else .ok (s2.view m pa n, s2.l1Read false (m / 2) (lineOf pa))

/-- Would a store log a line that the open epoch has not logged yet, with the backlog at T, or for a store of an XPOST
to a Class 0 queue (`c0`) at the budget (R377)? -/
def State.storeStalls (s : State) (c line : Nat) (c0 : Bool := false) : Bool :=
  let x := s.l2l c line
  (if c0 then s.stalledC0 else s.stalled) && !(x.ps && x.se == s.scn.epoch % 2)

/-- A store entered at the end of the store buffer, merging into the youngest entry of its line
where it may (R230, R231). -/
def pushStore (device : Bool) (st : Store) (gen : Nat) (sb : List SbEntry) : Option (List SbEntry) :=
  let line := lineOf st.addr
  let last := (sb.filter fun e => !e.device && e.line == line).getLast?
  let merge := !device && match last with
    | some e => e.fence.isNone && e.gen == gen
    | none => false
  if merge then
    some (sb.map fun e => if some e = last then { e with stores := e.stores ++ [st] } else e)
  else if sb.length < 32 then some (sb ++ [⟨device, line, [st], none, gen⟩])
  else none

/-- The STC in nanoseconds. -/
def State.stcNs (s : State) : Nat := s.stc.sec * 1000000000 + s.stc.ns

/-- A store that thread `m` retires now. -/
def State.newStore (s : State) (m pa : Nat) (bs : List Byte) : Store :=
  let t := s.thr m
  { addr := pa, bytes := bs, seq := t.seq + 1, ep := s.scn.epoch, who := 2 * t.cur.lcore + m % 2, pid := t.cur.chkPid,
    born := s.stcNs, desc := false }

/-- A store retires into the store buffer, unhardened (R139, R230). `c0`: a posting routine's to a Class 0 queue (R377);
`desc`: it sets a descriptor's flag (R88). -/
def storeMem (m pa : Nat) (bs : List Byte) (device : Bool) (s : State) (c0 : Bool := false) (desc : Bool := false) :
    R State := do
  let s1 ← if device then .ok s else combFirst m (lineOf pa) s
  if !device && s1.storeStalls (m / 2) (lineOf pa) c0 then .error .stall
  else
    let t := s1.thr m
    match pushStore device { s1.newStore m pa bs with desc := desc } t.barGen t.sb with
    | none => .error .wait
    | some sb => .ok (s1.setThr m { t with sb := sb })

/-- Nothing merges into the entries now in the buffer: the instruction that is about to retire fences them (R231). -/
def Thread.fence (t : Thread) : Thread :=
  { t with sb := t.sb.map fun e => { e with fence := some (e.fence.getD (t.seq + 1)) } }

/-- Exclusive ownership of a line gained: what an atomic, an STCD or an LDRV needs first (R75, R79); a line that the other
thread holds for a descriptor's flag is waited for (R88). -/
def ownLine (m line : Nat) (s : State) : R State := do
  let s1 ← if s.sibDesc m line then .error .wait else combFirst m line s
  match s1.acquire (m / 2) (s1.thr m).cur.chkPid line true with
  | none => .error (s1.waits (m / 2) line)
  | some s2 => .ok s2

/-- The thread's own stores to a line performed, oldest first; each waits for those from before a barrier that orders
them (R224, R232, R235). -/
def State.drainLine (m line : Nat) (s : State) : R State :=
  let es := (s.thr m).sb.filter fun e => !e.device && e.line == line
  if es.any fun e => (s.thr m).olderGen e.gen then .error .wait
  else .ok (es.foldl (fun s e => s.drainEntry m e) s)

/-- Do the buffers of thread `m` drain: its core runs, or is being spared, when they drain whatever its clock does
(R148, R149)? -/
def State.drains (s : State) (m : Nat) : Bool := s.islRuns (m / 2) || s.sparings.any fun x => x.core == m / 2

/-! ## The control store (R119, R124) -/

/-- The override of a dispatch index in core `c`, if its patch has one. -/
def State.override (s : State) (c idx : Nat) : Option (BitVec 16) :=
  ((s.core c).disp.find? fun p => p.1 == idx).map Prod.snd

/-- Is the dispatch entry of an index valid in core `c`: a ROM entry is, an override says so itself? -/
def State.csOk (s : State) (c idx : Nat) : Bool :=
  match s.override c idx with
  | some e => bit e 15
  | none => true

end Sys2Proof.Machine
end

