-- ==== Sys2Proof/Machine/Micro.lean ====
section
/-! DEFINITION. The control store and its microwords (05 R119-R121, R131). -/

namespace Sys2Proof.Machine

/-! ## Microwords (R121) -/

structure MicroWord where
  clen : Nat
  commit : Nat
  next : Nat
  cond : Nat
  target : Nat
  uop : Nat
  srcA : Nat
  srcB : Nat
  dest : Nat
  memop : Nat
  msize : Nat
  maddr : Nat
  mdata : Nat
  mspace : Nat
  imm : BitVec 32
  dop : Nat
  sreg : Nat
  srctl : Nat
  exc : Nat
  flg : Nat
  zero : Nat
  deriving DecidableEq, Repr

def MicroWord.ofBits (w : BitVec 160) : MicroWord :=
  { clen := fld w 159 157, commit := fld w 156 155, next := fld w 154 153, cond := fld w 152 148,
    target := fld w 147 133, uop := fld w 132 125, srcA := fld w 124 118, srcB := fld w 117 111,
    dest := fld w 110 104, memop := fld w 103 100, msize := fld w 99 97, maddr := fld w 96 90, mdata := fld w 89 83,
    mspace := fld w 82 81, imm := BitVec.ofNat 32 (fld w 80 49), dop := fld w 48 41, sreg := fld w 40 29,
    srctl := fld w 28 27, exc := fld w 26 19, flg := fld w 18 17, zero := fld w 16 9 }

/-- Exception codes that R52 assigns. -/
def excAssigned (c : Nat) : Bool := decide (1 ≤ c) && decide (c ≤ 0x13)

/-- The rules of check 0x19 (R121, R123, R133). DEDUCED: log 62. -/
def wordOk (w : BitVec 160) : Bool :=
  let m := MicroWord.ofBits w
  m.commit != 3 && (m.commit == 0 || (m.clen == 0 && m.exc == 0)) && m.srctl != 3 && m.flg != 3 &&
  decide (m.memop < 8) && decide (m.msize < 6) && (m.exc == 0 || excAssigned m.exc) &&
  (m.srctl == 0 || (srRow m.sreg).isSome)

/-- A word with its SEC-DED code, as the loader forms it (R120, R131). -/
def withEcc (w : BitVec 160) : BitVec 160 := setFld w 8 0 (Config.secded ((w >>> 9).setWidth 151)).toNat

/-- The word at a microaddress of core `c`; patch RAM that no patch has loaded reads 0 (R119). DESIGN CHOICE: log 176. -/
def State.microWord (s : State) (c pc : Nat) : BitVec 160 :=
  if pc < 0x6000 then Config.romWord pc else Map.get (fun _ => 0) (s.core c).pram pc

end Sys2Proof.Machine
end

