-- ==== Sys2Proof/Machine/TrellisXch.lean ====
section
/-! DEFINITION. How Trellis accepts an exchange, and its transform chain (11 R279-R287, R294-R296;
13 R357, R359; 15 R426; 16 R449, R451). -/

namespace Sys2Proof.Machine

/-! ## Stage 2 translation of AF = 1 addresses (R359) -/

/-- One walk: the leaf's base and size, or none where it faults or a table read is refused. -/
def trlWalk (p : Nat) (write : Bool) (input : Nat) :
    List (Nat × Nat × Nat) → Nat → State → Option (Nat × Nat) × State
  | [], _, s => (none, s)
  | (lvl, sh, bits) :: rest, base, s =>
    let a := base + 8 * (input / 2 ^ sh % 2 ^ bits)
    match s.trlRead p none a 8 with
    | (none, s1) => (none, s1)
    | (some (bs, bad), s1) =>
      let e := dwordAt bs 0
      if bad || !bit e 63 then (none, s1)
      else if bit e 62 then
        if lvl < 2 || leafBad true lvl e || !(if write then bit e 60 else bit e 61) then (none, s1)
        else
          let e' := if write then setBit (setBit e 58 true) 57 true else setBit e 58 true
          let s2 := if e' = e then (true, s1) else s1.trlWrite p none a (toBytes 8 e'.toNat)
          if s2.1 then (some (fld e 47 11 * 2048 / 2 ^ sh * 2 ^ sh, 2 ^ sh), s2.2) else (none, s2.2)
      else if lvl = 4 then (none, s1)
      else trlWalk p write input rest (fld e 47 11 * 2048) s1

/-- Every page of a range translated; its physical start, where the pages map to one physical
range. -/
def trlRange (p : Nat) (root : W64) (write : Bool) : Nat → Nat → Nat → Option Nat → State → Option Nat × State
  | 0, _, _, want, s => (want, s)
  | fuel + 1, a, n, want, s =>
    if n = 0 then (want, s)
    else if 2 ^ 48 ≤ a then (none, s)
    else
      match trlWalk p write a (walkLevels.drop 1) (fld root 47 11 * 2048) s with
      | (none, s1) => (none, s1)
      | (some (b, size), s1) =>
        let pa := b + a % size
        let m := min n (size - a % size)
        match want with
        | some w => if w = pa then trlRange p root write fuel (a + m) (n - m) (some (pa + m)) s1 else (none, s1)
        | none => trlRange p root write fuel (a + m) (n - m) (some (pa + m)) s1

/-- An address of a set in the form that its AF bit names, as a physical start. -/
def State.addrOf (s : State) (p set : Nat) (af write : Bool) (a n : Nat) : Option Nat × State :=
  let root := match s.vset? p set with
    | some v => v.root
    | none => 0
  if !af || !bit root 0 then (some a, s)
  else match trlRange p root write (n / 4096 + 2) a n none s with
    | (some e, s1) => (some (e - n), s1)
    | (none, s1) => (none, s1)

/-! ## The ECB (R279, R281) -/

def ecbNseg (b : List Byte) : Nat := fld (dwordAt b 0) 26 22
def ecbDlist (b : List Byte) : Nat := fld (dwordAt b 0x38) 47 4 * 16
def ecbAf (b : List Byte) : Bool := bit (dwordAt b 0x38) 0

/-- A run of `n` bytes in one granule. -/
def oneGranule (a n : Nat) : Bool := a / 0x10000 == (a + n - 1) / 0x10000

/-- Is the descriptor array where R281 wants it, in a form the set allows? -/
def ecbArrayOk (set : Nat) (b : List Byte) : Bool :=
  decide (ecbNseg b ≤ 16) && (set != 0 || !ecbAf b) &&
  (if ecbNseg b = 0 then ecbDlist b == 0 && !ecbAf b else oneGranule (ecbDlist b) (16 * ecbNseg b))

/-- The legality check of R285. -/
def ecbLegal (set cqnum : Nat) (b : List Byte) : Bool :=
  let w0 := dwordAt b 0
  let w6 := dwordAt b 0x30
  let w7 := dwordAt b 0x38
  let w8 := dwordAt b 0x40
  let rwin := fld w8 63 32
  fld w0 63 56 == 1 && fld w0 55 52 == 0 && fld w0 47 46 == 0 && fld w0 31 27 == 0 && fld w0 7 1 == 0 &&
  fld w6 63 60 == 0 && fld w6 39 36 == 0 && fld w6 31 24 == 0 && fld w6 15 0 == 0 &&
  fld w7 63 48 == 0 && fld w7 3 1 == 0 && fld w8 31 0 == 0 &&
  ((b.drop 0x48).all (· == 0)) && ecbArrayOk set b && fld w0 21 16 == cqnum &&
  (rwin == 0 || decide (1000 ≤ rwin) && decide (rwin ≤ 600000)) &&
  (!bit w0 51 || decide (1 ≤ fld w6 35 32) && decide (fld w6 35 32 ≤ 9) && decide (fld w6 23 16 ≤ 64))

/-- A descriptor as read, its address as given (R281). -/
def segOf (a : Nat) (b : List Byte) : Seg :=
  let w0 := dwordAt b 0
  { desc := a, dir := bit w0 61, af := bit w0 60, addr := fld w0 47 0, len := fld (dwordAt b 8) 24 0,
    gen := 0, flag := fld w0 63 62, done := 0 }

/-- The fields of a descriptor that R285 checks by themselves. -/
def segFieldsOk (set : Nat) (b : List Byte) : Bool :=
  let w0 := dwordAt b 0
  let w1 := dwordAt b 8
  fld w0 63 62 == 1 && fld w0 59 48 == 0 && fld w1 31 25 == 0 && fld w1 24 0 != 0 &&
  decide (fld w1 24 0 ≤ 2 ^ 24) && (set != 0 || !bit w0 60)

/-- The registered run that holds a range (R282). -/
def State.runOf (s : State) (p a n : Nat) : Option WinRun :=
  s.trl.runs.find? fun r => r.pid == p && decide (r.first * 0x10000 ≤ a) &&
    decide (a + n ≤ (r.first + r.num) * 0x10000)

/-- Segments resolved one by one: physical, each in one registered run; none where one fails. DEDUCED: log 108. -/
def segsGo (p set : Nat) : List (List Byte × Seg) → State → Option (List Seg) × State
  | [], s => (some [], s)
  | (b, g) :: rest, s =>
    if !segFieldsOk set b then (none, s)
    else match s.addrOf p set g.af g.dir g.addr g.len with
      | (none, s1) => (none, s1)
      | (some pa, s1) => match s1.runOf p pa g.len with
        | none => (none, s1)
        | some r => match segsGo p set rest s1 with
          | (none, s2) => (none, s2)
          | (some gs, s2) => (some ({ g with addr := pa, gen := r.gen } :: gs), s2)

/-- A descriptor array read: bytes of each descriptor with its segment; the sub-status otherwise. -/
def State.readDescs (s : State) (p set : Nat) (af : Bool) (dlist n : Nat) :
    Except Nat (List (List Byte × Seg)) × State :=
  if n = 0 then (.ok [], s)
  else match s.addrOf p set af false dlist (16 * n) with
    | (none, s1) => (.error 2, s1)
    | (some pa, s1) => match s1.trlRead p none pa (16 * n) with
      | (none, s2) => (.error 3, s2)
      | (some (bs, true), s2) => let _ := bs; (.error 4, s2)
      | (some (bs, false), s2) =>
        (.ok ((List.range n).map fun i => let b := (bs.drop (16 * i)).take 16; (b, segOf (pa + 16 * i) b)), s2)

/-! ## Acceptance (R284-R287) -/

/-- The device table's path word (R297). -/
def State.pathAddr (s : State) (p dev k : Nat) : Nat :=
  s.rf .trlDtbase [] 47 16 * 0x10000 + 64 * (s.rf .trlPcfg [p] 47 32 + dev) + 8 * k
def State.pathWord (s : State) (p dev k : Nat) : W64 := s.homeRdD (s.pathAddr p dev k)

/-- PATHMASK 0 means every path. -/
def inMask (mask k : Nat) : Bool := mask == 0 || mask.testBit k

/-- The encrypt form of an inline GOP (R451). -/
def gopInline (gop : Nat) : Bool := gop == 0x10 || gop == 0x20 || gop == 0x30

/-- Garnet's answer to an exchange's key, for the directions its XF asks for (R285, R437, R451). -/
def State.xchKey (s : State) (p set xf slot gop : Nat) : Nat :=
  if xf / 2 % 4 = 0 then 0
  else if !gopInline gop then 0x11
  else
    let e := if xf / 4 % 2 = 1 then s.keyStatus p set slot gop true false else 0
    if e ≠ 0 then e else if xf / 2 % 2 = 1 then s.keyStatus p set slot (gop + 1) true false else 0

/-- Ledger entries of Class 0 and of the other classes (R287, R357). -/
def State.c0On (s : State) (p : Nat) : Bool := s.rf .trlPcfg [p] 62 62 == 1
def State.ledgerSize (s : State) (p : Nat) : Nat := 2 ^ s.rf .trlLbase [p] 4 0
def State.entryFits (s : State) (p cls lidx : Nat) : Bool :=
  let n := s.ledgerSize p
  if cls = 0 then s.c0On p && decide (n ≤ lidx + 1024) && decide (lidx < n)
  else decide (lidx < n - (if s.c0On p then 1024 else 0))

def State.entryFree (s : State) (p lidx : Nat) : Bool :=
  !(s.trl.xchs.any fun x => x.pid == p && x.lidx == lidx) &&
  !(s.trl.kept.any fun k => k.pid == p && k.lidx == lidx)

/-- Entries of a set that are not FREE, outside Class 0 (R357). -/
def State.setUse (s : State) (p set : Nat) : Nat :=
  (s.trl.xchs.filter fun x => x.pid == p && x.set == set && x.cls != 0).length +
  (s.trl.kept.filter fun k => k.pid == p && k.set == set && k.cls != 0).length

def State.setQuota (s : State) (p set : Nat) : Nat :=
  if set = 0 then
    s.ledgerSize p - ((s.trl.sets.filter fun v => v.pid == p).map VSet.ledger).sum - (if s.c0On p then 1024 else 0)
  else match s.vset? p set with
    | some v => v.ledger
    | none => 0

/-- Does acceptance wait (R286)? -/
def State.acceptWaits (s : State) (p set cls : Nat) : Bool :=
  decide (1048576 ≤ (s.trl.xchs.filter fun x => x.pid == p).length) || decide (2097152 ≤ s.trl.xchs.length) ||
  (cls != 0 && decide (s.setQuota p set ≤ s.setUse p set))

/-- The exchange that a slot becomes, from its ECB; what its descriptors and keys add is empty. -/
def newXch (x : Sq) (slot lidx gen : Nat) (now : Stamp) (b : List Byte) : Xch :=
  let w0 := dwordAt b 0
  let w6 := dwordAt b 0x30
  { pid := x.pid, set := x.set, q := x.q, lidx := lidx, slot := slot, xsn := x.nextXsn, gen := gen,
    cls := x.cls, tag := dwordAt b 8, cmd := (b.drop 16).take 32, dev := fld w0 45 32, xf := fld w0 51 48,
    keyslot := fld w6 59 48, gop := fld w6 47 40, slevel := fld w6 35 32, sblk := fld w6 23 16,
    mask := fld w0 15 8, irq := bit w0 0, rwin := fld (dwordAt b 0x40) 63 32, state := 1, path := 0,
    ptried := 0, attempts := 0, handle := none, tpost := now, twire := none, segs := [], key := [],
    iv := none, frame := none, frameAddr := 0, inKey := none, stageAddr := 0, stageLen := 0, staged := [], cmpl := none, done := 0, frameRead := 0,
    blocksTaken := 0, inLanes := [], unitsDone := 0, spoiled := [], window := false, resent := false, aborting := false, poisoned := false, measured := false, copySent := false }

def Xch.outbound (x : Xch) : Bool := x.xf / 4 % 4 != 0
def Xch.inbound (x : Xch) : Bool := x.xf % 4 != 0

/-- Validation by R285, in order: the exchange as it will run, or the sub-status and engine status
that end it. -/
def State.validate (s : State) (sq : Sq) (x : Xch) (ecb : Option (List Byte × Bool))
    (ds : Except Nat (List (List Byte × Seg))) : Except (Nat × Nat) Xch × State :=
  match ecb with
  | none => (.error (3, 0), s)
  | some (_, true) => (.error (4, 0), s)
  | some (b, false) =>
    if !ecbLegal sq.set sq.cq b then (.error (1, 0), s)
    else match ds with
      | .error e => (.error (e, 0), s)
      | .ok ds =>
        if s.rf .trlPcfg [sq.pid] 14 0 ≤ x.dev then (.error (9, 0), s)
        else match segsGo sq.pid sq.set ds s with
          | (none, s1) => (.error (2, 0), s1)
          | (some gs, s1) =>
            let k := s1.xchKey sq.pid sq.set x.xf x.keyslot x.gop
            if k ≠ 0 then (.error (5, k), s1)
            else if !((List.range 8).any fun i => inMask x.mask i && bit (s1.pathWord sq.pid x.dev i) 63) then
              (.error (7, 0), s1)
            else (.ok { x with segs := gs }, s1)

/-- The IV of an outbound encryption, with the key as it stands at acceptance (R295, R451). -/
def State.takeIv (s : State) (x : Xch) : Except Nat Xch × State :=
  if x.xf / 4 % 2 = 0 then (.ok x, s)
  else match s.drawIv x.keyslot with
    | (some iv, s1) => (.ok { x with iv := some iv, key := (s.slot x.keyslot).key }, s1)
    | (none, s1) => (.error 0x13, s1)

/-- Is any path of the exchange usable (R298)? -/
def State.linkOn (s : State) (port : Nat) : Bool := s.rf .trlPortst [port] 63 63 == 1
def State.usable (s : State) (x : Xch) (k : Nat) : Bool :=
  let w := s.pathWord x.pid x.dev k
  bit w 63 && !bit w 62 && inMask x.mask k && s.linkOn (fld w 59 56)

/-- The ready slot at a queue's head becomes the exchange at ledger entry `lidx` (R284). `cancel`: the
queue is disabled or its partition is being reset, and the slot is accepted as CANCELLED 0x1. -/
def State.acceptSlot (s : State) (sq : Sq) (slot lidx : Nat) (cancel : Bool) : State :=
  let r1 := s.trlRead sq.pid none (sq.base + 128 * (slot % 2 ^ sq.k)) 128
  let b := match r1.1 with
    | some (b, false) => b
    | _ => List.replicate 128 0
  let r2 := if ecbArrayOk sq.set b then r1.2.readDescs sq.pid sq.set (ecbAf b) (ecbDlist b) (ecbNseg b)
    else (.ok [], r1.2)
  let s3 := (r2.2.modSq sq.pid sq.set sq.q fun q => { q with nextXsn := q.nextXsn + 1 }).modSq
    sq.pid sq.set sq.q fun q => { q with ring := q.ring.pop }
  let read := match r2.1 with
    | .ok ds => ds.map Prod.snd
    | .error _ => []
  let x0 := { newXch sq slot lidx (s.genOf sq.pid sq.set) s.stamp b with
    segs := read.filter fun g => g.flag == 1 }
  if cancel then s3.finishX x0 10 1
  else match s3.validate sq x0 r1.1 r2.1 with
    | (.error (sub, st), s4) => s4.finishX x0 9 sub st
    | (.ok x1, s4) => match s4.takeIv x1 with
      | (.error st, s5) => s5.finishX x0 9 5 st
      | (.ok x2, s5) =>
        let x3 := { x2 with window := !(List.range 8).any (s5.usable x2) }
        let s6 := (s5.modTrl fun t => { t with xchs := t.xchs ++ [x3] }).putEntry x3
        if x3.cls = 0 ∧ s6.scn.role = 1 then s6.epochClose else s6

/-- Is a Class 0 slot ready that could be accepted now? It is taken before a slot of any other class (R329). -/
def State.c0Ready (s : State) : Bool :=
  s.trl.sqs.any fun q => q.cls == 0 && q.ring.front.isSome && q.skipTo.isNone && !s.acceptWaits q.pid q.set 0 &&
    (List.range 1024).any fun i => s.entryFits q.pid 0 (s.ledgerSize q.pid - 1024 + i) &&
      s.entryFree q.pid (s.ledgerSize q.pid - 1024 + i)

/-- At T a hub block's write that would add a record waits at its home, so that a command that makes one has not happened
yet; Class 0's lines are pinned and may raise B up to the budget (R377). DEDUCED: log 40. -/
def State.hubStalled (s : State) (cls : Nat) : Bool := if cls = 0 then s.stalledC0 else s.stalled

/-- R284, with the free ledger entry that Trellis picks as the operand; Class 0 first (R329). DEDUCED: log 41. -/
def execAcceptance (p : Pid) (set : SetNo) (q : BitVec 6) (lidx : BitVec 20) (s : State) :
    Host.Outcome State Fault Refusal :=
  .next (match s.sq? p.val set.val q.toNat with
    | none => s
    | some sq => match sq.ring.front with
      | none => s
      | some slot =>
        let i := slot.idx
        if !s.trlOn || s.scn.role == 2 || s.acceptWaits p.val set.val sq.cls ||
            !s.entryFits p.val sq.cls lidx.toNat || !s.entryFree p.val lidx.toNat || sq.skipTo.isSome ||
            (sq.cls != 0 && s.c0Ready) || s.hubStalled sq.cls then s
        else s.acceptSlot { sq with ring := sq.ring.skip } i lidx.toNat (!sq.enabled || !s.setOn p.val set.val))

/-! ## The transform chain (R294-R296) -/

/-- Bytes of several ranges read for an exchange, concatenated; the sub-status otherwise. -/
def readSegs (p : Nat) : List Seg → State → Except Nat (List Byte) × State
  | [], s => (.ok [], s)
  | g :: gs, s =>
    match s.trlRead p (some g.gen) g.addr g.len with
    | (none, s1) => (.error 3, s1)
    | (some (bs, bad), s1) =>
      if bad then (.error 4, s1)
      else match readSegs p gs s1 with
        | (.ok r, s2) => (.ok (bs ++ r), s2)
        | (.error e, s2) => (.error e, s2)

/-- A lane's two datapaths disagreed (R449): record 0x0902, and the second time within one STC second
the lane leaves service. -/
def State.laneDisagree (s : State) (lane p : Nat) : State :=
  let s1 := s.fault blkGarnet clsContained 0x0902 p 0
  let again := s.gnt.laneErr.any fun e => e.1 == lane && e.2 == s.stc.sec
  let s2 := s1.modGnt fun g => { g with laneErr := (lane, s.stc.sec) :: g.laneErr.filter fun e => e.1 != lane }
  if again && !s.gnt.outLanes.contains lane then
    (s2.modGnt fun g => { g with outLanes := lane :: g.outLanes }).fault blkGarnet clsCorrected 0x0903 0 0
  else s2

/-- A counter field that grows by `n` and saturates. -/
def State.addRf (s : State) (r : Reg) (ix : List Nat) (hi lo n : Nat) : State :=
  s.setRf r ix hi lo (min (s.rf r ix hi lo + n) (2 ^ (hi + 1 - lo) - 1))

/-- An encryption: the output layout of R443. -/
def gopEncrypt (gop : Nat) (key iv aad p : List Byte) : Except Nat (List Byte) :=
  if gop = 0x10 then
    let b := aesEnc key (iv ++ [0, 0, 0, 0])
    .ok (b ++ cbcEnc key b (pkcs7 p))
  else if gop = 0x20 then
    if p.isEmpty then .error 0x16 else .ok (iv ++ ctrCrypt key iv 0 p)
  else
    let c := gcmEnc key iv aad p
    .ok (iv ++ c.1 ++ c.2)

/-- The matching decryption (R443); an error is a status of R450. -/
def gopDecrypt (gop : Nat) (key aad inp : List Byte) : Except Nat (List Byte) :=
  if gop = 0x11 then
    let c := inp.drop 16
    if inp.length < 32 ∨ c.length % 16 ≠ 0 then .error 0x16
    else match unpad (cbcDec key (inp.take 16) c) with
      | some p => .ok p
      | none => .error 0x19
  else if gop = 0x21 then
    if inp.length ≤ 12 then .error 0x16 else .ok (ctrCrypt key (inp.take 12) 0 (inp.drop 12))
  else if inp.length < 28 then .error 0x16
  else
    let n := inp.length - 28
    match gcmDec key (inp.take 12) aad ((inp.drop 12).take n) (inp.drop (12 + n)) with
    | some p => .ok p
    | none => .error 0x18

/-- Bytes of a Sieve block of an exchange. -/
def Xch.blkSize (x : Xch) : Nat := 4096 * (if x.sblk = 0 then 16 else x.sblk)

/-- The outbound transform of an input: Sieve, then Garnet; the frame, and whether a block failed
its self-check. -/
def Xch.outFrame (x : Xch) (inp : List Byte) : Except Nat (List Byte) × Bool :=
  let z : Except Nat (List Byte) × Bool :=
    if x.xf / 8 % 2 = 0 then (.ok inp, false)
    else
      let f := sieveFrame x.slevel x.blkSize x.spoiled inp
      (.ok f.1, f.2)
  match z.1 with
  | .error e => (.error e, z.2)
  | .ok f => (if x.xf / 4 % 2 = 0 then .ok f else gopEncrypt x.gop x.key (x.iv.getD []) x.cmd f, z.2)

/-- An address in the context area's staging, which the spec does not fix (DESIGN CHOICE, log 27). -/
def State.stagingAddr (s : State) : Nat × State :=
  let r := s.draw
  (s.rf .trlCtxbase [] 47 16 * 0x10000 + fld r.1 25 12 * 4096, r.2)

/-- Bytes that the outbound segments hold. -/
def Xch.rawLen (x : Xch) : Nat := ((x.segs.filter fun g => !g.dir).map Seg.len).sum

/-- What the outbound segments hold; empty where they cannot be read. -/
def State.rawIn (s : State) (x : Xch) : List Byte :=
  match (readSegs x.pid (x.segs.filter fun g => !g.dir) s).1 with
  | .ok b => b
  | .error _ => []

/-- Sieve blocks and Garnet units of the outbound transform. A unit is 4 KiB of Garnet's input: of the Sieve Frame where
Sieve runs first, else of what the segments hold (R294, R433). -/
def Xch.outBlocks (x : Xch) : Nat := if x.xf / 8 % 2 = 1 then ceilDiv x.rawLen x.blkSize else 0
def State.outUnits (s : State) (x : Xch) : Nat :=
  if x.xf / 4 % 2 = 0 then 0
  else if x.xf / 8 % 2 = 0 then ceilDiv x.rawLen 4096
  else ceilDiv (sieveFrame x.slevel x.blkSize x.spoiled (s.rawIn x)).1.length 4096

/-- Does the outbound transform still run? -/
def Xch.outRuns (x : Xch) : Bool := x.state == 1 && x.outbound && x.frame.isNone

/-- Have the lanes done the outbound transform (R294, R406, R434)? -/
def State.outDone (s : State) (x : Xch) : Bool :=
  decide (x.outBlocks ≤ x.blocksTaken) && x.inLanes.isEmpty && decide (s.outUnits x ≤ x.unitsDone)

/-- Bytes of egress staging in use: frames stay until their exchanges are terminal (R295). -/
def State.stagingUse (s : State) : Nat := (s.trl.xchs.map fun x => (x.frame.getD []).length).sum

/-- The outbound transform finishes (R294, R295, R426, R451). While its frame finds no room in egress staging,
whose size the spec leaves open, the exchange stays POSTED. DESIGN CHOICE: log 165. -/
def execTransformComplete (p : Pid) (lidx : BitVec 20) (s : State) : Host.Outcome State Fault Refusal :=
  .next (match s.xch? p.val lidx.toNat with
    | none => s
    | some x =>
      if !x.outRuns ∨ !s.outDone x ∨ s.scn.role = 2 ∨ s.hubStalled x.cls then s
      else
        match readSegs p.val (x.segs.filter fun g => !g.dir) s with
        | (.error sub, s1) => s1.finishX x 9 sub
        | (.ok inp, s1) =>
          -- the spec states no outcome for compressing nothing: the status is a free value
          if x.xf / 8 % 2 = 1 && inp.isEmpty then s1.draw.2.finishX x 9 5 (fld s1.draw.1 31 0)
          else
          let f := x.outFrame inp
          let s2 := if f.2 then s1.fault blkSieve clsCorrected 0x0802 0 0 else s1
          match f.1 with
          | .error st => s2.finishX x 9 5 st
          | .ok frame =>
            if Config.stagingBytes < s.stagingUse + frame.length then s
            else
              let a := s2.stagingAddr
              (a.2.hubWrite a.1 frame).keepXch { x with
                frame := some frame, frameAddr := a.1, blocksTaken := 0, unitsDone := 0,
                segs := x.segs.map fun g => if g.dir then g else { g with done := g.len } })

/-- The inbound staging area read back. A byte that no DMA wrote is a free value. -/
def State.stagedBytes (s : State) (x : Xch) : List Byte × State :=
  let n := (x.staged.map fun p => p.1 + 1).foldl max 0
  ((List.range n).map fun i =>
    match x.staged.find? fun p => p.1 == i with
    | some p => p.2
    | none => (Config.freeWord (s.free + i)).setWidth 8, { s with free := s.free + n })

/-- Output spread over segments in array order, `len` at most in each. -/
def spread : List Seg → List Byte → List (Seg × List Byte)
  | [], _ => []
  | g :: gs, bs => (g, bs.take g.len) :: spread gs (bs.drop g.len)

/-- Pieces written for an exchange; false where one is refused. -/
def writeSegs (p set : Nat) : List (Seg × List Byte) → State → Bool × State
  | [], s => (true, s)
  | (g, bs) :: rest, s =>
    if bs.isEmpty then writeSegs p set rest s
    else
      let r := s.setWrite p set (some g.gen) g.addr bs
      if r.1 then writeSegs p set rest r.2 else (false, r.2)

/-- What Garnet makes of the staged bytes; an error is the sub-status and the engine status (R296). The key held from
the first unit on is used whatever has become of its slot (R453). -/
def State.inPlain (s : State) (x : Xch) (inp : List Byte) : Except (Nat × Nat) (List Byte) :=
  if x.xf / 2 % 2 = 0 then .ok inp
  else
    let k := if x.inKey.isSome then 0 else s.keyStatus x.pid x.set x.keyslot (x.gop + 1) true false
    if k ≠ 0 then .error (5, k)
    else match gopDecrypt (x.gop + 1) (x.inKey.getD (s.slot x.keyslot).key) x.cmd inp with
      | .ok p => .ok p
      | .error e => if e = 0x18 then .error (10, 0x18) else .error (5, e)

/-- Garnet units and Sieve blocks of the inbound transform, which runs once the adapter has completed. -/
def Xch.inUnits (x : Xch) : Nat :=
  if x.xf / 2 % 2 = 1 then ceilDiv ((x.staged.map fun p => p.1 + 1).foldl max 0) 4096 else 0
def State.inBlocks (s : State) (x : Xch) : Nat :=
  if x.xf % 2 = 0 then 0
  else match s.inPlain x (s.stagedBytes x).1 with
    | .error _ => 0
    | .ok p => match readHdr p with
      | .error _ => 0
      | .ok h => h.nblk

/-- Have the lanes done the inbound transform (R296, R406, R434)? -/
def State.inDone (s : State) (x : Xch) : Bool :=
  decide (x.inUnits ≤ x.unitsDone) && x.inLanes.isEmpty && decide (s.inBlocks x ≤ x.blocksTaken)

/-- The inbound transform: Garnet, then Sieve; an error is the sub-status and the engine status
(R296). -/
def State.inTransform (s : State) (x : Xch) (inp : List Byte) : Except (Nat × Nat) (List Byte) :=
  let limit := ((x.segs.filter fun g => g.dir).map Seg.len).sum
  match s.inPlain x inp with
  | .error e => .error e
  | .ok p =>
    if x.xf % 2 = 1 then
      match unframe limit p with
      | .ok o => .ok o
      | .error e => .error (5, e)
    else if limit < p.length then .error (5, 0x17)
    else .ok p

/-- DONE of the inbound segments that output of `n` bytes fills in array order. -/
def fillDone : List Seg → Nat → List Seg
  | [], _ => []
  | g :: gs, n => if g.dir then { g with done := min n g.len } :: fillDone gs (n - g.len) else g :: fillDone gs n

/-- Does poison stand in the staged data that Trellis reads for an inbound transform (R308)? -/
def State.stagePoison (s : State) (x : Xch) : Bool :=
  !x.staged.isEmpty && (s.hubRead x.stageAddr ((x.staged.map fun p => p.1 + 1).foldl max 0)).2.1

/-- The inbound transform of an exchange that its adapter has completed (R296). ASTATUS keeps the adapter's status unless
the engine ends the exchange (R288). -/
def execInboundTransform (p : Pid) (lidx : BitVec 20) (s : State) : Host.Outcome State Fault Refusal :=
  .next ((match s.xch? p.val lidx.toNat with
    | none => s
    | some x => match x.cmpl with
      | none => s
      | some (st0, res) =>
        if s.scn.role = 2 ∨ !s.inDone x ∨ s.hubStalled x.cls then s
        else if s.stagePoison x then (s.hubRead x.stageAddr x.stageLen).2.2.finishX x 9 4 st0 res
        else
        let r := s.stagedBytes x
        match r.2.inTransform x r.1 with
        | .error (sub, st) => r.2.finishX x 9 sub (if sub = 5 then st else st0) res
        | .ok out =>
          let ps := spread (x.segs.filter fun g => g.dir) out
          match writeSegs x.pid x.set ps r.2 with
          | (false, s1) => s1.finishX x 9 3 st0 res
          | (true, s1) => s1.finishX { x with segs := fillDone x.segs out.length } 8 0 0 res).afterEnd p.val)

end Sys2Proof.Machine
end

