-- ==== Sys2Proof/Machine/TrellisPaths.lean ====
section
/-! DEFINITION. Trellis paths: messages, sends, redrive, path failure and restoration, aborts, port
links and withdrawal, the pairing term (11 R290, R297-R309; 12 R313-R328, R334-R345; 14 R387). -/

namespace Sys2Proof.Machine

/-! ## Threads by logical identity -/

/-- The thread that now carries a logical identity 2 × LCORE + THR: on a service core. -/
def State.threadOf (s : State) (lt : Nat) : Option Nat :=
  (List.range 112).find? fun m =>
    (s.thr m).cur.lcore == lt / 2 && m % 2 == lt % 2 && bit (s.reg .rstCoresvc) (m / 2)

/-! ## Posted MMIO stores (09 R240) -/

def State.mmioPort (s : State) (p : Nat) : MmioPort := Map.get MmioPort.reset s.mmio p
def State.modMmio (s : State) (p : Nat) (f : MmioPort → MmioPort) : State :=
  { s with mmio := Map.set MmioPort.reset s.mmio p (f (s.mmioPort p)) }

/-- Stores lost: a Store Loss with the thread's oldest one, and record 0x0120 at its core. A thread that a partition
reset has made another one since has no Store Loss. DEDUCED: log 113. -/
def State.loseStores (s : State) (lost : List MmioStore) : State :=
  let who := (lost.map fun x => (x.thread, x.pid)).eraseDups
  who.foldl (fun s w =>
    match lost.find? fun x => x.thread == w.1 && x.pid == w.2, s.threadOf w.1 with
    | some x, some m =>
      let mine := x.pid = 0 || (s.thr m).cur.pid = x.pid
      let s1 := if mine then s.modThr m fun t => { t with losses := t.losses ++ [x.addr] } else s
      s1.coreFault (m / 2) clsContained 0x0120 x.pid x.addr 0 (if mine then some m else none)
    | _, _ => s) s

/-- Every tracked store of a port is lost, and later ones are discarded until the path is restored. -/
def State.mmioLose (s : State) (p : Nat) : State :=
  (s.loseStores (s.mmioPort p).tracked).modMmio p fun x => { x with
    tracked := [], flushes := [], lost := true, skip := x.skip - x.tracked.length }

/-! ## Messages (R318-R324) -/

def State.mps (s : State) (port : Nat) : Nat := 128 * 2 ^ s.rf .trlPlink [port] 43 42
def State.term (s : State) : Nat := s.rf .trlTerm [] 15 0

/-- The bytes of a message (R321). -/
def TMsg.bytes (m : TMsg) : List Byte :=
  dwords [pack [(63, 56, m.typ), (55, 48, 1), (47, 32, m.gen), (31, 0, m.stream)], BitVec.ofNat 64 m.xsn,
    pack [(63, 48, m.term), (47, 46, m.cls), (45, 43, m.path), (31, 0, m.adev)], pack [(20, 0, m.handle)]] ++ m.body

/-- Segment entries of an exchange: direction, address, length (R323). -/
def Xch.entries (x : Xch) : List (Bool × Nat × Nat) :=
  (x.segs.filter fun g => if g.dir then !x.inbound else !x.outbound).map (fun g => (g.dir, g.addr, g.len)) ++
  (if x.inbound then [(true, x.stageAddr, x.stageLen)] else [])

def entryBytes (e : Bool × Nat × Nat) : List Byte :=
  dwords [pack [(63, 63, e.1.toNat), (47, 0, e.2.1)], pack [(24, 0, e.2.2)]]

/-- The traffic class of a Trellis class, and its virtual channel; 4 stands for what travels in TC0 (R319). -/
def tcOf (cls : Nat) : Nat := if cls = 0 then 7 else if cls < 4 then cls else 0
def vcOf (tc : Nat) : Nat := if tc = 7 then 1 else 0

/-- The class in which a message travels: path probes and fences go in TC0 (R319). -/
def TMsg.lane (m : TMsg) : Nat := if m.typ = 3 ∨ m.typ = 4 then 4 else m.cls

/-- The Vendor-Defined Message that carries a Trellis message: Type 1, routed by ID to the adapter function, under the
vendor ID, in the message's traffic class and channel (R318, R319). -/
structure Vdm where
  vendor : BitVec 16
  target : Nat
  tc : Nat
  vc : Nat
  payload : List Byte
  deriving DecidableEq, Repr

def TMsg.vdm (m : TMsg) : Vdm := ⟨Config.vendorId, m.rid, tcOf m.lane, vcOf (tcOf m.lane), m.bytes⟩

/-- A message about an exchange on path `k`. -/
def State.xchMsg (s : State) (x : Xch) (typ k : Nat) (body : List Byte) : TMsg :=
  { typ := typ, gen := x.gen, stream := x.stream, xsn := x.xsn, term := s.term, cls := x.cls, path := k,
    adev := fld (s.pathWord x.pid x.dev k) 31 0, handle := x.handle.getD 0, body := body,
    rid := fld (s.pathWord x.pid x.dev k) 55 40, ans := none }

/-- The EXCHX messages that carry the entries from `first` on (R324). -/
def State.exchxGo (s : State) (x : Xch) (k room : Nat) : Nat → Nat → List (Bool × Nat × Nat) → List TMsg
  | 0, _, _ => []
  | fuel + 1, first, es =>
    if es.isEmpty then []
    else s.xchMsg x 5 k (dwords [pack [(63, 59, first)]] ++ (es.take room).flatMap entryBytes) ::
      s.exchxGo x k room fuel (first + room) (es.drop room)

/-- EXCH, and EXCHX where the entries do not fit in one message (R323, R324). -/
def State.exchMsgs (s : State) (x : Xch) (k : Nat) : List TMsg :=
  let mps := s.mps (fld (s.pathWord x.pid x.dev k) 59 56)
  let es := x.entries
  let frame := x.frame.getD []
  let fits := 0x50 + 16 * es.length + (frame.length + 3) / 4 * 4 ≤ mps
  let room := (mps - 0x50) / 16
  let inline := if x.outbound ∧ fits then fit ((frame.length + 3) / 4 * 4) frame else []
  s.xchMsg x 1 k (x.cmd ++ dwords [pack [(63, 59, es.length), (31, 0, frame.length)],
      pack [(47, 0, if x.outbound ∧ ¬fits then x.frameAddr else 0)]] ++
      (es.take room).flatMap entryBytes ++ inline) ::
    s.exchxGo x k ((mps - 0x28) / 16) 16 room (es.drop room)

/-! ## Ports -/

/-- The first of a class that waits, taken out. -/
def Port.take (p : Port) (cls : Nat) : Option (TMsg × Port) :=
  match p.outbox.find? fun m => m.lane == cls with
  | some m => some (m, { p with outbox := p.outbox.erase m })
  | none => none

/-- What the port sends next: Class 0 before all else; then what travels in TC0; then the Classes 1 to 3 by weighted round
robin, where a class with nothing to send gives its turn to the next (R327, R328). DEDUCED: log 39. -/
def Port.next (w : Nat → Nat) (p : Port) : Option (TMsg × Port) :=
  let has := fun (c : Nat) => p.outbox.any fun m => m.lane == c
  if has 0 then p.take 0
  else if has 4 then p.take 4
  else if has p.turn && decide (p.used < w p.turn) then ({ p with used := p.used + 1 } : Port).take p.turn
  else match ((List.range 3).map fun i => (p.turn + i) % 3 + 1).find? has with
    | some c => ({ p with turn := c, used := 1 } : Port).take c
    | none => none

/-- A message leaves for the wire, or an answer for the adapter that read. DESIGN CHOICE: log 37. -/
def Port.emit (p : Port) (m : TMsg) : Port :=
  match m.ans with
  | some a => { p with answers := p.answers ++ [a] }
  | none => { p with wire := p.wire ++ [m] }

/-- What leaves in turn up to the next EXCH, whose leaving is a row of its own (FIRST_TLP). -/
def Port.run (w : Nat → Nat) : Nat → Port → Port
  | 0, p => p
  | n + 1, p =>
    match p.next w with
    | some (m, q) => if m.typ = 1 then p else Port.run w n (q.emit m)
    | none => p

/-- Does the module transmit on its ports: egress is not idled (R368, R471), and it is neither Joining nor Fenced (R20)? -/
def State.transmits (s : State) : Bool := !s.egressIdle && s.scn.role != 3 && s.scn.role != 4

/-- A port can transmit: its link is up, and the module transmits. -/
def State.canSend (s : State) (port : Nat) : Bool := s.linkOn port && s.transmits

/-- The weight of a class at a port (R344). -/
def State.weight (s : State) (port cls : Nat) : Nat := s.rf .trlParb [port] (8 * cls - 1) (8 * cls - 8)

/-- What waits at a port leaves as far as it may. -/
def State.portRun (s : State) (port : Nat) : State :=
  if s.canSend port then s.modPort port fun p => p.run (s.weight port) p.outbox.length else s

/-- Messages, or answers, that Trellis has produced for a port. -/
def State.portSend (s : State) (port : Nat) (ms : List TMsg) : State :=
  (s.modPort port fun p => { p with outbox := p.outbox ++ ms }).portRun port

/-- Does the pairing role bar Trellis from sends of its own: a Standby's follow its Active's, a Joining or Fenced module
transmits nothing (R20)? -/
def State.mute (s : State) : Bool := decide (2 ≤ s.scn.role) && decide (s.scn.role ≤ 4)

/-- Has the pairing term been exhausted: a TERM above 0xFFFF was needed (R342)? -/
def State.termSpent (s : State) : Bool :=
  match s.termWait with
  | some (hi, _) => decide (0xFFFF < hi)
  | none => false

/-- An output for a port: an Active holds it for the commit of the open epoch, with its OUT record
(R382, R387). An ABORT is not kept for a port that cannot transmit. DESIGN CHOICE: log 184. No EXCH leaves once the
pairing term is exhausted (R342). -/
def State.output (s : State) (x : Xch) (k : Nat) (abort : Bool) (ms : List TMsg) : State :=
  let port := fld (s.pathWord x.pid x.dev k) 59 56
  let s1 := if s.scn.running then
      s.scnRecord (.out s.scn.epoch (x.handle.getD 0) x.stream abort k x.xsn)
    else s
  if !abort && s.termSpent then s
  else if s.scn.role = 1 then
    { s1 with held := s1.held ++ [⟨s.scn.epoch, port, x.stream, x.xsn, ms, (s1.mmioPort port).held.length⟩] }
  else if abort && !s.canSend port then s1
  else s1.portSend port ms

/-- What has not left a port for an exchange is withdrawn: a send overtaken by a terminal state or by
a redrive. -/
def State.dropOut (s : State) (stream xsn : Nat) : State :=
  let mine := fun (m : TMsg) => m.stream == stream && m.xsn == xsn && (m.typ == 1 || m.typ == 5)
  { s with
    ports := (s.ports.map fun p => (p.1, { p.2 with outbox := p.2.outbox.filter fun m => !mine m })).filter
      fun p => p.2 != Port.empty p.1,
    held := (s.held.map fun h => { h with msgs := h.msgs.filter fun m => !mine m }).filter
      fun h => !h.msgs.isEmpty }

/-- An exchange ends, and nothing of it is sent any more. -/
def State.endX (s : State) (x : Xch) (st sub : Nat) (astatus : Nat := 0) (ares : W64 := 0) : State :=
  (s.dropOut x.stream x.xsn).finishX x st sub astatus ares

/-! ## Sends (R283, R290, R298, R300, R336) -/

/-- The segments that a send hands to the adapter become 0b10. -/
def Xch.toAdapter (x : Xch) (g : Seg) : Bool := g.flag == 1 && (if g.dir then !x.inbound else !x.outbound)

/-- Does poison stand in the staged egress frame (R308)? -/
def State.framePoison (s : State) (x : Xch) : Bool :=
  match x.frame with
  | some f => (s.hubRead x.frameAddr f.length).2.1
  | none => false

/-- An exchange handed to path `k`. Where its staged frame is poisoned it ends instead, before anything is sent (R308). -/
def State.issue (s : State) (x : Xch) (k : Nat) : State :=
  if s.framePoison x then ((s.endX x 9 4)).afterEnd x.pid
  else
  let s1 := x.segs.foldl (fun s g => if x.toAdapter g then s.segFlag x.pid x.set g 2 else s) s
  let x1 := { x with
    state := 2, path := k, resent := true, ptried := x.ptried ||| 2 ^ k, attempts := min (x.attempts + 1) 255,
    segs := x.segs.map fun g => if x.toAdapter g then { g with flag := 2 } else g }
  (s1.setXch x1).output x1 k false (s1.exchMsgs x1 k)

/-- The lowest-numbered usable path (R298). -/
def State.firstPath (s : State) (x : Xch) : Option Nat := (List.range 8).find? (s.usable x)
/-- The next usable path after `k`, cyclically (R300). -/
def State.nextPath (s : State) (x : Xch) (k : Nat) : Option Nat :=
  ((List.range 8).map fun i => (k + 1 + i) % 8).find? (s.usable x)

/-- Does a send wait: for its frame, for an earlier exchange of its stream on the same path, or for
one more than 63 back (R295, R298, R336)? -/
def State.sendWaits (s : State) (x : Xch) (k : Nat) : Bool :=
  (x.outbound && x.frame.isNone) ||
  s.trl.xchs.any fun y => y.pid == x.pid && y.set == x.set && y.q == x.q &&
    ((decide (y.xsn < x.xsn) && y.state == 1 && s.firstPath y == some k) || decide (y.xsn + 64 ≤ x.xsn))

/-- The staging area for inbound transformed data; the spec does not fix where or how large (DESIGN CHOICE, log 27). -/
def State.withStage (s : State) (x : Xch) : Xch × State :=
  if x.inbound && x.stageLen == 0 then
    let a := s.stagingAddr
    let n := a.2.draw
    ({ x with stageAddr := a.1, stageLen := fld n.1 23 0 + 1 }, n.2)
  else (x, s)

/-- The first send of an exchange, under the handle that Trellis gives it (R298, R320). -/
def execExchangeSend (p : Pid) (lidx : BitVec 20) (handle : BitVec 21) (s : State) :
    Host.Outcome State Fault Refusal :=
  .next (match s.xch? p.val lidx.toNat with
    | none => s
    | some x => match s.firstPath x with
      | none => s
      | some k =>
        if x.state ≠ 1 || s.mute || s.sendWaits x k || s.termWait.isSome || s.hubStalled x.cls ||
            s.trl.xchs.any (fun y => y.handle == some handle.toNat && !(y.pid == x.pid && y.lidx == x.lidx)) then s
        else
          let r := s.withStage { x with handle := some handle.toNat }
          r.2.issue r.1 k)

/-! ## Path failure and redrive (R299-R301) -/

/-- An exchange on a failed path moves to the next usable one, or waits with its window open. -/
def State.redrive (s : State) (x : Xch) : State :=
  match s.nextPath x x.path with
  | some k => (s.dropOut x.stream x.xsn).issue { x with window := true } k
  | none => (s.dropOut x.stream x.xsn).setXch { x with window := true, resent := false }

/-- Exchanges that wait for a usable path, unsent since their window opened, are sent where they have one now (R301). -/
def State.sendWaiting (s : State) : State :=
  if s.mute then s
  else (s.trl.xchs.filter fun x => x.window && decide (2 ≤ x.state) && !x.aborting && !x.resent).foldl
    (fun s x => if (s.nextPath x x.path).isSome then s.redrive x else s) s

/-- Path `k` of device `dev` of partition `p` marked failed. A withdrawal marks without a record. -/
def State.markPath (s : State) (withRec : Bool) (p dev k : Nat) : State :=
  let w := s.pathWord p dev k
  if !bit w 63 || bit w 62 then s
  else
    let port := fld w 59 56
    let s1 := s.hubWrD (s.pathAddr p dev k) (setBit w 62 true)
    let s2 := (s1.setRf .trlPortst [port] 62 62 1).incRf .trlPortst [port] 31 0
    if withRec then s2.fault (blkPort port) clsCorrected 0x0601 0 0 else s2

/-- Paths marked failed, and then the exchanges on those that were not failed before redriven (R299, R300, R317). A Standby
leaves its mirror's device table and exchanges alone (R384, R402). -/
def State.failPaths (s : State) (withRec : Bool) (ts : List (Nat × Nat × Nat)) : State :=
  if s.scn.role == 2 then s
  else
    let new := (ts.filter fun t => let w := s.pathWord t.1 t.2.1 t.2.2; bit w 63 && !bit w 62).map fun t => s.pathAddr t.1 t.2.1 t.2.2
    let s1 := ts.foldl (fun s t => s.markPath withRec t.1 t.2.1 t.2.2) s
    let ev := fun (x : Xch) => new.contains (s.pathAddr x.pid x.dev x.path) && decide (2 ≤ x.state) && !x.aborting
    (s1.trl.xchs.filter ev).foldl (fun s x => s.redrive x) s1

def State.failPath (s : State) (withRec : Bool) (p dev k : Nat) : State := s.failPaths withRec [(p, dev, k)]

/-- Every path word of the device table that partitions use, by partition, device and path. -/
def State.allPaths (s : State) : List (Nat × Nat × Nat) :=
  (List.range 49).flatMap fun p => (List.range (s.rf .trlPcfg [p] 14 0)).flatMap fun d =>
    (List.range 8).map fun k => (p, d, k)

/-- Every path through a port marked failed. -/
def State.failPort (s : State) (withRec : Bool) (port : Nat) : State :=
  s.failPaths withRec (s.allPaths.filter fun t => fld (s.pathWord t.1 t.2.1 t.2.2) 59 56 == port)

def execAckTimeout (p : Pid) (lidx : BitVec 20) (s : State) : Host.Outcome State Fault Refusal :=
  .next (match s.xch? p.val lidx.toNat with
    | none => s
    | some x => if x.state = 2 then s.failPath true x.pid x.dev x.path else s)

/-- A port's link goes down: its paths fail and its tracked MMIO stores are lost (R240, R299). -/
def execTrellisLinkDown (port : PortId) (s : State) : Host.Outcome State Fault Refusal :=
  .next (
    if !s.linkOn port.val then s
    else
      let s1 := (((s.setRf .trlPortst [port.val] 63 63 0).setRf .trlPlink [port.val] 63 60 0).setRf
        .trlPlink [port.val] 59 56 0).setRf .trlPlink [port.val] 40 40 0
      (s1.mmioLose port.val).failPort true port.val)

/-- The port's width setting in lanes; none where it is disabled (R344). -/
def maxWidth (v : Nat) : Nat := if v = 0 then 8 else if v = 1 then 4 else if v = 2 then 1 else 0

/-- Does a partition with Class 0 use the port (R345)? -/
def State.c0Port (s : State) (port : Nat) : Bool :=
  s.allPaths.any fun t => s.c0On t.1 && bit (s.pathWord t.1 t.2.1 t.2.2) 63 &&
    fld (s.pathWord t.1 t.2.1 t.2.2) 59 56 == port

/-- A port's link trains: speed 1 to 5, width 1, 4 or 8 (R313, R344, R345). -/
def execTrellisLinkUp (port : PortId) (speed width : BitVec 4) (s : State) :
    Host.Outcome State Fault Refusal :=
  .next (
    let v := s.reg .trlPlink [port.val]
    let maxw := maxWidth (fld v 47 46)
    let ok := decide (1 ≤ speed.toNat) && decide (speed.toNat ≤ 5) && (width == 1 || width == 4 || width == 8) &&
      decide (width.toNat ≤ maxw) && !bit v 41 && !(s.port port.val).withdrawing && !s.egressIdle
    if !ok then s
    else
      let c0 := speed.toNat = 5 ∧ 4 ≤ width.toNat
      let s1 := (((s.setRf .trlPortst [port.val] 63 63 1).setRf .trlPlink [port.val] 63 60 speed.toNat).setRf
        .trlPlink [port.val] 59 56 width.toNat).setRf .trlPlink [port.val] 40 40 (if c0 then 1 else 0)
      (if (speed.toNat < 5 ∨ width.toNat < maxw) ∧ s1.c0Port port.val then
        s1.fault (blkPort port.val) clsCorrected 0x0609 0 0
      else s1).sendWaiting)

/-- A message in TC0 about a path. -/
def State.pathMsg (s : State) (typ p dev k : Nat) : TMsg :=
  { typ := typ, gen := 0, stream := 0, xsn := 0, term := s.term, cls := 0, path := k,
    adev := fld (s.pathWord p dev k) 31 0, handle := 0, body := [], rid := fld (s.pathWord p dev k) 55 40, ans := none }

def State.sendPath (s : State) (typ : Nat) (t : Nat × Nat × Nat) : State :=
  let port := fld (s.pathWord t.1 t.2.1 t.2.2) 59 56
  if s.canSend port then s.portSend port [s.pathMsg typ t.1 t.2.1 t.2.2] else s

/-- Configured paths. -/
def State.vPaths (s : State) : List (Nat × Nat × Nat) :=
  s.allPaths.filter fun t => bit (s.pathWord t.1 t.2.1 t.2.2) 63

/-- Once a second a PROBE goes out on each failed path whose link is up (R299). -/
def execPathProbe (s : State) : Host.Outcome State Fault Refusal :=
  .next (if s.mute then s
    else (s.vPaths.filter fun t => bit (s.pathWord t.1 t.2.1 t.2.2) 62).foldl (State.sendPath · 3) s)

/-- The redrive window runs out. It is open too for an exchange that finds no usable path at its first send
(R301). -/
def execRedriveWindowExpiry (p : Pid) (lidx : BitVec 20) (s : State) : Host.Outcome State Fault Refusal :=
  .next (match s.xch? p.val lidx.toNat with
    | none => s
    | some x =>
      let onPath := if x.state = 1 then (s.firstPath x).isSome else s.usable x x.path
      let unsent := x.state == 1 && !(x.outbound && x.frame.isNone)
      if s.mute || !(x.window || unsent) || onPath || x.aborting then s
      else if x.twire.isNone then (s.endX x 9 7).afterEnd p.val
      else ((s.endX x 9 8).afterEnd p.val).fault blkTrellis clsContained 0x0603 p.val 0)

/-! ## The first TLP of a send (R290, R327, R328, R334) -/

/-- Nanoseconds from one stamp to another, and whether the time exceeds `us` microseconds. -/
def Stamp.span (a b : Stamp) (us : Nat) : Nat × Bool :=
  let t := fun (x : Stamp) => (x.sec * 10 ^ 9 + x.ns) * 65536 + x.frac
  ((t b - t a) / 65536, decide (us * 1000 * 65536 < t b - t a))

/-- The measurement of R334, for a Class 0 exchange's first send. -/
def State.measure (s : State) (port : Nat) (x : Xch) (now : Stamp) : State :=
  let r := x.tpost.span now (if s.scn.role = 1 then 16 else 6)
  let s1 := s.setRf .trlPc0 [port] 63 32 (max (s.rf .trlPc0 [port] 63 32) (min r.1 0xFFFFFFFF))
  if !r.2 then s1
  else
    let s2 := s1.incRf .trlPc0 [port] 31 16
    if (s.port port).rated608 = some s.stc.sec then s2
    else (s2.modPort port fun p => { p with rated608 := some s.stc.sec }).fault (blkPort port) clsCorrected 0x0608 0 0

/-- The next EXCH of a class leaves a port, if the class's turn has come; Class 0 goes first (R327). An EXCHX that follows
leaves at the next TLP boundary, when the port is next asked for anything, so that a Class 0 TLP that is ready by then goes
before it (R328). DEDUCED: log 39. -/
def execFirstTlp (port : PortId) (cls : BitVec 2) (s : State) : Host.Outcome State Fault Refusal :=
  .next (
    let s0 := s.portRun port.val
    match (s0.port port.val).next (s0.weight port.val) with
    | none => s0
    | some (m, q) =>
      if !s.canSend port.val || m.typ != 1 || m.cls != cls.toNat then s0
      else
        let s1 := s0.modPort port.val fun _ => q.emit m
        match s1.trl.xchs.find? fun x => x.stream == m.stream && x.xsn == m.xsn with
        | none => s1
        | some x =>
          if s.scn.role = 2 ∨ x.state = 1 then s1
          else
            let now := s1.stamp
            let s2 := s1.setXch { x with twire := some now, measured := true }
            if x.cls = 0 ∧ !x.measured ∧ x.attempts = 1 then s2.measure port.val x now else s2)

/-! ## Adapter messages (R302, R322) -/

/-- What Trellis makes of a message that names an exchange. -/
inductive MsgFor where
  | exch (x : Xch)
  | late (pid set : Nat)
  | malformed (pid : Nat)
  deriving DecidableEq, Repr

def State.msgFor (s : State) (m : AdapterMsg) : MsgFor :=
  let st := m.stream.toNat
  let live := s.trl.xchs.find? fun x => x.stream == st && x.xsn == m.xsn.toNat && x.gen == m.gen.toNat
  match live with
  | some x => .exch x
  | none => match s.trl.sqs.find? fun q => streamId q.pid q.set q.q == st with
    | none => .malformed 0
    | some q =>
      if m.gen.toNat ≠ s.genOf q.pid q.set ∨ m.xsn.toNat < q.nextXsn then .late q.pid q.set else .malformed q.pid

def State.malformed (s : State) (port pid : Nat) : State := s.fault (blkPort port) clsContained 0x060A pid 0

/-- A message for an exchange: discarded and accounted (R302, R345), or handed on. -/
def State.adapterMsg (s : State) (port : Nat) (m : AdapterMsg) (f : Xch → State → State) : State :=
  if s.term < m.term.toNat then s.malformed port (m.stream.toNat / 2 ^ 26)
  else match s.msgFor m with
    | .exch x => f x s
    | .late p set => s.lateMsg p set
    | .malformed p => s.malformed port p

/-- Bytes of an exchange that have arrived at a Standby. -/
def State.replayBytes (s : State) (stream xsn : Nat) : Nat :=
  (s.replay.filter fun i => i.stream == stream && i.xsn == xsn).foldl (fun n i => max n i.bytes) 0

/-- Bytes that a Replay Buffer item occupies; the spec states no format (DEDUCED, log 31). -/
def ReplayItem.size (i : ReplayItem) : Nat :=
  match i.dma with
  | some d => 64 + d.len
  | none => 64
def State.replayUse (s : State) : Nat := (s.replay.map ReplayItem.size).sum

/-- The Replay Buffer above 7/8 withholds VC0 credits and is recorded (R391). -/
def State.replayLevel (s : State) : State :=
  let n := s.replayUse
  if !s.replayFull && decide (224 * 2 ^ 20 < n) then
    ({ s with replayFull := true } : State).fault blkScion clsCorrected 0x0707 0 0
  else if s.replayFull && decide (n < 192 * 2 ^ 20) then { s with replayFull := false }
  else s

/-- An adapter message as an item. -/
def msgItem (port typ : Nat) (m : AdapterMsg) (res : W64) : ReplayItem :=
  { port := port, typ := typ, path := m.path.toNat, stream := m.stream.toNat, xsn := m.xsn.toNat, gen := m.gen.toNat,
    term := m.term.toNat, status := m.status.toNat, result := res, dma := none, bytes := 0 }

/-- The message that an item holds. -/
def ReplayItem.msg (i : ReplayItem) : AdapterMsg :=
  { stream := BitVec.ofNat 32 i.stream, xsn := BitVec.ofNat 64 i.xsn, gen := BitVec.ofNat 16 i.gen,
    term := BitVec.ofNat 16 i.term, path := BitVec.ofNat 3 i.path, adev := 0, status := BitVec.ofNat 32 i.status, handle := 0 }

/-- The class of an inbound item: its exchange's queue's, or its Trellis tag's (R319, R320). -/
def State.itemCls (s : State) (i : ReplayItem) : Nat :=
  match i.dma with
  | some d => match d.tag with
    | some t => t / 2 ^ 21 % 4
    | none => 1
  | none => match s.trl.sqs.find? fun q => streamId q.pid q.set q.q == i.stream with
    | some q => q.cls
    | none => 1

/-- May a Standby's Replay Buffer take an item: VC0 only while its credits are not withheld and outside the last 16 MiB,
VC1 in all of it (R391)? An item that must wait holds back what follows it at its port in the same channel. -/
def State.replayTakes (s : State) (i : ReplayItem) : Bool :=
  let vc1 := s.itemCls i == 0
  !(s.scn.waits.any fun j => j.port == i.port && (s.itemCls j == 0) == vc1) &&
  if vc1 then decide (s.replayUse + i.size ≤ 256 * 2 ^ 20)
  else !s.replayFull && decide (s.replayUse + i.size ≤ 240 * 2 ^ 20)

/-- An item put into the Replay Buffer, with the exchange's bytes that have arrived up to and including it (R390). -/
def State.putReplay (s : State) (i : ReplayItem) : State :=
  let n := match i.dma with
    | some d => d.len
    | none => 0
  ({ s with replay := s.replay ++ [{ i with bytes := s.replayBytes i.stream i.xsn + n }] } : State).replayLevel

/-- An inbound item kept back: by a Standby whose Replay Buffer has no place for it, or by a module at T (R377, R391). -/
def State.waitItem (s : State) (i : ReplayItem) : State :=
  { s with scn := { s.scn with waits := s.scn.waits ++ [i] } }

/-- A Standby keeps an inbound item for replay (R390, R391). -/
def State.keepReplay (s : State) (i : ReplayItem) : State := if s.replayTakes i then s.putReplay i else s.waitItem i

/-- Does an inbound item of a module that acts on it wait: at T, or behind another of its port that does (R377)? -/
def State.itemWaits (s : State) (i : ReplayItem) : Bool :=
  s.hubStalled (s.itemCls i) || s.scn.waits.any fun j => j.port == i.port && (s.itemCls j == 0) == (s.itemCls i == 0)

/-- ACK on path `k` (R290, R301): the redrive window closes when it acknowledges a send since the window opened. -/
def ackX (k : Nat) (x : Xch) (s : State) : State :=
  let x1 := { x with window := x.window && !(x.resent && k == x.path) }
  if x.state = 2 then s.setXch { x1 with state := 3 }
  else if x.state = 3 then s.keepXch x1 else s

/-- CMPL (R292, R296, R308). -/
def cmplX (status : Nat) (res : W64) (x : Xch) (s : State) : State :=
  if x.state < 2 ∨ x.cmpl.isSome then s
  else if x.poisoned then s.endX x 9 4 status res
  else if status ≠ 0 then s.endX x 9 6 status res
  else if x.inbound then (s.dropOut x.stream x.xsn).keepXch { x with cmpl := some (status, res) }
  else s.endX x 8 0 0 res

/-- ABTCFM binds: an exchange that has been sent ends, whatever ABORT it answers (R304, R317, R339). -/
def abtcfmX (x : Xch) (s : State) : State := if 2 ≤ x.state then s.endX x 10 2 else s

/-- PATHERR (R299). -/
def patherrX (k : Nat) (x : Xch) (s : State) : State := s.failPath true x.pid x.dev k

/-- One adapter message by type (R322), on a module that acts on it. -/
def State.applyMsg (s : State) (port typ : Nat) (m : AdapterMsg) (res : W64) : State :=
  if typ = 0x81 then s.adapterMsg port m (ackX m.path.toNat)
  else if typ = 0x82 then s.adapterMsg port m (cmplX m.status.toNat res)
  else if typ = 0x83 then s.adapterMsg port m abtcfmX
  else if typ = 0x85 then s.adapterMsg port m (patherrX m.path.toNat)
  else s.adapterMsg port m fun x s => s.lateMsg x.pid x.set

/-- An inbound message: a Standby keeps it, any other module acts on it, once its writes may be accepted. -/
def State.inbound (s : State) (port typ : Nat) (m : AdapterMsg) (res : W64) : State :=
  if !s.linkOn port || !s.trlOn then s
  else
    let s0 := s.portRun port
    if s0.scn.role = 2 then s0.keepReplay (msgItem port typ m res)
    else if s0.itemWaits (msgItem port typ m res) then s0.waitItem (msgItem port typ m res)
    else s0.applyMsg port typ m res

/-! ## Aborts (R304-R306) -/

def inScope (p : Nat) : AbortScope → Xch → Bool
  | .partition, x => x.pid == p
  | .set n, x => x.pid == p && x.set == n.val
  | .queue n q, x => x.pid == p && x.set == n.val && x.q == q.toNat

def State.inScopeXs (s : State) (p : Nat) (sc : AbortScope) : List Xch := s.trl.xchs.filter (inScope p sc)

/-- Step 3 of R304 for one exchange: never sent, it ends; otherwise an ABORT goes out on each usable
path it has used. -/
def State.abortX (s : State) (x : Xch) : State :=
  if x.state = 1 then s.endX x 10 1
  else if x.aborting then s
  else
    let x1 := { x with aborting := true }
    ((List.range 8).filter fun k => x.ptried.testBit k && s.usable x k).foldl
      (fun s k => s.output x1 k true [s.xchMsg x1 2 k []]) (s.keepXch x1)

def State.abortScope (s : State) (p : Nat) (sc : AbortScope) : State :=
  (s.inScopeXs p sc).foldl (fun s x => s.abortX x) s

/-- TRL.ABTO passes for an abort: what is still open ends CANCELLED 0x3, or 0x1 where nothing left
(R304). -/
def execAbortTimeout (p : Pid) (sc : AbortScope) (s : State) : Host.Outcome State Fault Refusal :=
  .next (if s.scn.role == 2 then s
    else ((s.inScopeXs p.val sc).foldl (fun s x =>
      if x.aborting then s.endX x 10 (if x.twire.isNone then 1 else 3) else s) s).afterEnd p.val)

def execAck (port : PortId) (m : AdapterMsg) (s : State) : Host.Outcome State Fault Refusal :=
  .next (s.inbound port.val 0x81 m 0)

def execCmpl (port : PortId) (m : AdapterMsg) (result : W64) (s : State) : Host.Outcome State Fault Refusal :=
  .next ((s.inbound port.val 0x82 m result).afterEnd (m.stream.toNat / 2 ^ 26))

def execAbtcfm (port : PortId) (m : AdapterMsg) (s : State) : Host.Outcome State Fault Refusal :=
  .next ((s.inbound port.val 0x83 m 0).afterEnd (m.stream.toNat / 2 ^ 26))

def execPatherr (port : PortId) (m : AdapterMsg) (s : State) : Host.Outcome State Fault Refusal :=
  .next (s.inbound port.val 0x85 m 0)

def execStale (port : PortId) (m : AdapterMsg) (s : State) : Host.Outcome State Fault Refusal :=
  .next (s.inbound port.val 0x86 m 0)

/-! ## Path restoration and the pairing term (R299, R301, R342) -/

/-- A new TERM, written to NVM before any message carries it. Where it would pass 0xFFFF the module keeps its TERM,
records 0x060B and from then on sends no EXCH: `termWait` holds the value it would need (R342). DEDUCED: log 169. -/
def State.raiseTerm (s : State) (seen : Nat) : State :=
  let t := max s.term seen + 1
  if 0xFFFF < t then ({ s with termWait := some (t, []) } : State).fault blkTrellis clsFatal 0x060B 0 0
  else s.setRf .trlTerm [] 15 0 t

/-- FENCE with the new TERM on every path; there is none when the term is exhausted (R342). -/
def State.fenceAll (s : State) : State := if s.termSpent then s else s.vPaths.foldl (State.sendPath · 4) s

/-- TRL.PORTST.FAILED of a port ends with the last failed path through it (R311). -/
def State.portWorks (s : State) (port : Nat) : State :=
  if s.vPaths.any fun t => let v := s.pathWord t.1 t.2.1 t.2.2; bit v 62 && fld v 59 56 == port then s
  else s.setRf .trlPortst [port] 62 62 0

/-- A path works again: exchanges that had no usable path are sent (R299, R301). DEDUCED: log 76. -/
def State.restorePath (s : State) (p dev k : Nat) : State :=
  let w := s.pathWord p dev k
  let port := fld w 59 56
  let s1 := s.hubWrD (s.pathAddr p dev k) (setBit w 62 false)
  ((s1.portWorks port).modMmio port fun x => { x with lost := false }).sendWaiting

/-- PROBERSP: a ready device restores its failed path; its TERM counts while a starting Solo waits for
it, and raises the module's as a Solo's path is restored. Any other with a higher TERM is discarded with 0x060A (R299, R342, R345). -/
def execProbersp (port : PortId) (m : AdapterMsg) (s : State) : Host.Outcome State Fault Refusal :=
  .next (
    if !s.linkOn port.val || s.scn.role == 2 then s
    else
      let mine := fun (t : Nat × Nat × Nat) =>
        let w := s.pathWord t.1 t.2.1 t.2.2
        fld w 59 56 == port.val && fld w 31 0 == m.adev.toNat && t.2.2 == m.path.toNat
      match s.termWait with
      | some (hi, ps) => { s with termWait := some (max hi m.term.toNat, ps.filter fun t => !mine t) }
      | none =>
        match s.vPaths.find? fun t => mine t && bit (s.pathWord t.1 t.2.1 t.2.2) 62 with
        | none => if s.term < m.term.toNat then s.malformed port.val 0 else s
        | some t =>
          if s.term < m.term.toNat ∧ (s.scn.role ≠ 0 ∨ m.status ≠ 0) then s.malformed port.val 0
          else if m.status ≠ 0 then s
          else if s.term < m.term.toNat then
            ((s.raiseTerm m.term.toNat).fenceAll).restorePath t.1 t.2.1 t.2.2
          else s.restorePath t.1 t.2.1 t.2.2)

/-- A starting Solo sets its TERM above every TERM received and fences every path (R342). -/
def execTermProbeTimeout (s : State) : Host.Outcome State Fault Refusal :=
  .next (match s.termWait with
    | none => s
    | some (hi, _) => if s.termSpent then s else (({ s with termWait := none } : State).raiseTerm hi).fenceAll)

/-- The PROBEs of a module that becomes Solo by the start rule (R342). -/
def State.startProbe (s : State) : State :=
  s.vPaths.foldl (State.sendPath · 3)
    { s with termWait := some (0, s.vPaths.filter fun t => s.linkOn (fld (s.pathWord t.1 t.2.1 t.2.2) 59 56)) }

/-! ## Partition reset (R304, R305) -/

/-- A free ledger entry for a set's slot of a class, within the set's LEDGER quota (R357), picked by a free value. -/
def State.pickFree (s : State) (p set cls : Nat) : Option Nat × State :=
  let ok := if cls ≠ 0 ∧ s.setQuota p set ≤ s.setUse p set then []
    else (List.range (s.ledgerSize p)).filter fun i => s.entryFits p cls i && s.entryFree p i
  let r := s.draw
  (ok[r.1.toNat % ok.length]?, r.2)

/-- The ready slots of a queue accepted as CANCELLED 0x1 until one finds no ledger entry; the rest are
left and counted. Slots that an earlier reset left never become exchanges (R305). -/
def State.cancelSlots (p set q : Nat) : Nat → State → Nat × State
  | 0, s => (0, s)
  | n + 1, s =>
    match s.sq? p set q with
    | none => (0, s)
    | some sq => match sq.skipTo.isSome, sq.ring.front with
      | true, _ => (0, s)
      | false, none => (0, s)
      | false, some slot =>
        match s.pickFree p set sq.cls with
        | (some i, s1) => State.cancelSlots p set q n (s1.acceptSlot { sq with ring := sq.ring.skip } slot.idx i true)
        | (none, s1) => ((sq.ring.skip.slots.filter fun x => x.st == .ready).length,
            s1.modSq p set q fun x => { x with ring := x.ring.skip, skipTo := some x.ring.tail })

/-- A partition reset reaches Trellis (R304, R305). -/
def State.trlReset (s : State) (p : Nat) : State :=
  let ids := 0 :: (s.trl.sets.filter fun v => v.pid == p).map VSet.id
  let s1 := ids.foldl (fun s n => s.bumpGen p n) s
  let s2 := s1.modTrl fun t => { t with
    sqs := t.sqs.map fun q => if q.pid = p then { q with enabled := false, ring := q.ring.voidAll.skip } else q,
    cqs := t.cqs.map fun q => if q.pid = p then { q with enabled := false } else q,
    sets := t.sets.map fun v => if v.pid = p then { v with enabled := false } else v,
    resetting := p :: t.resetting.filter (· != p) }
  let qs := s2.trl.sqs.filter fun q => q.pid == p
  let r := qs.foldl (fun (a : Nat × State) q =>
    let b := State.cancelSlots p q.set q.q (2 ^ q.k + 1) a.2
    (a.1 + b.1, b.2)) (0, s2.setRf .trlPstat [p] 63 63 0)
  let s3 := r.2.setRf .trlPstat [p] 51 32 (min r.1 0xFFFFF)
  let s4 := if r.1 = 0 then s3 else s3.fault blkTrellis clsContained 0x0607 p 0
  let s5 := s4.abortScope p .partition
  let s6 := s5.modAdmin p fun a => { a with ring := Ring.empty }
  (if (s6.admin p).running.isSome then s6 else s6.adminZero p).afterEnd p

/-- Are the buffers of a reset partition's threads empty (R245), with no core of the partition still in a sparing
(R153)? -/
def State.resetDrained (s : State) (x : PReset) : Bool :=
  (x.threads.all fun m => (s.thr m).sb.isEmpty && (s.thr m).cb.isEmpty) &&
  !(s.sparings.any fun y => (y.drop0 && (s.thr (2 * y.core)).cur.pid == x.pid) ||
    (y.drop1 && (s.thr (2 * y.core + 1)).cur.pid == x.pid))

/-- A partition reset whose buffers have drained reaches Trellis. -/
def execTrellisPartitionReset (p : Pid) (s : State) : Host.Outcome State Fault Refusal :=
  .next (match s.presets.find? fun x => x.pid == p.val with
    | none => s
    | some x =>
      if !s.resetDrained x then s
      else
        let s1 := { s with presets := s.presets.filter fun y => y.pid != p.val }
        if s.trlOn then s1.trlReset p.val else s1)

/-! ## Refused terminal writes (R308) -/

/-- Once a second a refused ledger or completion write is tried again, an admin completion's with them. -/
def execLedgerWriteRetry (p : Pid) (s : State) : Host.Outcome State Fault Refusal :=
  .next (
    if s.scn.role == 2 then s
    else
    let mine := s.trl.refused.filter fun r => r.pid == p.val
    let s1 := (s.modTrl fun t => { t with refused := t.refused.filter fun r => r.pid != p.val }).adminRetry p.val
    mine.foldl (fun s r => match r.ledger with
      | some l => s.terminal r.pid r.set r.cq r.lidx l r.irq r.entry
      | none => s.cqPost r.pid r.set r.cq r.lidx r.irq r.entry) s1)

/-- TRL.CTXBASE.EN. Exchanges that a module warm reset left open end as those of a partition reset (R310,
R494). -/
def State.trlEnable (s : State) : State :=
  if s.trlOn then s
  else
    let s1 := s.setRf .trlCtxbase [] 0 0 1
    ((s1.trl.xchs.map Xch.pid).eraseDups).foldl (fun s p =>
      (((s.setRf .trlPstat [p] 63 63 0).modTrl fun t => { t with resetting := p :: t.resetting.filter (· != p) }).abortScope
        p .partition).afterEnd p) s1

def execTrellisEnable (s : State) : Host.Outcome State Fault Refusal :=
  .next (s.cfgw .trlCtxbase [] (setBit (s.reg .trlCtxbase) 0 true)).trlEnable

/-! ## Withdrawal (R317) -/

/-- Exchanges whose PATH goes through a port. -/
def State.onPort (s : State) (port : Nat) : List Xch :=
  s.trl.xchs.filter fun x => decide (2 ≤ x.state) && fld (s.pathWord x.pid x.dev x.path) 59 56 == port

def execWithdraw (port : PortId) (s : State) : Host.Outcome State Fault Refusal :=
  .next ((s.failPort false port.val).modPort port.val fun p => { p with withdrawing := true })

/-- PERST set and the link disabled; MMIO stores still tracked there are lost with the link (R240, R317). -/
def State.portOff (s : State) (port : Nat) : State :=
  ((((((s.mmioLose port).modPort port fun p => { p with withdrawing := false, ending := false }).setRf .trlPlink [port] 41 41 1).setRf .trlPortst [port] 63 63 0).setRf
    .trlPlink [port] 63 60 0).setRf .trlPlink [port] 59 56 0).setRf .trlPlink [port] 40 40 0

/-- The end of the wait: what is still open on the port is aborted there and goes on elsewhere, and then the port goes off.
An Active holds the ABORTs for the commit of their epoch, which it closes, and the port goes off once they have left (R317,
R387). DEDUCED: log 180. -/
def execWithdrawWaitEnd (port : PortId) (s : State) : Host.Outcome State Fault Refusal :=
  .next (
    if !(s.port port.val).withdrawing || (s.port port.val).ending then s
    else
      let s1 := (s.onPort port.val).foldl (fun s x => s.output x x.path true [s.xchMsg x 2 x.path []]) s
      if s1.scn.role = 1 ∧ s1.held.any fun h => h.port == port.val then
        (s1.modPort port.val fun p => { p with ending := true }).epochClose
      else s1.portOff port.val)

/-- A withdrawn port whose ABORTs have left goes off. -/
def State.portEnds (s : State) (port : Nat) : State :=
  if (s.port port).ending && !(s.held.any fun h => h.port == port) then s.portOff port else s

end Sys2Proof.Machine
end

