-- ==== Sys2Proof/Machine/TrellisAdmin.lean ====
section
/-! DEFINITION. The Admin Queue's commands: queues, Virtual Channel Sets, dirty-page logs
(13 R346-R364). -/

namespace Sys2Proof.Machine

/-! ## Taking and finishing a command (R346-R352) -/

/-- A command as its slot gives it (R349). -/
structure AdminCmd where
  opc : Nat
  cid : Nat
  set : Nat
  cqf : Bool
  queue : Nat
  p0 : W64
  p1 : W64
  p2 : W64
  /-- Every field marked Zero is zero, and SET is a set's number. -/
  ok : Bool
  deriving DecidableEq, Repr

def adminOf (b : List Byte) : AdminCmd :=
  let w0 := dwordAt b 0
  let w1 := dwordAt b 8
  { opc := fld w0 63 56, cid := fld w0 15 0, set := fld w1 42 32, cqf := bit w1 6, queue := fld w1 5 0,
    p0 := dwordAt b 16, p1 := dwordAt b 24, p2 := dwordAt b 32,
    ok := fld w0 55 16 == 0 && fld w1 63 43 == 0 && fld w1 31 7 == 0 && decide (fld w1 42 32 ≤ 1024) &&
      (b.drop 0x28).all (· == 0) }

/-- The next command of partition `p`, if Trellis may start it (R347), with the slot taken. A slot that
cannot be read, or is poisoned, gives free bytes (DESIGN CHOICE, log 33). -/
def State.adminNext (s : State) (p : Nat) : Option (AdminCmd × State) :=
  let a := s.admin p
  if !s.trlOn || s.rf .trlAq [p] 0 0 == 0 || s.scn.role == 2 || s.stalled || a.running.isSome || a.waiting.isSome then none
  else match a.ring.front with
    | none => none
    | some slot =>
      let r := s.trlRead p none (s.rf .trlAq [p] 47 14 * 2 ^ 14 + 128 * (slot.idx % 64)) 128
      let b := match r.1 with
        | some (b, false) => (b, r.2)
        | _ => r.2.drawBytes 128
      some (adminOf b.1, b.2.modAdmin p fun a => { a with ring := a.ring.pop })

/-- A command that ends at once: its results, or the status that refuses it. -/
def State.adminEnd (s : State) (p cid : Nat) (r : Except Nat (State × W64 × W64 × W64)) : State :=
  match r with
  | .ok (s1, r0, r1, r2) => s1.adminDone p cid 0 r0 r1 r2
  | .error st => s.adminDone p cid st 0 0 0

/-- The next command, if its OPC is `opc`. -/
def State.adminRun (s : State) (p opc : Nat) (f : AdminCmd → State → State) : State :=
  match s.adminNext p with
  | none => s
  | some (c, s1) => if c.opc = opc then f c s1 else s

/-- The first status whose condition holds (R352). -/
def firstBad : List (Nat × Bool) → Nat
  | [] => 0
  | (st, b) :: rest => if b then st else firstBad rest

/-- A command whose checks come first. -/
def adminIf (bad : Nat) (r : State × W64 × W64 × W64) : Except Nat (State × W64 × W64 × W64) :=
  if bad = 0 then .ok r else .error bad

/-! ## Queues (R353, R354) -/

/-- Does the set exist for the partition? -/
def State.hasSet (s : State) (p set : Nat) : Bool := set == 0 || (s.vset? p set).isSome

/-- Ring alignment and granules. -/
def State.ringOk (s : State) (p a size : Nat) : Bool := a % size == 0 && (s.rangeCause p none a size).isNone

def State.sqsOf (s : State) (p set : Nat) : List Sq := s.trl.sqs.filter fun q => q.pid == p && q.set == set
def State.cqsOf (s : State) (p set : Nat) : List Cq := s.trl.cqs.filter fun q => q.pid == p && q.set == set

/-- Has the set no room for one more queue of a kind (R354, R356)? -/
def State.queuesFull (s : State) (p set : Nat) (cq : Bool) : Bool :=
  let n := if cq then (s.trl.cqs.filter fun q => q.pid == p).length else (s.trl.sqs.filter fun q => q.pid == p).length
  decide (64 ≤ n) || match s.vset? p set with
    | none => false
    | some v => set != 0 &&
      if cq then decide (v.ncq ≤ (s.cqsOf p set).length) else decide (v.nsq ≤ (s.sqsOf p set).length)

def createCq (p : Nat) (c : AdminCmd) (s : State) : Except Nat (State × W64 × W64 × W64) :=
  let k := fld c.p1 12 8
  let cls := fld c.p1 17 16
  let lvl := fld c.p1 3 0
  let bad := !c.ok || !c.cqf || fld c.p1 63 30 != 0 || fld c.p1 23 18 != 0 || fld c.p1 15 13 != 0 ||
    fld c.p1 7 4 != 0 || decide (k < 4) || decide (16 < k) ||
    (if cls = 0 then lvl != 11 else decide (lvl < 1) || decide (7 < lvl))
  let q : Cq := { pid := p, set := c.set, q := c.queue, base := c.p0.toNat, k := k, cls := cls, level := lvl,
                  enabled := false, head := 0, tail := 0, live := [], waiting := [] }
  adminIf (firstBad [(1, bad), (2, s.queuesFull p c.set true), (3, !s.ringOk p c.p0.toNat (32 * 2 ^ k)),
      (4, !s.hasSet p c.set), (5, (s.cq? p c.set c.queue).isSome), (7, cls == 0 && !s.c0On p)])
    ((s.modTrl fun t => { t with cqs := t.cqs ++ [q] }).pinSync, 0, 0, 0)

def createSq (p : Nat) (c : AdminCmd) (s : State) : Except Nat (State × W64 × W64 × W64) :=
  let k := fld c.p1 12 8
  let cls := fld c.p1 17 16
  let cqn := fld c.p1 29 24
  let other := match s.cq? p c.set cqn with
    | some q => q.cls != cls
    | none => false
  let bad := !c.ok || c.cqf || fld c.p1 63 30 != 0 || fld c.p1 23 18 != 0 || fld c.p1 15 13 != 0 ||
    fld c.p1 7 0 != 0 || decide (k < 4) || decide (16 < k) || other
  let q : Sq := { pid := p, set := c.set, q := c.queue, base := c.p0.toNat, k := k, cls := cls, cq := cqn,
                  enabled := false, ring := Ring.empty, nextXsn := 1, skipTo := none }
  adminIf (firstBad [(1, bad), (2, s.queuesFull p c.set false), (3, !s.ringOk p c.p0.toNat (128 * 2 ^ k)),
      (4, !s.hasSet p c.set || (s.cq? p c.set cqn).isNone), (5, (s.sq? p c.set c.queue).isSome),
      (7, cls == 0 && !s.c0On p)])
    ((s.modTrl fun t => { t with sqs := t.sqs ++ [q] }).pinSync, 0, 0, 0)

/-- Is the completion queue that a submission queue names enabled? -/
def State.cqEnabled (s : State) (q : Sq) : Bool :=
  match s.cq? q.pid q.set q.cq with
  | some c => c.enabled
  | none => false

/-- SQ head moves past every slot reserved before a reset that left slots (R305). -/
def Sq.skipOld (q : Sq) : Sq :=
  match q.skipTo with
  | none => q
  | some n => { q with ring := { q.ring with head := n, slots := q.ring.slots.filter fun x => n ≤ x.idx }, skipTo := none }

def enableQ (p : Nat) (c : AdminCmd) (s : State) : Except Nat (State × W64 × W64 × W64) :=
  let none_ := !s.hasSet p c.set ||
    (if c.cqf then (s.cq? p c.set c.queue).isNone else (s.sq? p c.set c.queue).isNone)
  let wrong := match s.sq? p c.set c.queue with
    | some q => !c.cqf && (!s.cqEnabled q || !s.setOn p c.set)
    | none => false
  adminIf (firstBad [(1, !c.ok), (4, none_), (5, wrong)])
    (if c.cqf then s.modCq p c.set c.queue fun q => { q with enabled := true }
      else s.modSq p c.set c.queue fun q => { q.skipOld with enabled := true }, 0, 0, 0)

/-- A command that waits for exchanges to end (R361). -/
def State.adminWait (s : State) (p : Nat) (c : AdminCmd) (queue : Option Nat) (res : W64) : State :=
  (s.modAdmin p fun a => { a with running := some ⟨c.cid, c.set, queue, res, c.opc⟩ }).adminCheck p

def disableQ (p : Nat) (c : AdminCmd) (s : State) : State :=
  let named := (s.sqsOf p c.set).any fun q => q.cq == c.queue && q.enabled
  let bad := firstBad [(1, !c.ok), (4, !s.hasSet p c.set ||
      (if c.cqf then (s.cq? p c.set c.queue).isNone else (s.sq? p c.set c.queue).isNone)), (5, c.cqf && named)]
  if bad ≠ 0 then s.adminDone p c.cid bad 0 0 0
  else if c.cqf then (s.modCq p c.set c.queue fun q => { q with enabled := false }).adminDone p c.cid 0 0 0 0
  else if h : c.set < 1025 then
    ((s.modSq p c.set c.queue fun q => { q with enabled := false }).abortScope p
      (.queue ⟨c.set, h⟩ (BitVec.ofNat 6 c.queue))).adminWait p c (some c.queue) 0
  else s

/-- Has a set, or one of its queues, entries that are not FREE? -/
def State.inUse (s : State) (p set : Nat) (q : Option Nat) : Bool :=
  (s.trl.xchs.any fun x => x.pid == p && x.set == set && (q.isNone || q == some x.q)) ||
  (s.trl.kept.any fun k => k.pid == p && k.set == set && (q.isNone || q == some k.q))

def deleteQ (p : Nat) (c : AdminCmd) (s : State) : Except Nat (State × W64 × W64 × W64) :=
  let none_ := !s.hasSet p c.set ||
    (if c.cqf then (s.cq? p c.set c.queue).isNone else (s.sq? p c.set c.queue).isNone)
  let on := if c.cqf then
      (match s.cq? p c.set c.queue with | some q => q.enabled | none => false) ||
        (s.sqsOf p c.set).any fun q => q.cq == c.queue
    else match s.sq? p c.set c.queue with | some q => q.enabled | none => false
  let s1 := s.modTrl fun t =>
    if c.cqf then { t with cqs := t.cqs.filter fun q => !(q.pid == p && q.set == c.set && q.q == c.queue) }
    else { t with sqs := t.sqs.filter fun q => !(q.pid == p && q.set == c.set && q.q == c.queue) }
  adminIf (firstBad [(1, !c.ok), (4, none_), (5, on), (6, !c.cqf && s.inUse p c.set (some c.queue))])
    (s1.pinSync, 0, 0, 0)

/-! ## Sets (R355-R361) -/

/-- The quota layout of R350. -/
def quotaBad (p0 p1 : W64) : Bool :=
  decide (64 < fld p0 63 57) || decide (64 < fld p0 56 50) || fld p0 25 0 != 0 || fld p1 63 21 != 0
def quotaWord (nsq ncq nsve ngnt bw : Nat) : W64 :=
  pack [(63, 57, nsq), (56, 50, ncq), (49, 46, nsve), (45, 34, ngnt), (33, 26, bw)]

/-- Would the pool be exceeded with quotas `p0` and `p1` for a set beside the others (R356)? -/
def State.poolBad (s : State) (p set : Nat) (p0 p1 : W64) : Bool :=
  let os := s.trl.sets.filter fun v => v.pid == p && v.id != set
  let above := fun (f : VSet → Nat) (n lim : Nat) => decide (lim < (os.map f).sum + n)
  above VSet.nsq (fld p0 63 57) (s.rf .trlPoola [p] 63 57) || above VSet.ncq (fld p0 56 50) (s.rf .trlPoola [p] 56 50) ||
  above VSet.nsve (fld p0 49 46) (s.rf .trlPoola [p] 49 46) || above VSet.ngnt (fld p0 45 34) (s.rf .trlPoola [p] 45 34) ||
  above VSet.bw (fld p0 33 26) 256 || above VSet.ledger (fld p1 20 0) (s.rf .trlPoola [p] 20 0)

/-- The lowest number that no set of the module has (R359). -/
def State.freeSet (s : State) : Option Nat :=
  ((List.range 1024).map (· + 1)).find? fun i => !s.trl.sets.any fun v => v.id == i

def createVcs (p : Nat) (c : AdminCmd) (s : State) : Except Nat (State × W64 × W64 × W64) :=
  let root := c.p2
  let bad := !c.ok || c.set != 0 || quotaBad c.p0 c.p1 || fld root 63 60 != 0 || fld root 10 1 != 0
  let full := s.poolBad p 0 c.p0 c.p1 || s.freeSet.isNone ||
    decide (s.rf .trlPoolb [p] 42 32 ≤ (s.trl.sets.filter fun v => v.pid == p).length)
  let n := s.freeSet.getD 0
  let v : VSet := {
    pid := p, id := n, enabled := false, nsq := fld c.p0 63 57, ncq := fld c.p0 56 50, nsve := fld c.p0 49 46,
    ngnt := fld c.p0 45 34, bw := fld c.p0 33 26, ledger := fld c.p1 20 0, root := root, late := 0 }
  let s1 := (s.modTrl fun t => { t with sets := t.sets ++ [v] }).bumpGen p n
  adminIf (firstBad [(1, bad), (2, full)]) (s1, pack [(42, 32, n), (15, 0, s1.genOf p n)], 0, 0)

def genWord (s : State) (p set : Nat) : W64 := pack [(15, 0, s.genOf p set)]

/-- Not a set of the partition's own; the base set is none. DEDUCED: log 168. -/
def State.noVcs (s : State) (p set : Nat) : Bool := set == 0 || (s.vset? p set).isNone

def enableVcs (p : Nat) (c : AdminCmd) (s : State) : Except Nat (State × W64 × W64 × W64) :=
  adminIf (firstBad [(1, !c.ok), (4, s.noVcs p c.set)])
    (s.modVset c.set fun v => { v with enabled := true }, genWord s p c.set, 0, 0)

/-- The generation advances and every queue of the set is disabled (R306, R361). -/
def State.disableSet (s : State) (p set : Nat) : State :=
  let s1 := (s.bumpGen p set).modTrl fun t => { t with
    sets := t.sets.map fun v => if v.id = set then { v with enabled := false } else v,
    sqs := t.sqs.map fun q => if (q.pid = p ∧ q.set = set) then { q with enabled := false } else q,
    cqs := t.cqs.map fun q => if (q.pid = p ∧ q.set = set) then { q with enabled := false } else q }
  if h : set < 1025 then s1.abortScope p (.set ⟨set, h⟩) else s1

/-- RESET_VCS and REMOVE_VCS: the completion queues at 0, then the slots that are ready accepted as CANCELLED 0x1 under the
new generation (R361, R362). DEDUCED: log 52. -/
def State.cancelReady (s : State) (p set : Nat) : State :=
  (s.sqsOf p set).foldl (fun s q => (State.cancelSlots p set q.q (2 ^ q.k + 1) s).2) (s.zeroCqs p set)

/-- DISABLE_VCS, RESET_VCS, REMOVE_VCS after their checks; `adminCheck` finishes them. -/
def stopVcs (p : Nat) (c : AdminCmd) (s : State) : State :=
  let bad := firstBad [(1, !c.ok), (4, s.noVcs p c.set), (6, c.opc != 0x12 && s.inUse p c.set none)]
  if bad ≠ 0 then s.adminDone p c.cid bad 0 0 0
  else
    let s0 := s.disableSet p c.set
    let s1 := if c.opc = 0x12 then s0 else s0.cancelReady p c.set
    s1.adminWait p c none (if c.opc = 0x14 then 0 else genWord s1 p c.set)

/-- Sieve contexts bound to a set (R428). -/
def State.sveUse (s : State) (p set : Nat) : Nat :=
  ((List.range 15).filter fun i => (s.ctx 0 p i).state != 0 && s.rf .sveBind [p, i] 42 32 == set).length

def resizeVcs (p : Nat) (c : AdminCmd) (s : State) : Except Nat (State × W64 × W64 × W64) :=
  let below := decide (fld c.p0 63 57 < (s.sqsOf p c.set).length) || decide (fld c.p0 56 50 < (s.cqsOf p c.set).length) ||
    decide (fld c.p0 49 46 < s.sveUse p c.set) || decide (fld c.p0 45 34 < s.bound c.set) ||
    decide (fld c.p1 20 0 < s.setUse p c.set)
  let none_ := s.noVcs p c.set
  adminIf (firstBad [(1, !c.ok || quotaBad c.p0 c.p1), (2, !none_ && s.poolBad p c.set c.p0 c.p1), (4, none_), (5, below)])
    (s.modVset c.set fun v => { v with
      nsq := fld c.p0 63 57, ncq := fld c.p0 56 50, nsve := fld c.p0 49 46, ngnt := fld c.p0 45 34,
      bw := fld c.p0 33 26, ledger := fld c.p1 20 0 }, 0, 0, 0)

/-- The results of QUERY_VCS (R350); with SET = 0 those of the base set and the pool. -/
def queryVcs (p : Nat) (c : AdminCmd) (s : State) : Except Nat (State × W64 × W64 × W64) :=
  let mine := s.trl.sets.filter fun v => v.pid == p
  let on := if c.set = 0 then s.rf .trlPcfg [p] 63 63 == 1 else (s.vset? p c.set).any VSet.enabled
  let r0 := pack [(63, 62, if on then 2 else 1), (15, 0, s.genOf p c.set)]
  let used := if c.set = 0 then
      (s.trl.xchs.filter fun x => x.pid == p).length + (s.trl.kept.filter fun k => k.pid == p).length
    else s.setUse p c.set
  let late := if c.set = 0 then min (Map.get zeroNat s.trl.baseLate p + (mine.map VSet.late).sum) 0xFFFFFFFF
    else match s.vset? p c.set with
      | some v => v.late
      | none => 0
  let sum := fun (f : VSet → Nat) => (mine.map f).sum
  let r2 := if c.set = 0 then quotaWord (sum VSet.nsq) (sum VSet.ncq) (sum VSet.nsve) (sum VSet.ngnt) (sum VSet.bw)
    else match s.vset? p c.set with
      | some v => quotaWord (s.sqsOf p c.set).length (s.cqsOf p c.set).length (s.sveUse p c.set) (s.bound c.set) v.bw
      | none => 0
  adminIf (firstBad [(1, !c.ok), (4, !s.hasSet p c.set)]) (s, r0, pack [(52, 32, used), (31, 0, late)], r2)

/-! ## Dirty-page logs (R363, R364) -/

/-- A bitmap's alignment and granules (R353). -/
def State.bitmapOk (s : State) (p a n : Nat) : Bool :=
  a % 256 == 0 && (granulesOf a n).all fun g =>
    let e := s.potEntry g
    (s.rangeCause p none a n).isNone && fld e 56 54 == potOwned

def State.dlog? (s : State) (p set : Nat) : Option Dlog := (s.trl.dlogs.find? fun d => d.1 == dlogKey p set).map Prod.snd

def dlogStart (p : Nat) (c : AdminCmd) (s : State) : Except Nat (State × W64 × W64 × W64) :=
  let n := fld c.p1 28 0
  let bad := !c.ok || c.p0.toNat % 4096 != 0 || fld c.p1 63 29 != 0 || n % 64 != 0 || decide (n < 64) ||
    decide (268435456 < n)
  adminIf (firstBad [(1, bad), (3, !s.bitmapOk p c.p2.toNat (n / 8)), (4, !s.hasSet p c.set),
      (5, (s.dlog? p c.set).isSome)])
    (s.modTrl fun t => { t with dlogs := t.dlogs ++ [(dlogKey p c.set, ⟨c.p0.toNat, n, c.p2.toNat, false⟩)] }, 0, 0, 0)

/-- DEDUCED: log 53. -/
def dlogSwap (p : Nat) (c : AdminCmd) (s : State) : Except Nat (State × W64 × W64 × W64) :=
  let d := (s.dlog? p c.set).getD ⟨0, 64, 0, false⟩
  let swap := fun (x : Nat × Dlog) =>
    if x.1 = dlogKey p c.set then (x.1, { x.2 with bitmap := c.p2.toNat, ovf := false }) else x
  adminIf (firstBad [(1, !c.ok), (3, !s.bitmapOk p c.p2.toNat (d.pages / 8)), (4, !s.hasSet p c.set),
      (5, (s.dlog? p c.set).isNone)])
    (s.modTrl fun t => { t with dlogs := t.dlogs.map swap }, pack [(0, 0, d.ovf.toNat)], 0, 0)

def dlogStop (p : Nat) (c : AdminCmd) (s : State) : Except Nat (State × W64 × W64 × W64) :=
  let d := (s.dlog? p c.set).getD ⟨0, 64, 0, false⟩
  adminIf (firstBad [(1, !c.ok), (4, !s.hasSet p c.set), (5, (s.dlog? p c.set).isNone)])
    (s.modTrl fun t => { t with dlogs := t.dlogs.filter fun x => x.1 != dlogKey p c.set },
    pack [(0, 0, d.ovf.toNat)], 0, 0)

/-! ## The commands -/

/-- Does R350 list the OPC? -/
def opcKnown (opc : Nat) : Bool :=
  (decide (1 ≤ opc) && decide (opc ≤ 5)) || (decide (0x10 ≤ opc) && decide (opc ≤ 0x16)) ||
  (decide (0x20 ≤ opc) && decide (opc ≤ 0x22))

/-- CREATE_CQ; an unknown OPC at the head of the queue ends here with status 0x01 (DESIGN CHOICE, log 33). -/
def execCreateCq (p : Pid) (s : State) : Host.Outcome State Fault Refusal :=
  .next (match s.adminNext p.val with
    | none => s
    | some (c, s1) =>
      if c.opc = 1 then s1.adminEnd p.val c.cid (createCq p.val c s1)
      else if opcKnown c.opc then s else s1.adminDone p.val c.cid 1 0 0 0)

def execCreateSq (p : Pid) (s : State) : Host.Outcome State Fault Refusal :=
  .next (s.adminRun p.val 2 fun c s1 => s1.adminEnd p.val c.cid (createSq p.val c s1))

def execEnableQ (p : Pid) (s : State) : Host.Outcome State Fault Refusal :=
  .next (s.adminRun p.val 3 fun c s1 => s1.adminEnd p.val c.cid (enableQ p.val c s1))

def execDisableQ (p : Pid) (s : State) : Host.Outcome State Fault Refusal :=
  .next (s.adminRun p.val 4 (disableQ p.val))

def execDeleteQ (p : Pid) (s : State) : Host.Outcome State Fault Refusal :=
  .next (s.adminRun p.val 5 fun c s1 => s1.adminEnd p.val c.cid (deleteQ p.val c s1))

def execCreateVcs (p : Pid) (s : State) : Host.Outcome State Fault Refusal :=
  .next (s.adminRun p.val 0x10 fun c s1 => s1.adminEnd p.val c.cid (createVcs p.val c s1))

def execEnableVcs (p : Pid) (s : State) : Host.Outcome State Fault Refusal :=
  .next (s.adminRun p.val 0x11 fun c s1 => s1.adminEnd p.val c.cid (enableVcs p.val c s1))

def execDisableVcs (p : Pid) (s : State) : Host.Outcome State Fault Refusal :=
  .next (s.adminRun p.val 0x12 (stopVcs p.val))

/-- DEDUCED: log 52. -/
def execResetVcs (p : Pid) (s : State) : Host.Outcome State Fault Refusal :=
  .next (s.adminRun p.val 0x13 (stopVcs p.val))

def execRemoveVcs (p : Pid) (s : State) : Host.Outcome State Fault Refusal :=
  .next (s.adminRun p.val 0x14 (stopVcs p.val))

def execResizeVcs (p : Pid) (s : State) : Host.Outcome State Fault Refusal :=
  .next (s.adminRun p.val 0x15 fun c s1 => s1.adminEnd p.val c.cid (resizeVcs p.val c s1))

def execQueryVcs (p : Pid) (s : State) : Host.Outcome State Fault Refusal :=
  .next (s.adminRun p.val 0x16 fun c s1 => s1.adminEnd p.val c.cid (queryVcs p.val c s1))

def execDlogStart (p : Pid) (s : State) : Host.Outcome State Fault Refusal :=
  .next (s.adminRun p.val 0x20 fun c s1 => s1.adminEnd p.val c.cid (dlogStart p.val c s1))

def execDlogSwap (p : Pid) (s : State) : Host.Outcome State Fault Refusal :=
  .next (s.adminRun p.val 0x21 fun c s1 => s1.adminEnd p.val c.cid (dlogSwap p.val c s1))

def execDlogStop (p : Pid) (s : State) : Host.Outcome State Fault Refusal :=
  .next (s.adminRun p.val 0x22 fun c s1 => s1.adminEnd p.val c.cid (dlogStop p.val c s1))

end Sys2Proof.Machine
end

