-- ==== Sys2Proof/Machine/Jobs.lean ====
section
/-! DEFINITION. What the job contexts of Sieve and Garnet share: rings, segments, completions,
enabling and disabling (15 R416-R424, R428; 16 R444, R452), and every CQ head store. -/

namespace Sys2Proof.Machine

/-- Sieve is engine 0, Garnet engine 1. -/
def jringReg (e : Nat) : Reg := if e = 0 then .sveJring else .gntJring
def cringReg (e : Nat) : Reg := if e = 0 then .sveCring else .gntCring
def bindReg (e : Nat) : Reg := if e = 0 then .sveBind else .gntBind

/-- The set that a context is bound to (R418). -/
def State.ctxSet (s : State) (e p c : Nat) : Nat := s.rf (bindReg e) [p, c] 42 32

/-! ## Accesses (R170, R171, R421) -/

/-- May a job of partition `p` reach the bytes, as a Normal World data access? -/
def State.jobMay (s : State) (p a n : Nat) : Bool :=
  (granulesOf a n).all fun g => s.isDram g && s.ownOk none false p false g

/-- A refusal, recorded before POT.BASE.EN, and where a POT entry cannot be read (R170, R173). -/
def State.jobRefuse (s : State) (p a n : Nat) : State :=
  if s.rf .potBase [] 0 0 = 0 then s.fault blkPot clsContained 0x0501 p a
  else if (granulesOf a n).any fun g => s.isDram g && (s.potSeen none (g / 0x10000)).isNone then
    s.fault blkPot clsFatal 0x0507 p a
  else s

/-- A read for a job: the bytes, or status 0x03 or 0x04. -/
def State.jobRead (s : State) (p a n : Nat) : Except Nat (List Byte) × State :=
  if n = 0 then (.ok [], s)
  else if !s.jobMay p a n then (.error 3, s.jobRefuse p a n)
  else
    let r := (s.potFills a n).hubRead a n
    (if r.2.1 then .error 4 else .ok r.1, r.2.2)

/-- A write for a job; false where it is refused. -/
def State.jobWrite (s : State) (p a : Nat) (bs : List Byte) : Bool × State :=
  if bs.isEmpty then (true, s)
  else if !s.jobMay p a bs.length then (false, s.jobRefuse p a bs.length)
  else (true, (s.potFills a bs.length).hubWrite a bs)

/-- Bytes `[off, off + n)` of concatenated segments, as addresses and lengths. -/
def sliceSegs : List Seg → Nat → Nat → List (Nat × Nat)
  | [], _, _ => []
  | g :: gs, off, n =>
    if n = 0 then []
    else if g.len ≤ off then sliceSegs gs (off - g.len) n
    else
      let m := min n (g.len - off)
      (g.addr + off, m) :: sliceSegs gs 0 (n - m)

def jobReads (p : Nat) : List (Nat × Nat) → State → Except Nat (List Byte) × State
  | [], s => (.ok [], s)
  | (a, n) :: rest, s =>
    match s.jobRead p a n with
    | (.error e, s1) => (.error e, s1)
    | (.ok bs, s1) => match jobReads p rest s1 with
      | (.ok r, s2) => (.ok (bs ++ r), s2)
      | (.error e, s2) => (.error e, s2)

def jobWrites (p : Nat) : List (Nat × Nat) → List Byte → State → Bool × State
  | [], _, s => (true, s)
  | (a, n) :: rest, bs, s =>
    let r := s.jobWrite p a (bs.take n)
    if r.1 then jobWrites p rest (bs.drop n) r.2 else (false, r.2)

def Job.ins (j : Job) : List Seg := j.segs.filter fun g => !g.dir
def Job.outs (j : Job) : List Seg := j.segs.filter fun g => g.dir
def lens (gs : List Seg) : Nat := (gs.map Seg.len).sum

/-- Input bytes of a job. -/
def State.jobIn (s : State) (p : Nat) (j : Job) (off n : Nat) : Except Nat (List Byte) × State :=
  jobReads p (sliceSegs j.ins off n) s

/-- Output bytes of a job, all or none. -/
def State.jobOut (s : State) (p : Nat) (j : Job) (off : Nat) (bs : List Byte) : Bool × State :=
  let w := sliceSegs j.outs off bs.length
  match w.find? fun x => !s.jobMay p x.1 x.2 with
  | some x => (false, s.jobRefuse p x.1 x.2)
  | none => jobWrites p w bs s

/-! ## Completions (R423, R424) -/

/-- Waiting completion entries written while the ring has room. -/
def State.jobDrain (s : State) (e p c : Nat) : Nat → State
  | 0 => s
  | n + 1 =>
    let x := s.ctx e p c
    let size := s.jobSize e p c
    match x.waiting with
    | [] => s
    | (irq, bs) :: rest =>
      if size ≤ x.cqTail - x.cqHead then s
      else
        let a := s.rf (cringReg e) [p, c] 47 12 * 4096 + 32 * (x.cqTail % size)
        let s1 := (s.trlWrite p none a (withPhase 55 x.cqTail size bs)).2
        (s1.modCtx e p c fun y => { y with waiting := rest, cqTail := y.cqTail + 1, irqs := y.irqs ++ [irq] }).jobDrain e p c n

def State.jobPost (s : State) (e p c : Nat) (irq : Bool) (bs : List Byte) : State :=
  (s.modCtx e p c fun x => { x with waiting := x.waiting ++ [(irq, bs)] }).jobDrain e p c 1

/-- FLAG and DONE of a job's segments. Only a segment that was handed over is written. -/
def State.jobFlags (s : State) (p : Nat) (good : Bool) : List (Seg × Nat) → State
  | [] => s
  | (g, done) :: rest =>
    if g.flag = 1 then
      let b := (s.homeByte g.desc &&& 0x3F) ||| (if good then 0 else 0xC0)
      (((s.jobWrite p g.desc [b]).2.jobWrite p (g.desc + 8) (toBytes 4 done)).2).jobFlags p good rest
    else s.jobFlags p good rest

/-- A byte count spread over segments in array order. -/
def doneOf : Nat → List Seg → List (Seg × Nat)
  | _, [] => []
  | n, g :: gs => (g, min n g.len) :: doneOf (n - g.len) gs

/-- A job's end by itself: FLAG and DONE of its segments, its completion entry, its interrupt (R424). `used`: the
input bytes that count as transferred (DESIGN CHOICE, log 34); `w2` and `w3`: the entry's last two doublewords. -/
def State.jobClose (s : State) (e p c : Nat) (j : Job) (status used : Nat) (w2 w3 : W64) : State :=
  let s1 := s.jobFlags p (status == 0) (doneOf used j.ins ++ doneOf j.wrote j.outs)
  let s2 := s1.modCtx e p c fun x => { x with job := none, state := if x.state = 2 then 0 else x.state }
  s2.jobPost e p c j.irq (dwords [pack [(63, 56, status), (31, 0, j.slot)], j.tag, w2, w3])

/-! ## Taking a job (R420, R424, R445) -/

/-- A job as its descriptor and segments give it, before its own checks; `b`: the descriptor. -/
def jobOf (e slot : Nat) (b : List Byte) (segs : List Seg) : Job :=
  let w0 := dwordAt b 0
  let olim := (dwordAt b (if e = 0 then 0x18 else 0x20)).toNat
  let room := lens (segs.filter fun g => g.dir)
  { slot := slot, op := if e = 0 then fld w0 55 52 else fld w0 55 48, tag := dwordAt b 8,
    irq := if e = 0 then bit w0 34 else bit w0 18, segs := segs,
    limit := if olim = 0 then room else min olim room, level := fld w0 51 48,
    blk := if fld w0 47 40 = 0 then 65536 else fld w0 47 40 * 4096, rstart := (dwordAt b 0x20).toNat,
    rlen := (dwordAt b 0x28).toNat, key := [], iv := [], ivNew := false, aad := [], tweak := dwordAt b 0x28,
    expect := b.drop 0x40, chain := fld w0 17 16, keyslot := fld w0 47 36, wslot := fld w0 35 24, frame := [],
    msg := [], base := 0, taken := 0, wrote := 0, blocks := 0, first := 0, next := 0, total := 0, busy := [],
    ready := [], index := [], fail := none }

/-- Checks of a descriptor that both engines share (R281, R420, R445). DEDUCED: log 47. -/
def jobShapeOk (b : List Byte) : Bool :=
  let w2 := dwordAt b 0x10
  fld (dwordAt b 0) 63 56 == 1 && fld w2 63 48 == 0 && fld w2 3 1 == 0

/-- Is the descriptor array where R281 wants it, in a form the set allows? Its segments are read then, whatever else is
wrong, so that those handed over return (R424). -/
def jobArrayOk (set nseg : Nat) (b : List Byte) : Bool :=
  let w2 := dwordAt b 0x10
  decide (nseg ≤ 16) && (set != 0 || !bit w2 0) && (nseg == 0 || oneGranule (fld w2 47 4 * 16) (16 * nseg))

/-- Has every granule of a range WORLD = 0 (R421)? -/
def State.normalRun (s : State) (a n : Nat) : Bool :=
  (granulesOf a n).all fun g => match s.potSeen none (g / 0x10000) with
    | some e => fld e 57 57 == 0
    | none => false

/-- The segments of a job read and resolved: a status, and the segments as far as they were read. -/
def State.jobSegs (s : State) (p set nseg : Nat) (b : List Byte) : Nat × List Seg × State :=
  if nseg = 0 then (0, [], s)
  else
    let w2 := dwordAt b 0x10
    match s.addrOf p set (bit w2 0) false (fld w2 47 4 * 16) (16 * nseg) with
    | (none, s1) => (2, [], s1)
    | (some pa, s1) => match s1.jobRead p pa (16 * nseg) with
      | (.error e, s2) => (e, [], s2)
      | (.ok bs, s2) =>
        let ds := (List.range nseg).map fun i => let d := (bs.drop (16 * i)).take 16; (d, segOf (pa + 16 * i) d)
        let go := fun (r : Nat × List Seg × State) (d : List Byte × Seg) =>
          match r.2.2.addrOf p set d.2.af d.2.dir d.2.addr d.2.len with
          | (none, t) => (if r.1 = 0 then 2 else r.1, r.2.1 ++ [d.2], t)
          | (some a, t) =>
            let bad := !segFieldsOk set d.1 || !t.jobMay p a d.2.len || !t.normalRun a d.2.len
            (if r.1 = 0 && bad then 2 else r.1, r.2.1 ++ [{ d.2 with addr := a }], t)
        ds.foldl go (0, [], s2)

/-- The next ready slot of a context, if the engine may take it: its descriptor or a status, and the
state with the slot taken (R424). -/
def State.jobNext (s : State) (e p c : Nat) : Option (Nat × Except Nat (List Byte) × State) :=
  let x := s.ctx e p c
  let size := s.jobSize e p c
  if s.scn.role == 2 || s.stalled || !s.islRuns (105 + e) || (e == 1 && s.rf .gntKsbase [] 0 0 == 0) || x.job.isSome || !x.waiting.isEmpty ||
      decide (size ≤ x.cqTail - x.cqHead) then none
  else match x.ring.front with
    | none => none
    | some slot =>
      let r := s.trlRead p none (s.rf (jringReg e) [p, c] 47 12 * 4096 + 128 * (slot.idx % size)) 128
      let b : Except Nat (List Byte) := match r.1 with
        | none => .error 3
        | some (_, true) => .error 4
        | some (b, false) => .ok b
      some (slot.idx, b, r.2.modCtx e p c fun y => { y with ring := y.ring.pop })

/-- Number of segment descriptors. -/
def jobNseg (e : Nat) (b : List Byte) : Nat := let w0 := dwordAt b 0; if e = 0 then fld w0 39 35 else fld w0 23 19

/-- A taken slot with its segments: the job, and the status that ends it at once, if any. In a context
that is not enabled that status is 0x20 (R428, R429). -/
def State.jobTake (s : State) (e p c slot : Nat) (d : Except Nat (List Byte)) (shape : List Byte → Bool) :
    Nat × Job × State :=
  let off := (s.ctx e p c).state != 1
  let st := fun (n : Nat) => if off then 0x20 else n
  match d with
  | .error n => (st n, jobOf e slot [] [], s)
  | .ok b =>
    let set := s.ctxSet e p c
    if !jobArrayOk set (jobNseg e b) b then (st 1, jobOf e slot b [], s)
    else
      let r := s.jobSegs p set (jobNseg e b) b
      (st (if jobShapeOk b && shape b then r.1 else 1), jobOf e slot b r.2.1, r.2.2)

/-- A job that ends before any of it ran. A completion's last doublewords where no block ended the job: the spec gives
FAILBLK no value then, so it is free (DESIGN CHOICE, log 34); Garnet's are zero. -/
def State.jobDrop (s : State) (e p c : Nat) (j : Job) (status : Nat) : State :=
  if e = 0 then let r := s.draw; r.2.jobClose e p c j status 0 0 (pack [(31, 0, fld r.1 31 0)])
  else s.jobClose e p c j status 0 (pack [(31, 0, ofBytes j.iv / 2 ^ 64)]) (BitVec.ofNat 64 (ofBytes j.iv))

/-- Slots of a stopped context that are marked ready end with 0x20 while the completion ring has room (R428, R452). -/
def State.abortReady (s : State) (e p c : Nat) : Nat → State
  | 0 => s
  | n + 1 =>
    if (s.ctx e p c).state = 1 then s
    else match s.jobNext e p c with
    | none => s
    | some (slot, d, s1) =>
      let r := s1.jobTake e p c slot d fun _ => true
      (r.2.2.jobDrop e p c r.2.1 r.1).abortReady e p c n

/-- A job ends, and with it, in a context that is stopping, every job not started (R424, R428). -/
def State.jobEnd (s : State) (e p c : Nat) (j : Job) (status used : Nat) (w2 w3 : W64) : State :=
  (s.jobClose e p c j status used w2 w3).abortReady e p c (s.jobSize e p c)

def State.jobFail (s : State) (e p c : Nat) (j : Job) (status : Nat) : State :=
  (s.jobDrop e p c j status).abortReady e p c (s.jobSize e p c)

/-- A Garnet job that ends with a failure; an open chain is abandoned. -/
def State.gntFail (s : State) (p c : Nat) (j : Job) (status : Nat) : State :=
  s.modCtx 1 p c (fun x => { x with chain := none }) |>.jobEnd 1 p c j status j.taken
    (pack [(63, 32, j.wrote), (31, 0, if j.ivNew then ofBytes j.iv / 2 ^ 64 else 0)])
    (if j.ivNew then BitVec.ofNat 64 (ofBytes j.iv) else 0)

/-! ## What a free lane takes (R406, R434) -/

/-- Inline work in its order, then the contexts in round robin, by the key `Nat`; a context that waits gets one start in
four at the least. DEDUCED: log 43. -/
def Turn.next (t : Turn) (inline : List Work) (jobs : List (Nat × Work)) : Option (Work × Turn) :=
  let job := match jobs.find? fun j => decide (t.last < j.1) with
    | some j => some j
    | none => jobs.head?
  match inline.head?, job with
  | none, none => none
  | some w, none => some (w, { t with since := min 3 (t.since + 1) })
  | none, some j => some (j.2, ⟨j.1, 0⟩)
  | some w, some j => if 3 ≤ t.since then some (j.2, ⟨j.1, 0⟩) else some (w, { t with since := t.since + 1 })

/-- Exchanges of each class in turn. -/
def byClass (cs : List (List Nat)) (xs : List Xch) : List Xch := cs.flatMap fun c => xs.filter fun x => c.contains x.cls

def Xch.work (x : Xch) : Work := .xch x.pid x.lidx x.xsn

/-- Does a lane of Garnet hold the work? -/
def State.unitHeld (s : State) (w : Work) : Bool := s.gnt.units.any fun u => u.2 == w

/-! ## Enabling and disabling (R418, R419, R428, R452) -/

/-- Contexts of a set that count against its quota. -/
def State.sveRoom (s : State) (p set : Nat) : Bool :=
  if set = 0 then
    decide (s.sveUse p 0 + ((s.trl.sets.filter fun v => v.pid == p).map VSet.nsve).sum < s.rf .trlPoola [p] 49 46)
  else match s.vset? p set with
    | some v => decide (s.sveUse p set < v.nsve)
    | none => true

/-- Why a context cannot be enabled, in the order of R352; a SET above 1,024 is a parameter out of range (R352's 0x01).
DESIGN CHOICE: log 161. -/
def State.bindErr (s : State) (e p c set : Nat) : Nat :=
  let k := s.rf (jringReg e) [p, c] 3 0
  let size := s.jobSize e p c
  let ring := fun (r : Reg) (n : Nat) => s.ringOk p (s.rf r [p, c] 47 12 * 4096) n
  firstBad [(1, decide (k < 4) || decide (1024 < set)), (2, e == 0 && !s.sveRoom p set),
    (3, !ring (jringReg e) (128 * size) || !ring (cringReg e) (32 * size)), (4, !s.hasSet p set),
    (5, (s.ctx e p c).state != 0)]

/-- A context stops (R428, R452): a job in progress with no block in a lane ends now, another once its
lanes are done, and jobs not started end with 0x20. -/
def State.stopCtx (s : State) (e p c : Nat) : State :=
  let x := s.ctx e p c
  if x.state ≠ 1 then s
  else
    let s1 := s.modCtx e p c fun y => { y with state := 2, chain := none }
    let s2 := match x.job with
      | none => s1.modCtx e p c fun y => { y with state := 0 }
      | some j =>
        if e = 0 ∧ j.busy = [] ∧ j.ready = [] then
          s1.jobEnd e p c j 0x20 (if j.op = 1 then j.msg.length else j.taken) (BitVec.ofNat 64 j.wrote)
            (pack [(63, 32, j.blocks), (31, 0, j.next)])
        else if e = 1 ∧ (j.op ≠ 0x80 ∨ j.taken < lens j.ins) ∧ !s.unitHeld (.job p c j.slot) then s1.gntFail p c j 0x20
        else s1.modCtx e p c fun y => { y with job := some { j with fail := j.fail.or (some (0x20, j.next)) } }
    s2.abortReady e p c (s.jobSize e p c)

def engineNo : Engine → Nat
  | .sieve => 0
  | .garnet => 1

/-- Does an engine have the context (R416, R444)? -/
def ctxOk (e c : Nat) : Bool := if e = 0 then decide (c < 15) else decide (c < 8)

/-- A write of BIND with EN = 1 (R419). SET follows every write (R418); one above 1,024 fails the enable with ERR 0x01.
DESIGN CHOICE: log 161. -/
def State.bindOn (s : State) (e p c set level : Nat) : State :=
  let s1 := (((s.setRf (bindReg e) [p, c] 63 63 1).setRf (bindReg e) [p, c] 3 0
    (if level ≤ 7 then level else s.rf (bindReg e) [p, c] 3 0)).setRf (bindReg e) [p, c] 42 32 set)
  if (s.ctx e p c).state = 1 then s1
  else
    let err := s.bindErr e p c set
    let s3 := (s1.setRf (bindReg e) [p, c] 60 56 err).abortReady e p c (s.jobSize e p c)
    if err = 0 then s3.modCtx e p c fun _ => { JobCtx.empty 0 with state := 1 } else s3

def execBindEnable (e : Engine) (p : Pid) (c : Fin 15) (set : BitVec 11) (level : BitVec 4) (s : State) :
    Host.Outcome State Fault Refusal :=
  .next (if ctxOk (engineNo e) c.val then s.bindOn (engineNo e) p.val c.val set.toNat level.toNat else s)

def execBindDisable (e : Engine) (p : Pid) (c : Fin 15) (s : State) : Host.Outcome State Fault Refusal :=
  .next (
    let n := engineNo e
    if ctxOk n c.val then (s.setRf (bindReg n) [p.val, c.val] 63 63 0).stopCtx n p.val c.val else s)

/-- A job that runs at a takeover goes back to its ring, ready, and starts again from its first block (R429, R453). -/
def JobCtx.putBack (x : JobCtx) : JobCtx :=
  match x.job with
  | none => x
  | some j => { x with
      job := none, state := if x.state = 2 then 0 else x.state,
      ring := { x.ring with head := j.slot, slots := ⟨j.slot, 0, .ready⟩ :: x.ring.slots } }

def State.restartJobs (s : State) : State :=
  s.modTrl fun t => { t with ctxs := (t.ctxs.map fun x => (x.1, x.2.putBack)).filter fun x => x.2 != JobCtx.empty x.1 }

/-! ## CQ head stores (R276, R293, R347, R424) -/

/-- The head of an admin completion ring. -/
def State.adminHead (s : State) (p new : Nat) : State :=
  let a := s.admin p
  if new < a.cqHead ∨ a.cqTail < new then s.modTrl fun t => { t with ignored := t.ignored + 1 }
  else
    let s1 := s.modAdmin p fun a => { a with cqHead := new }
    match a.waiting with
    | some bs => s1.adminPost p bs
    | none => s1

/-- The head of a job context's completion ring. -/
def State.jobHead (s : State) (e p c new : Nat) : State :=
  let x := s.ctx e p c
  if new < x.cqHead ∨ x.cqTail < new then s.modTrl fun t => { t with ignored := t.ignored + 1 }
  else
    ((s.modCtx e p c fun y => { y with cqHead := new, irqs := y.irqs.drop (new - y.cqHead) }).jobDrain e p c
      x.waiting.length).abortReady e p c (s.jobSize e p c)

/-- A CQ head store; one out of range, for no queue or to a page of a set that is not enabled is discarded and counted
(R275, R276). -/
def State.headStore (s : State) (q : QueueRef) (head : Nat) : State :=
  match q with
  | .sq p set q =>
    match s.cq? p.val set.val q.toNat with
    | none => s.modTrl fun t => { t with ignored := t.ignored + 1 }
    | some c =>
      if !s.setOn p.val set.val || decide (head < c.head) || decide (c.tail < head) then
        s.modTrl fun t => { t with ignored := t.ignored + 1 }
      else s.cqHead p.val set.val q.toNat head
  | .admin p =>
    if s.setOn p.val 0 then s.adminHead p.val head else s.modTrl fun t => { t with ignored := t.ignored + 1 }
  | .sieve p c => s.jobHead 0 p.val c.val head
  | .garnet p c => s.jobHead 1 p.val c.val head

def execCqHead (q : QueueRef) (head : BitVec 32) (s : State) : Host.Outcome State Fault Refusal :=
  .next (s.headStore q head.toNat)

end Sys2Proof.Machine
end

