-- ==== Sys2Proof/Machine/Sieve.lean ====
section
/-! DEFINITION. Sieve's jobs (15 R405-R429). -/

namespace Sys2Proof.Machine

/-! ## Descriptors (R420, R421) -/

/-- The fields that a Sieve descriptor must have zero or in range. -/
def sieveShape (b : List Byte) : Bool :=
  let w0 := dwordAt b 0
  let op := fld w0 55 52
  let lvl := fld w0 51 48
  decide (1 ≤ op) && decide (op ≤ 3) && fld w0 33 0 == 0 && ((b.drop 0x30).all (· == 0)) &&
  decide (2 ≤ jobNseg 0 b) &&
  (if op = 1 then decide (1 ≤ lvl) && decide (lvl ≤ 9) && decide (fld w0 47 40 ≤ 64) else lvl == 0 && fld w0 47 40 == 0) &&
  (op != 3 || (dwordAt b 0x28) != 0)

/-- At least one segment of each direction. -/
def Job.bothWays (j : Job) : Bool := !j.ins.isEmpty && !j.outs.isEmpty

/-- The next job of a context, if its OP is `op`, checked; a job with a reserved OP is taken by
COMPRESS. A status ends it at once. -/
def State.sieveTake (s : State) (p c op : Nat) (f : Job → State → State) : State :=
  match s.jobNext 0 p c with
  | none => s
  | some (slot, d, s1) =>
    let o := match d with
      | .ok b => fld (dwordAt b 0) 55 52
      | .error _ => 0
    if o != op && !(op == 1 && !(o == 2 || o == 3)) then s
    else
      let r := s1.jobTake 0 p c slot d sieveShape
      let st := if r.1 = 0 ∧ !r.2.1.bothWays then 1 else r.1
      if st = 0 then f r.2.1 r.2.2 else r.2.2.jobFail 0 p c r.2.1 st

def State.putJob (s : State) (e p c : Nat) (j : Job) : State := s.modCtx e p c fun x => { x with job := some j }

/-- OP 0x1: the job is in progress, its blocks to be started (R412). -/
def execCompress (p : Pid) (c : Fin 15) (s : State) : Host.Outcome State Fault Refusal :=
  .next (s.sieveTake p.val c.val 1 fun j s1 =>
    s1.putJob 0 p.val c.val { j with total := ceilDiv (lens j.ins) j.blk })

/-- Header and index of a frame read and checked before anything is written (R413). -/
def State.readFrame (s : State) (p : Nat) (j : Job) : Except Nat (FrameHdr × List BlkIdx × List Byte) × State :=
  let len := lens j.ins
  match s.jobIn p j 0 (min 32 len) with
  | (.error e, s1) => (.error e, s1)
  | (.ok h0, s1) => match readHdr h0 with
    | .error e => (.error e, s1)
    | .ok h => match s1.jobIn p j 0 (min (32 + 8 * h.nblk) len) with
      | (.error e, s2) => (.error e, s2)
      | (.ok bs, s2) => match readIdx h bs len with
        | .error e => (.error e, s2)
        | .ok is => (.ok (h, is, bs), s2)

/-- OP 0x2 and 0x3: the frame's header and index are read and checked (R413, R422). -/
def State.unpackStart (s : State) (p c : Nat) (range : Bool) (j : Job) : State :=
  match s.readFrame p j with
  | (.error e, s1) => s1.jobFail 0 p c j e
  | (.ok (h, _, bs), s1) =>
    if range then
      if h.rawLen < j.rstart + j.rlen then s1.jobFail 0 p c j 1
      else s1.putJob 0 p c { j with
        frame := bs, first := j.rstart / h.blk, next := j.rstart / h.blk,
        total := (j.rstart + j.rlen - 1) / h.blk + 1 }
    else s1.putJob 0 p c { j with frame := bs, total := h.nblk }

def execDecompress (p : Pid) (c : Fin 15) (s : State) : Host.Outcome State Fault Refusal :=
  .next (s.sieveTake p.val c.val 2 fun j s1 => s1.unpackStart p.val c.val false j)

def execDecompressARange (p : Pid) (c : Fin 15) (s : State) : Host.Outcome State Fault Refusal :=
  .next (s.sieveTake p.val c.val 3 fun j s1 => s1.unpackStart p.val c.val true j)

/-! ## Blocks (R406, R411, R414, R415) -/

/-- The frame of a job that decompresses, from the bytes it keeps. -/
def Job.hdr (j : Job) : FrameHdr :=
  match readHdr j.frame with
  | .ok h => h
  | .error _ => ⟨4096, 1, 1, 1, 0⟩
def Job.idx (j : Job) : List BlkIdx := (List.range j.hdr.nblk).map (idxAt j.frame)

/-- The part of raw block `k` that the job writes: offset in the block, and length. -/
def Job.part (j : Job) (k : Nat) : Nat × Nat :=
  let h := j.hdr
  if j.op = 3 then
    let a := max j.rstart (k * h.blk)
    (a - k * h.blk, min (j.rstart + j.rlen) (k * h.blk + h.rawOf k) - a)
  else (0, h.rawOf k)

/-- Output bytes of the blocks before `k`. -/
def Job.before (j : Job) (k : Nat) : Nat := ((List.range (k - j.first)).map fun i => (j.part (j.first + i)).2).sum

/-- Lanes of one kind that hold a block. -/
def State.lanesBusy (s : State) (comp : Bool) : Nat :=
  ((s.trl.ctxs.filter fun x => decide (x.1 < 1024)).map fun x =>
    match x.2.job with
    | some j => if (j.op == 1) == comp then j.busy.length else 0
    | none => 0).sum +
  (if comp then (s.scn.ship.filter fun r => r.st == .lane).length else 0) +
  ((s.trl.xchs.filter fun x => x.cmpl.isNone == comp).map fun x => x.inLanes.length).sum

/-- The job ends, the blocks in `j` counted. -/
def State.sieveEnd (s : State) (p c : Nat) (j : Job) (status failblk : Nat) : State :=
  s.jobEnd 0 p c j status
    (if status = 0 then lens j.ins else if j.op = 1 then j.msg.length
      else if j.blocks = 0 then 0 else storedAt j.hdr j.idx (j.first + j.blocks))
    (BitVec.ofNat 64 j.wrote) (pack [(63, 32, j.blocks), (31, 0, if status = 0 then 0xFFFFFFFF else failblk)])

/-- Has a job a block waiting for a lane of the kind? -/
def Job.blockWaits (j : Job) (comp : Bool) : Bool := (j.op == 1) == comp && decide (j.next < j.total) && j.fail.isNone

/-- Contexts whose jobs have a block waiting, in the order of their keys. -/
def State.jobBlocks (s : State) (comp : Bool) : List (Nat × Work) :=
  s.trl.ctxs.filterMap fun x =>
    if 1024 ≤ x.1 then none
    else match x.2.job with
      | some j => if j.blockWaits comp then some (x.1, .job (x.1 / 16) (x.1 % 16) j.slot) else none
      | none => none

/-- Has an inline exchange a block waiting (R294, R296, R426)? -/
def State.xchBlockWaits (s : State) (comp : Bool) (x : Xch) : Bool :=
  if comp then x.outRuns && decide (x.blocksTaken < x.outBlocks)
  else x.cmpl.isSome && decide (x.inUnits ≤ x.unitsDone) && decide (x.blocksTaken < s.inBlocks x)

/-- A lane takes the next block of a context's job; a block whose declared raw length is more than the room left ends the
job once the blocks before it are done (R415). DEDUCED: log 49. -/
def State.jobBlockTake (s : State) (p c : Nat) (j : Job) : State :=
  if j.op ≠ 1 ∧ j.limit < j.before j.next + j.hdr.rawOf j.next then
    if j.busy = [] ∧ j.ready = [] then s.sieveEnd p c j 0x15 j.next
    else s.putJob 0 p c { j with fail := some (0x15, j.next) }
  else s.putJob 0 p c { j with busy := j.busy ++ [j.next], next := j.next + 1 }

/-- The first run that waits for a lane has one. -/
def shipTake : List ShipRun → List ShipRun
  | [] => []
  | r :: rs => if r.st = ShipSt.waiting then { r with st := ShipSt.lane } :: rs else r :: shipTake rs

/-- A lane takes the next block of a source. -/
def State.blockTake (s : State) : Work → State
  | .scion => { s with scn := { s.scn with ship := shipTake s.scn.ship } }
  | .job p c _ => match (s.ctx 0 p c).job with
    | some j => s.jobBlockTake p c j
    | none => s
  | .xch p lidx _ => match s.xch? p lidx with
    | some x => s.keepXch { x with inLanes := x.inLanes ++ [x.blocksTaken], blocksTaken := x.blocksTaken + 1 }
    | none => s

def Sve.turn (v : Sve) (comp : Bool) : Turn := if comp then v.comp else v.dec
def Sve.setTurn (v : Sve) (comp : Bool) (t : Turn) : Sve := if comp then { v with comp := t } else { v with dec := t }

/-- What a free lane takes next: Scion's runs, then Trellis's inline work, Class 0 before the other classes, then the job
contexts (R406). A COMP that arrives takes a decompression lane within its step: nothing else runs on a mirror's. -/
def State.blockNext (s : State) (comp : Bool) : Option (Work × Turn) :=
  let scion := if comp && s.scn.ship.any fun r => r.st == .waiting then [Work.scion] else []
  (s.sve.turn comp).next (scion ++ (byClass [[0], [1, 2, 3]] (s.trl.xchs.filter (s.xchBlockWaits comp))).map Xch.work) (s.jobBlocks comp)

/-- A free compression lane (`comp`), or decompression lane, takes the next block by the order of the sources (R405,
R406); none starts once the island is asked to go idle (R499). -/
def execSieveBlockStart (comp : Bool) (s : State) : Host.Outcome State Fault Refusal :=
  .next (
    if 16 ≤ s.lanesBusy comp ∨ s.scn.role = 2 ∨ !s.islRuns 105 ∨ s.idleAsked 105 then s
    else match s.blockNext comp with
      | none => s
      | some (w, t) => ({ s with sve := s.sve.setTurn comp t } : State).blockTake w)

/-- Where block `k` stands in the input: offset and length. -/
def Job.slice (j : Job) (k : Nat) : Nat × Nat :=
  if j.op = 1 then (k * j.blk, min j.blk (lens j.ins - k * j.blk)) else (storedAt j.hdr j.idx k, (blkIdx j.idx k).clen)

/-- The first piece of block `k`'s input that the job may no longer read (R429). -/
def State.blockRefused (s : State) (p : Nat) (j : Job) (k : Nat) : Option (Nat × Nat) :=
  (sliceSegs j.ins (j.slice k).1 (j.slice k).2).find? fun x => !s.jobMay p x.1 x.2

/-- What a lane makes of block `k` (R410, R411, R414). `glitches`: attempts of a compression whose
check failed in the lane. -/
def State.sieveBlock (s : State) (p : Nat) (j : Job) (k glitches : Nat) : Blk × State :=
  if j.op = 1 then
    match s.jobIn p j (j.slice k).1 (j.slice k).2 with
    | (.error e, s1) => (⟨k, e, false, 0, 0, [], []⟩, s1)
    | (.ok raw, s1) =>
      let b := compressBlock j.level glitches raw
      (⟨k, 0, b.1.raw, b.1.clen, b.1.crc, raw, b.2.1⟩,
        if b.2.2 then s1.fault blkSieve clsCorrected 0x0802 0 0 else s1)
  else
    let i := blkIdx j.idx k
    match s.jobIn p j (j.slice k).1 (j.slice k).2 with
    | (.error e, s1) => (⟨k, e, false, 0, 0, [], []⟩, s1)
    | (.ok st, s1) => match decodeStored j.hdr i k st with
      | .error e => (⟨k, e, false, 0, 0, [], []⟩, s1)
      | .ok o => (⟨k, 0, i.raw, i.clen, i.crc, [], (o.drop (j.part k).1).take (j.part k).2⟩, s1)

/-- Where the next block of a compression goes (R408). -/
def Job.frameAt (j : Job) : Nat := 32 + 8 * j.total + (j.index.map fun i => i.2.1).sum

/-- Header and index of a compression, once every block is written. -/
def Job.frameHead (j : Job) : List Byte :=
  (FrameHdr.mk j.blk j.level j.msg.length j.total (crc32c j.msg)).bytes ++
    j.index.flatMap fun i => (BlkIdx.mk i.1 i.2.1 i.2.2).bytes

/-- Blocks written in block order; the job ends with its last block or with the first that fails. A block whose input the
job may no longer read is not written (R429). DEDUCED: log 48. -/
def State.sieveFlush (p c : Nat) : Nat → Job → State → State
  | 0, j, s => s.putJob 0 p c j
  | n + 1, j, s =>
    let k := j.first + j.blocks
    match j.ready.find? fun b => b.k == k with
    | none =>
      match j.fail with
      | some f => if j.busy = [] then s.sieveEnd p c j f.1 f.2 else s.putJob 0 p c j
      | none => s.putJob 0 p c j
    | some b =>
      let off := if j.op = 1 then j.frameAt else j.wrote
      if b.status ≠ 0 then s.sieveEnd p c j b.status k
      else if j.limit < off + b.out.length then s.sieveEnd p c j 0x15 k
      else match s.blockRefused p j k with
      | some x => (s.jobRefuse p x.1 x.2).sieveEnd p c j 3 k
      | none => match s.jobOut p j off b.out with
        | (false, s1) => s1.sieveEnd p c j 3 k
        | (true, s1) =>
          let j1 := { j with
            ready := j.ready.filter fun x => x.k != k, blocks := j.blocks + 1, wrote := j.wrote + b.out.length,
            msg := j.msg ++ b.inp, index := j.index ++ [(b.raw, b.clen, b.crc)] }
          let s2 := s1.addRf .sveStat [] 31 0 1
          if k + 1 < j.total then State.sieveFlush p c n j1 s2
          else if j.op ≠ 1 then s2.sieveEnd p c j1 0 0
          else match s2.jobOut p j1 0 j1.frameHead with
            | (false, s3) => s3.sieveEnd p c j1 3 k
            | (true, s3) => s3.sieveEnd p c { j1 with wrote := j1.frameAt } 0 0

/-- A lane finishes block `k` of a context's job. -/
def State.jobBlockEnd (s : State) (p c k glitches : Nat) : State :=
  match (s.ctx 0 p c).job with
  | none => s
  | some j =>
    if !j.busy.contains k then s
    else
      let r := s.sieveBlock p j k glitches
      State.sieveFlush p c (j.ready.length + 2) { j with busy := j.busy.filter (· != k), ready := j.ready ++ [r.1] } r.2

/-- A lane finishes block `k` of an inline exchange; where its check failed twice the block goes raw (R411). -/
def State.xchBlockEnd (s : State) (p lidx k glitches : Nat) : State :=
  match s.xch? p lidx with
  | none => s
  | some x =>
    if !x.inLanes.contains k then s
    else (s.addRf .sveStat [] 31 0 1).keepXch { x with
      inLanes := x.inLanes.filter (· != k),
      spoiled := if x.cmpl.isNone && glitches == 2 then k :: x.spoiled else x.spoiled }

/-- A lane finishes run `k` of Scion's context, counted from its oldest, and what is ready goes to the link (R383, R411,
R427). -/
def State.shipEnd (s : State) (k glitches : Nat) : State :=
  match s.scn.ship[k]? with
  | none => s
  | some r =>
    if r.st ≠ ShipSt.lane then s
    else
      let o := shipRun glitches r.recs
      let done := fun (i : Nat) (q : ShipRun) => if i = k then (⟨o.1, .ready⟩ : ShipRun) else q
      let s1 := ({ s with scn := { s.scn with ship := s.scn.ship.mapIdx done } } : State).addRf .sveStat [] 31 0 1
      (if o.2 then s1.fault blkSieve clsCorrected 0x0802 0 0 else s1).scnPump

/-- A lane finishes block `k` of a source. -/
def execSieveBlockComplete (src : BlockSrc) (k : BitVec 20) (glitches : Fin 3) (s : State) :
    Host.Outcome State Fault Refusal :=
  .next (match src with
    | .scion => s.shipEnd k.toNat glitches.val
    | .job p c => if s.stalled then s else s.jobBlockEnd p.val c.val k.toNat glitches.val
    | .exchange p lidx => s.xchBlockEnd p.val lidx.toNat k.toNat glitches.val)

/-! ## Registers (R430) -/

/-- SVE.STAT as read. -/
def State.sveStatRead (s : State) : W64 :=
  pack [(63, 56, s.lanesBusy true), (55, 48, s.lanesBusy false), (47, 40, shipBusy s.scn.ship), (31, 0, s.rf .sveStat [] 31 0)]

end Sys2Proof.Machine
end

