-- ==== Sys2Proof/Machine/Garnet.lean ====
section
/-! DEFINITION. Garnet's jobs: AES, hashes, MACs, signatures, key commands (16 R432-R453). -/

namespace Sys2Proof.Machine

/-! ## What each GOP needs (R432, R443, R445) -/

def gopKnown (g : Nat) : Bool :=
  [0x10, 0x11, 0x20, 0x21, 0x30, 0x31, 0x40, 0x41, 0x50, 0x51, 0x52, 0x53, 0x54, 0x60, 0x61, 0x62, 0x63, 0x64,
    0x70, 0x71, 0x72, 0x78, 0x79, 0x7A, 0x80].contains g
def gopKeyed (g : Nat) : Bool := decide (g < 0x50) || (decide (0x70 ≤ g) && decide (g < 0x80))
def gopVerify (g : Nat) : Bool := decide (0x78 ≤ g) && decide (g ≤ 0x7A)
/-- DEDUCED: log 46. -/
def gopChains (g : Nat) : Bool := decide (g < 0x40) || (decide (0x60 ≤ g) && decide (g ≤ 0x7A))
def gopHasOut (g : Nat) : Bool :=
  !(gopVerify g || g == 0x80 || g == 0x51 || g == 0x52 || g == 0x53)
/-- Digest or MAC length. -/
def gopDigest (g : Nat) : Nat :=
  match g with
  | 0x60 => 32
  | 0x61 => 48
  | 0x62 => 64
  | 0x63 => 32
  | 0x64 => 64
  | _ => if g % 8 = 0 then 32 else if g % 8 = 1 then 48 else 64

/-- The fields that a Garnet descriptor must have zero. -/
def garnetShape (b : List Byte) : Bool :=
  let w0 := dwordAt b 0
  let g := fld w0 55 48
  let ch := fld w0 17 16
  let w3 := dwordAt b 0x18
  let exp := if gopVerify g then gopDigest g else 0
  gopKnown g && fld w0 15 0 == 0 && fld w3 31 0 == 0 && ((b.drop 0x30).take 16).all (· == 0) &&
  ((b.drop (0x40 + exp)).all (· == 0)) && (gopKeyed g || (decide (0x50 ≤ g) && decide (g ≤ 0x54)) || fld w0 47 36 == 0) &&
  (g == 0x50 || g == 0x51 || fld w0 35 24 == 0) && (g == 0x40 || g == 0x41 || g == 0x52 || dwordAt b 0x28 == 0) &&
  ((g == 0x30 || g == 0x31) && decide (ch ≤ 1) || fld w3 63 32 == 0) && (gopChains g || ch == 0)

/-- The next job of a context, if `mine` takes its GOP, with the checks common to all of them, the 15 input segments of
R443 among them (DEDUCED, log 47); a job with a reserved GOP is taken where `other` holds. -/
def State.gntTake (s : State) (p c : Nat) (mine : Nat → Bool) (other : Bool) (f : List Byte → Job → State → State) :
    State :=
  match s.jobNext 1 p c with
  | none => s
  | some (slot, d, s1) =>
    let g := match d with
      | .ok b => fld (dwordAt b 0) 55 48
      | .error _ => 0
    if !mine g && !(other && !gopKnown g) then s
    else
      let r := s1.jobTake 1 p c slot d garnetShape
      let ch := (s.ctx 1 p c).chain
      let open_ := match ch with
        | some h => !(decide (2 ≤ r.2.1.chain) && h.gop == g && h.keyslot == r.2.1.keyslot)
        | none => decide (2 ≤ r.2.1.chain)
      let st := if r.1 ≠ 0 then r.1 else if open_ then 0x1A
        else if (gopHasOut g && r.2.1.outs.isEmpty) || decide (15 < r.2.1.ins.length) then 1 else 0
      if st = 0 then f (match d with | .ok b => b | .error _ => []) r.2.1 r.2.2
      else (r.2.2.modCtx 1 p c fun x => { x with chain := none }).jobFail 1 p c r.2.1 st

/-- A job that ends well. -/
def State.gntDone (s : State) (p c : Nat) (j : Job) : State :=
  s.jobEnd 1 p c j 0 (lens j.ins) (pack [(63, 32, j.wrote), (31, 0, if j.ivNew then ofBytes j.iv / 2 ^ 64 else 0)])
    (if j.ivNew then BitVec.ofNat 64 (ofBytes j.iv) else 0)

/-! ## Layout (R440, R443) -/

def Job.isFirst (j : Job) : Bool := j.chain == 0 || j.chain == 1
def Job.isLast (j : Job) : Bool := j.chain == 0 || j.chain == 3

/-- Bytes before the message in a part's input, and after it. -/
def Job.pre (j : Job) (aad : Nat) : Nat :=
  if !j.isFirst then 0
  else match j.op with
    | 0x11 => 16
    | 0x21 => 12
    | 0x30 => aad
    | 0x31 => aad + 12
    | _ => 0
def Job.post (j : Job) : Nat := if j.op = 0x31 ∧ j.isLast then 16 else 0

/-- The IV block of CBC encryption. -/
def ivBlock (key iv : List Byte) : List Byte := aesEnc key (iv ++ [0, 0, 0, 0])

/-- The output that a message prefix determines, over the whole chain; `fin`: the message is complete. -/
def gopOut (g : Nat) (key iv aad : List Byte) (tweak : Nat) (msg : List Byte) (fin : Bool) : Except Nat (List Byte) :=
  let whole := msg.take (msg.length / 16 * 16)
  match g with
  | 0x10 =>
    let b := ivBlock key iv
    .ok (b ++ cbcEnc key b (if fin then pkcs7 msg else whole))
  | 0x11 =>
    if fin then match unpad (cbcDec key iv msg) with
      | some p => .ok p
      | none => .error 0x19
    else .ok (cbcDec key iv whole)
  | 0x20 => .ok (iv ++ ctrCrypt key iv 0 msg)
  | 0x21 => .ok (ctrCrypt key iv 0 msg)
  | 0x30 =>
    let c := ctrCrypt key iv 2 msg
    .ok (iv ++ c ++ if fin then gcmTag key iv aad c else [])
  | 0x31 => .ok (ctrCrypt key iv 2 msg)
  | 0x40 => if fin then .ok (xtsCrypt true key tweak msg) else .ok ((xtsCrypt true key tweak whole).take (whole.length - 16))
  | 0x41 => if fin then .ok (xtsCrypt false key tweak msg) else .ok ((xtsCrypt false key tweak whole).take (whole.length - 16))
  | _ => if !fin || gopVerify g then .ok [] else if g < 0x70 then .ok (shaOf g msg) else .ok (hmacOf g key msg)

/-- Length of that output. `pad`: the padding that CBC decryption removes. -/
def gopLen (g n pad : Nat) (fin : Bool) : Nat :=
  match g with
  | 0x10 => 16 + if fin then 16 * (n / 16 + 1) else n
  | 0x11 => if fin then n - pad else n
  | 0x20 => 12 + n
  | 0x30 => 12 + n + if fin then 16 else 0
  | 0x21 => n
  | 0x31 => n
  | 0x40 => n
  | 0x41 => n
  | _ => if fin && !gopVerify g then gopDigest g else 0

/-- Is a part's message length against R443? `before`: bytes of the earlier parts. -/
def lenBad (j : Job) (before n : Nat) : Bool :=
  let all := before + n
  (!j.isLast && (n == 0 || n % 4096 != 0)) ||
  match j.op with
  | 0x11 => (j.isLast && (n == 0 || n % 16 != 0)) || decide (2 ^ 36 - 16 < all)
  | 0x20 => all == 0 || decide (2 ^ 36 - 32 < all)
  | 0x21 => all == 0 || decide (2 ^ 36 - 32 < all)
  | 0x40 => decide (n < 16) || decide (16777216 < n)
  | 0x41 => decide (n < 16) || decide (16777216 < n)
  | 0x10 => decide (2 ^ 36 - 32 < all)
  | 0x30 => decide (2 ^ 36 - 32 < all)
  | 0x31 => decide (2 ^ 36 - 32 < all)
  | _ => decide (2 ^ 36 < all)

/-! ## Starting a job that lanes run (R437, R443, R446) -/

/-- Padding that a CBC decryption will remove: its last block is decrypted ahead. Bad padding counts as
the whole message, since nothing of it will be written. DEDUCED: log 50. -/
def State.cbcPad (s : State) (p : Nat) (j : Job) (key iv msg : List Byte) (n : Nat) : Except Nat Nat × State :=
  let len := lens j.ins
  match s.jobIn p j (len - min 32 len) (min 32 len) with
  | (.error e, s1) => (.error e, s1)
  | (.ok t, s1) =>
    let u := iv ++ msg ++ t
    let last := u.drop (u.length - 16)
    let prev := (u.take (u.length - 16)).drop (u.length - 32)
    (.ok (match unpad (cbcDec key prev last) with
      | some q => 16 - q.length
      | none => msg.length + n), s1)

/-- A job's key and the bytes that stand before its message. DEDUCED: log 45. -/
def State.gntStart (s : State) (p c : Nat) (b : List Byte) (j : Job) : State :=
  let set := s.ctxSet 1 p c
  let ch := (s.ctx 1 p c).chain
  let cont := !j.isFirst
  let len := lens j.ins
  let aadLen := fld (dwordAt b 0x18) 63 32
  let pre := j.pre aadLen
  let n := len - pre - j.post
  let before := match ch with
    | some h => h.msg.length
    | none => 0
  let st := if gopKeyed j.op then s.keyStatus p set j.keyslot j.op false cont else 0
  if st ≠ 0 then s.gntFail p c j st
  else if len < pre + j.post ∨ lenBad j before n then s.gntFail p c j 0x16
  else
    let key := match ch with
      | some h => h.key
      | none => if gopKeyed j.op then (s.slot j.keyslot).key else []
    match s.jobIn p j 0 pre with
    | (.error e, s1) => s1.gntFail p c j e
    | (.ok hd, s1) =>
      let j1 : Job := match ch with
        | some h => { j with key := key, iv := h.iv, aad := h.aad, msg := h.msg, base := h.out }
        | none => { j with key := key, aad := if j.op = 0x30 ∨ j.op = 0x31 then hd.take aadLen else [],
                           iv := if j.op = 0x11 then hd else if j.op = 0x21 then hd else hd.drop aadLen }
      let pad := if j.op = 0x11 ∧ j.isLast then s1.cbcPad p j1 key j1.iv j1.msg n else (.ok 0, s1)
      match pad with
      | (.error e, s2) => s2.gntFail p c j1 e
      | (.ok pd, s2) =>
        if j.limit + j1.base < gopLen j.op (before + n) pd j.isLast then s2.gntFail p c j1 0x17
        else if gopIv j.op && j.isFirst then
          match s2.drawIv j.keyslot with
          | (none, s3) => s3.gntFail p c j1 0x13
          | (some iv, s3) => s3.putJob 1 p c { j1 with iv := iv, ivNew := true, first := pre }
        else s2.putJob 1 p c { j1 with first := pre }

/-! ## Units (R434, R448, R449, R452) -/

/-- The result of a unit: the output still to be written, or the status that ends the job. -/
def Job.unit (j : Job) (msg tag : List Byte) (fin : Bool) : Except Nat (List Byte) :=
  if fin && j.op == 0x31 && gcmTag j.key j.iv j.aad msg != tag then .error 0x18
  else if fin && gopVerify j.op && hmacOf j.op j.key msg != j.expect.take (gopDigest j.op) then .error 0x18
  else match gopOut j.op j.key j.iv j.aad j.tweak.toNat msg fin with
    | .error e => .error e
    | .ok o => .ok (o.drop (j.base + j.wrote))

/-- Lane `lane` finishes the next 4 KiB of a context's job; `agree`: its datapaths agreed. -/
def State.jobUnit (s : State) (lane p c : Nat) (j : Job) (agree : Bool) : State :=
  let len := lens j.ins
  let n := min 4096 (len - j.taken)
  match s.jobIn p j j.taken n with
  | (.error e, s1) => s1.gntFail p c j e
  | (.ok bs, s1) =>
    if !agree then (s1.laneDisagree lane p).gntFail p c j 0x30
    else
      let part := (bs.take (len - j.post - j.taken)).drop (j.first - j.taken)
      let fin := j.taken + n == len
      match s1.jobIn p j (len - j.post) (if fin then j.post else 0) with
      | (.error e, s2) => s2.gntFail p c j e
      | (.ok tag, s2) =>
        let msg := j.msg ++ part
        match j.unit msg tag (fin && j.isLast) with
        | .error e => s2.gntFail p c j e
        | .ok out => match s2.jobOut p j j.wrote out with
          | (false, s3) => s3.gntFail p c j 3
          | (true, s3) =>
            let j1 := { j with msg := msg, taken := j.taken + n, wrote := j.wrote + out.length }
            let s4 := s3.addRf .gntStat [] 31 0 1
            let keep : Option Chain := if j.isLast then none
              else some ⟨j.op, j.keyslot, j.key, j.iv, j.aad, msg, j.base + j1.wrote⟩
            if fin then (s4.modCtx 1 p c fun x => { x with chain := if x.state = 1 then keep else none }).gntDone p c j1
            else match j.fail with
              | some f => s4.gntFail p c j1 f.1
              | none => s4.putJob 1 p c j1

/-- Output of a key command, all or none. -/
def State.keyOut (s : State) (p c : Nat) (j : Job) (bs : List Byte) : State :=
  if j.limit < bs.length then s.gntFail p c j 0x17
  else match s.jobOut p j 0 bs with
    | (false, s1) => s1.gntFail p c j 3
    | (true, s1) => s1.gntDone p c { j with wrote := bs.length }

/-- A set's NGNT quota has room for one more bound slot (R356). -/
def State.slotRoom (s : State) (p set : Nat) : Bool :=
  match s.vset? p set with
  | some v => set == 0 || decide (s.bound set < v.ngnt)
  | none => true

/-- A slot loaded with a key and a fresh instance (R438, R441). DESIGN CHOICE: log 42. -/
def State.loadSlot (s : State) (p c : Nat) (j : Job) (set : Nat) (attr : W64) (key : List Byte) : State :=
  if !s.slotRoom p set then s.draw.2.gntFail p c j (fld s.draw.1 7 0)
  else match s.drawInst with
    | (none, s1) => s1.gntFail p c j 0x15
    | (some i, s1) =>
      let k : KeySlot := {
        st := 1, attr := attr, key := key, set := set, inst := i, pairId := s.pairBit, counter := 0, ceil := 0,
        fresh := false }
      (s1.putSlot j.keyslot k).gntDone p c j

/-- The key wrap of KEY_EXPORT, and the unwrapping of KEY_IMPORT, once the lane's datapaths agree (R438, R448). `key` holds
the wrapping key, and `msg` what is wrapped, from the job's start. -/
def State.keyUnit (s : State) (lane p c : Nat) (j : Job) (agree : Bool) : State :=
  if !agree then (s.laneDisagree lane p).gntFail p c j 0x30
  else
    let s0 := s.addRf .gntStat [] 31 0 1
    match j.fail with
    | some f => s0.gntFail p c j f.1
    | none =>
      if j.op = 0x50 then s0.keyOut p c j (kwWrap j.key j.msg)
      else match s0.jobIn p j 0 (lens j.ins) with
        | (.error e, s2) => s2.gntFail p c j e
        | (.ok bs, s2) => match kwUnwrap j.key bs with
          | none => s2.gntFail p c j 0x18
          | some u =>
            let attr := dwordAt u 0
            if !attrOk attr || dwordAt u 8 != 0 then s2.gntFail p c j 1
            else if u.length ≠ 16 + keyLen attr then s2.gntFail p c j 0x16
            else s2.loadSlot p c { j with taken := lens j.ins } (s2.ctxSet 1 p c) attr (u.drop 16)

/-- The digest of an ECDSA job's message: 4 KiB more of its input have passed a lane (R433, R448). -/
def State.hashUnit (s : State) (lane p c : Nat) (j : Job) (agree : Bool) : State :=
  let n := min 4096 (lens j.ins - j.taken)
  match s.jobIn p j j.taken n with
  | (.error e, s1) => s1.gntFail p c j e
  | (.ok _, s1) =>
    if !agree then (s1.laneDisagree lane p).gntFail p c j 0x30
    else match j.fail with
      | some f => (s1.addRf .gntStat [] 31 0 1).gntFail p c { j with taken := j.taken + n } f.1
      | none => (s1.addRf .gntStat [] 31 0 1).putJob 1 p c { j with taken := j.taken + n }

/-- The lane finishes 4 KiB of an inline exchange; a disagreement ends the exchange (R449). -/
def State.xchUnit (s : State) (lane : Nat) (x : Xch) (agree : Bool) : State :=
  if agree then (s.addRf .gntStat [] 31 0 1).keepXch { x with unitsDone := x.unitsDone + 1 }
  else ((s.laneDisagree lane x.pid).finishX x 9 5 0x30 ((x.cmpl.map Prod.snd).getD 0)).afterEnd x.pid

/-- The lane finishes the unit that it holds; nothing comes of one whose job or exchange has ended meanwhile. -/
def State.unitEnd (s : State) (lane : Nat) (w : Work) (agree : Bool) : State :=
  match w with
  | .scion => s
  | .job p c slot => match (s.ctx 1 p c).job with
    | some j =>
      if j.slot ≠ slot then s
      else if j.op = 0x80 then s.hashUnit lane p c j agree
      else if j.op = 0x50 ∨ j.op = 0x51 then s.keyUnit lane p c j agree
      else s.jobUnit lane p c j agree
    | none => s
  | .xch p lidx xsn => match s.xch? p lidx with
    | some x => if x.xsn = xsn then s.xchUnit lane x agree else s
    | none => s

/-- Has an inline exchange a unit waiting (R294, R296, R451)? Garnet works on one unit of it at a time. -/
def State.xchUnitWaits (s : State) (x : Xch) : Bool :=
  !s.unitHeld x.work &&
  ((x.outRuns && decide (x.outBlocks ≤ x.blocksTaken) && x.inLanes.isEmpty && decide (x.unitsDone < s.outUnits x)) ||
    (x.cmpl.isSome && decide (x.unitsDone < x.inUnits)))

/-- Contexts whose jobs have a unit waiting, in the order of their keys. -/
def State.jobUnits (s : State) : List (Nat × Work) :=
  s.trl.ctxs.filterMap fun x =>
    if x.1 < 1024 then none
    else match x.2.job with
      | none => none
      | some j =>
        let w := Work.job (x.1 % 1024 / 16) (x.1 % 16) j.slot
        if (j.op = 0x80 ∧ lens j.ins ≤ j.taken) ∨ s.unitHeld w then none else some (x.1, w)

/-- An exchange holds its own copy of the key from the first unit of its inbound transform on (R453). -/
def State.holdKey (s : State) : Work → State
  | .scion => s
  | .job .. => s
  | .xch p lidx _ => match s.xch? p lidx with
    | none => s
    | some x =>
      if x.cmpl.isSome && x.unitsDone == 0 && x.inKey.isNone && s.keyStatus x.pid x.set x.keyslot (x.gop + 1) true false == 0 then
        s.keepXch { x with inKey := some (s.slot x.keyslot).key }
      else s

/-- A free lane takes its next unit: Class 0, the other classes in order, the job contexts (R434). The module's own
requests are served within the step that makes them. -/
def State.unitTake (s : State) (lane : Nat) : State :=
  let inline := (byClass [[0], [1], [2], [3]] (s.trl.xchs.filter s.xchUnitWaits)).map Xch.work
  match s.gnt.turn.next inline s.jobUnits with
  | none => s
  | some (w, t) => (s.modGnt fun g => { g with units := g.units ++ [(lane, w)], turn := t }).holdKey w

/-- A unit boundary of a lane: it finishes the unit that it holds, if any, and takes its next one, unless the island is asked to go
idle (R434, R448, R449, R499);
`agree`: its datapaths agreed. -/
def execGarnetUnitComplete (lane : Fin 16) (agree : Bool) (s : State) : Host.Outcome State Fault Refusal :=
  .next (
    if s.gnt.outLanes.contains lane.val ∨ s.scn.role = 2 ∨ s.stalled ∨ !s.islRuns 106 then s
    else
      let s0 := s.modGnt fun g => { g with units := g.units.filter fun u => u.1 != lane.val }
      let s1 := match s.gnt.units.find? fun u => u.1 == lane.val with
        | some u => s0.unitEnd lane.val u.2 agree
        | none => s0
      if s1.gnt.outLanes.contains lane.val || s.idleAsked 106 then s1 else s1.unitTake lane.val)

/-! ## The jobs by GOP (R443) -/

def execAesCbcEncrypt (p : Pid) (c : Fin 8) (s : State) : Host.Outcome State Fault Refusal :=
  .next (s.gntTake p.val c.val (· == 0x10) true fun b j s1 => s1.gntStart p.val c.val b j)

def execAesCbcDecrypt (p : Pid) (c : Fin 8) (s : State) : Host.Outcome State Fault Refusal :=
  .next (s.gntTake p.val c.val (· == 0x11) false fun b j s1 => s1.gntStart p.val c.val b j)

def execAesCtrEncrypt (p : Pid) (c : Fin 8) (s : State) : Host.Outcome State Fault Refusal :=
  .next (s.gntTake p.val c.val (· == 0x20) false fun b j s1 => s1.gntStart p.val c.val b j)

def execAesCtrDecrypt (p : Pid) (c : Fin 8) (s : State) : Host.Outcome State Fault Refusal :=
  .next (s.gntTake p.val c.val (· == 0x21) false fun b j s1 => s1.gntStart p.val c.val b j)

def execAesGcmEncrypt (p : Pid) (c : Fin 8) (s : State) : Host.Outcome State Fault Refusal :=
  .next (s.gntTake p.val c.val (· == 0x30) false fun b j s1 => s1.gntStart p.val c.val b j)

def execAesGcmDecrypt (p : Pid) (c : Fin 8) (s : State) : Host.Outcome State Fault Refusal :=
  .next (s.gntTake p.val c.val (· == 0x31) false fun b j s1 => s1.gntStart p.val c.val b j)

def execAesXtsEncrypt (p : Pid) (c : Fin 8) (s : State) : Host.Outcome State Fault Refusal :=
  .next (s.gntTake p.val c.val (· == 0x40) false fun b j s1 => s1.gntStart p.val c.val b j)

def execAesXtsDecrypt (p : Pid) (c : Fin 8) (s : State) : Host.Outcome State Fault Refusal :=
  .next (s.gntTake p.val c.val (· == 0x41) false fun b j s1 => s1.gntStart p.val c.val b j)

def execSha (p : Pid) (c : Fin 8) (s : State) : Host.Outcome State Fault Refusal :=
  .next (s.gntTake p.val c.val (fun g => decide (0x60 ≤ g) && decide (g ≤ 0x64)) false fun b j s1 => s1.gntStart p.val c.val b j)

def execHmacGenerate (p : Pid) (c : Fin 8) (s : State) : Host.Outcome State Fault Refusal :=
  .next (s.gntTake p.val c.val (fun g => decide (0x70 ≤ g) && decide (g ≤ 0x72)) false fun b j s1 => s1.gntStart p.val c.val b j)

def execHmacVerify (p : Pid) (c : Fin 8) (s : State) : Host.Outcome State Fault Refusal :=
  .next (s.gntTake p.val c.val gopVerify false fun b j s1 => s1.gntStart p.val c.val b j)

/-! ## Signatures (R433, R443, R448) -/

/-- Is the one ECDSA unit in use? -/
def State.ecdsaBusy (s : State) : Bool :=
  s.trl.ctxs.any fun x => decide (1024 ≤ x.1) && x.2.job.any fun j => j.op == 0x80

def execEcdsaP384Verify (p : Pid) (c : Fin 8) (s : State) : Host.Outcome State Fault Refusal :=
  .next (if s.ecdsaBusy then s
    else s.gntTake p.val c.val (· == 0x80) false fun _ j s1 =>
      let len := lens j.ins
      if len < 192 ∨ 2 ^ 36 + 192 < len then s1.gntFail p.val c.val j 0x16 else s1.putJob 1 p.val c.val j)

/-- The ECDSA unit has verified twice, once lanes have made the digest, and compares the verdicts; a job of a context that
has been stopped ends with 0x20 (R433, R448, R452). DESIGN CHOICE: log 56. -/
def execEcdsaVerifyComplete (p : Pid) (c : Fin 8) (agree : Bool) (s : State) : Host.Outcome State Fault Refusal :=
  .next (match (s.ctx 1 p.val c.val).job with
    | none => s
    | some j =>
      if j.op ≠ 0x80 ∨ s.scn.role = 2 ∨ s.stalled ∨ j.taken < lens j.ins then s
      else match s.jobIn p.val j 0 (lens j.ins) with
        | (.error e, s1) => s1.gntFail p.val c.val j e
        | (.ok bs, s1) =>
          if !agree then (s1.fault blkGarnet clsContained 0x0902 p.val 0).gntFail p.val c.val j 0x30
          else
            if j.fail.isSome then s1.gntFail p.val c.val j 0x20
            else
            let num := fun (i : Nat) => ofBytes ((bs.drop (48 * i)).take 48)
            if ecdsaVerify (num 0) (num 1) (num 2) (num 3) (sha384 (bs.drop 192)) then
              s1.gntDone p.val c.val { j with taken := lens j.ins }
            else s1.gntFail p.val c.val { j with taken := lens j.ins } 0x18)

/-! ## Key commands (R436-R438) -/

/-- May the set use a slot at all: its range and its set (R437)? -/
def State.slotReach (s : State) (p set n : Nat) : Bool :=
  s.inRange p n && (set == 0 || (s.slot n).st == 0 || (s.slot n).set == set)

/-- May the set use a slot as a wrapping key? -/
def State.kekStatus (s : State) (p set n : Nat) : Nat :=
  let k := s.slot n
  if !s.slotReach p set n then 0x10 else if k.st = 0 then 0x12
  else if fld k.attr 63 60 ≠ 6 ∨ !bit k.attr 53 then 0x11 else 0

/-- The lane's unit does the rest (`keyUnit`). -/
def execKeyExport (p : Pid) (c : Fin 8) (s : State) : Host.Outcome State Fault Refusal :=
  .next (s.gntTake p.val c.val (· == 0x50) false fun _ j s1 =>
    let set := s.ctxSet 1 p.val c.val
    let k := s1.slot j.keyslot
    let w := s1.kekStatus p.val set j.wslot
    if !s1.slotReach p.val set j.keyslot then s1.gntFail p.val c.val j 0x10
    else if k.st = 0 then s1.gntFail p.val c.val j 0x12
    else if !bit k.attr 52 then s1.gntFail p.val c.val j 0x11
    else if w ≠ 0 then s1.gntFail p.val c.val j w
    else s1.putJob 1 p.val c.val { j with key := (s1.slot j.wslot).key, msg := dwords [k.attr, 0] ++ k.key })

/-- The lane's unit does the rest (`keyUnit`). -/
def execKeyImport (p : Pid) (c : Fin 8) (s : State) : Host.Outcome State Fault Refusal :=
  .next (s.gntTake p.val c.val (· == 0x51) false fun _ j s1 =>
    let set := s.ctxSet 1 p.val c.val
    let w := s1.kekStatus p.val set j.wslot
    let len := lens j.ins
    if !s1.slotReach p.val set j.keyslot then s1.gntFail p.val c.val j 0x10
    else if (s1.slot j.keyslot).st ≠ 0 then s1.gntFail p.val c.val j 0x14
    else if w ≠ 0 then s1.gntFail p.val c.val j w
    else if len < 32 ∨ 8 + 16 + 128 < len ∨ len % 8 ≠ 0 then s1.gntFail p.val c.val j 0x16
    else s1.putJob 1 p.val c.val { j with key := (s1.slot j.wslot).key })

def execKeyGenerate (p : Pid) (c : Fin 8) (s : State) : Host.Outcome State Fault Refusal :=
  .next (s.gntTake p.val c.val (· == 0x52) false fun _ j s1 =>
    let set := s.ctxSet 1 p.val c.val
    if !attrOk j.tweak then s1.gntFail p.val c.val j 1
    else if !s1.slotReach p.val set j.keyslot then s1.gntFail p.val c.val j 0x10
    else if (s1.slot j.keyslot).st ≠ 0 then s1.gntFail p.val c.val j 0x14
    else
      let d := s1.drawBytes (keyLen j.tweak)
      d.2.loadSlot p.val c.val j set j.tweak d.1)

/-- DEDUCED: log 57. -/
def execKeyZero (p : Pid) (c : Fin 8) (s : State) : Host.Outcome State Fault Refusal :=
  .next (s.gntTake p.val c.val (· == 0x53) false fun _ j s1 =>
    if !s1.slotReach p.val (s.ctxSet 1 p.val c.val) j.keyslot then s1.gntFail p.val c.val j 0x10
    else (s1.putSlot j.keyslot (KeySlot.empty 0)).gntDone p.val c.val j)

/-- DEDUCED: log 135. -/
def execKeyQuery (p : Pid) (c : Fin 8) (s : State) : Host.Outcome State Fault Refusal :=
  .next (s.gntTake p.val c.val (· == 0x54) false fun _ j s1 =>
    let k := s1.slot j.keyslot
    if !s1.slotReach p.val (s.ctxSet 1 p.val c.val) j.keyslot then s1.gntFail p.val c.val j 0x10
    else s1.keyOut p.val c.val j
      (dwords [k.attr, pack [(63, 62, k.st), (31, 31, k.pairId.toNat), (30, 0, k.inst)], BitVec.ofNat 64 k.counter]))

/-! ## The key store and slot ranges (R435, R439, R454) -/

/-- Setting GNT.KSBASE.EN. -/
def State.ksEnable (s : State) : State :=
  if s.rf .gntKsbase [] 0 0 = 1 then s
  else (s.setRf .gntKsbase [] 0 0 1).enableKeyStore s.gnt.warm

def execKeyStoreEnable (s : State) : Host.Outcome State Fault Refusal :=
  .next (s.cfgw .gntKsbase [] (setBit (s.reg .gntKsbase) 0 true)).ksEnable

def execPslotWrite (p : Pid) (v : W64) (s : State) : Host.Outcome State Fault Refusal :=
  .next ((s.cfgw .gntPslot [p.val] v).writePslot p.val v)

/-- Lanes that hold a unit. -/
def State.gntBusy (s : State) : Nat := min 16 s.gnt.units.length

/-- GNT.STAT and GNT.INST as read. -/
def State.gntStatRead (s : State) : W64 :=
  pack [(63, 56, 16 - s.gnt.outLanes.length), (55, 48, s.gntBusy), (31, 0, s.rf .gntStat [] 31 0)]
def State.gntInstRead (s : State) : W64 := pack [(31, 31, s.pairBit.toNat), (30, 0, min s.gnt.inst (2 ^ 31 - 1))]

end Sys2Proof.Machine
end

