-- ==== Sys2Proof/Machine/MemCtl.lean ====
section
/-! DEFINITION. Memory controllers: the outer code, marks, poison, patrol and scrubbing, refresh,
temperature and training (10 R247-R272). -/

namespace Sys2Proof.Machine

/-! ## The population (R247-R249) -/

/-- The DIMM of a channel that the others are like (R248). -/
def State.dimm? (s : State) (n : Nat) : Option Dimm := (s.spd.find? fun x => x.1 / 2 == n).map Prod.snd

def State.dimmCount (s : State) (n : Nat) : Nat := (s.spd.filter fun x => x.1 / 2 == n).length

/-- A DIMM that R247 supports, fast enough for `dpc` DIMMs per channel, whose hub answers. -/
def Dimm.supported (d : Dimm) (dpc : Nat) : Bool :=
  d.answers && d.rdimm && (d.width == 4 || d.width == 8) && decide (1 ≤ d.stack) && decide (d.stack ≤ 4) &&
  (d.ranks == 1 || d.ranks == 2) && [16, 24, 32, 48, 64, 96, 128].contains d.cap &&
  decide ((if dpc = 2 then 56 else 64) ≤ d.speed)

/-- Channels with a DIMM. -/
def State.channels (s : State) : List Nat := (List.range 12).filter fun n => decide (0 < s.dimmCount n)

/-- Is the population one of R247 and R248, with every SPD hub answering (R249)? -/
def State.popOk (s : State) : Bool :=
  (s.channels == List.range 12 || s.channels == [0, 2, 4, 6, 8, 10]) &&
  match s.spd with
  | [] => false
  | (k, d) :: _ =>
    let dpc := s.dimmCount (k / 2)
    decide (dpc ≤ 2) && (s.channels.all fun n => s.dimmCount n == dpc) &&
    s.spd.all fun x => x.2.supported dpc && x.2.cap == d.cap && x.2.width == d.width && x.2.ranks == d.ranks &&
      x.2.stack == d.stack

/-- The DIMMs of a channel whose hubs have answered (R249). -/
def State.dimmsFound (s : State) (n : Nat) : List Dimm :=
  ((s.spd.filter fun x => x.1 / 2 == n).map Prod.snd).filter Dimm.answers

/-- The registers' view of the population found on a channel (R249, R272): MCn.CFG but for EN. -/
def State.popCfg (s : State) (n : Nat) : W64 :=
  match s.dimmsFound n with
  | [] => 0
  | d :: ds =>
    pack [(47, 40, if ds.isEmpty then 0x40 else 0x38), (39, 24, ((d :: ds).map Dimm.cap).sum),
      (15, 12, ((d :: ds).map Dimm.ranks).sum), (9, 8, ds.length + 1), (4, 4, (d.width == 8).toNat)]

/-- The controllers take the population that Coldframe has found (R248, R249). -/
def State.populate (s : State) : State :=
  match s.spd with
  | [] => s
  | (k, d) :: _ =>
    let dpc := s.dimmCount (k / 2)
    { s with
      dram := s.channels.length * dpc * d.cap * 2 ^ 30, ways := s.channels.length, dpc := dpc, ranks := dpc * d.ranks,
      x8 := d.width == 8 }

/-! ## The channel-local address (R252, R253) -/

/-- The channel-local line number of a line (R252). -/
def State.localLine (s : State) (line : Nat) : Nat := line / 4 / s.ways * 4 + line % 4

/-- A channel-local line in DRAM coordinates, its fields in the order of R253 from the low column up; `dpc` DIMMs like
`d` on the channel. The bank group and the bank are XORed with the low bits of the row. -/
def Dimm.decode (d : Dimm) (dpc k : Nat) : DramAt :=
  let bgs := 2 ^ d.bgBits
  let banks := 2 ^ d.bankBits
  let cols := 2 ^ d.colBits / 128
  let k1 := k / 4
  let k2 := k1 / bgs
  let k3 := k2 / banks
  let k4 := k3 / d.ranks
  let k5 := k4 / dpc
  let k6 := k5 / d.stack
  let row := k6 / cols
  { bg := (k1 % bgs) ^^^ (row % bgs), bank := (k2 % banks) ^^^ (row / bgs % banks), rank := k3 % d.ranks, dimm := k4 % dpc,
    cid := k5 % d.stack, col := k6 % cols * 4 + k % 4, row := row }

/-- The coordinates of a line of controller `n` (R253). -/
def State.dramAt (s : State) (n line : Nat) : Option DramAt :=
  (s.dimm? n).map fun d => d.decode s.dpc (s.localLine line)

/-- The rank of the channel that holds a line: DIMM 0's ranks, then DIMM 1's (R253, R272). -/
def State.rankOf (s : State) (n line : Nat) : Nat :=
  match s.dimm? n with
  | none => 0
  | some d => let x := d.decode s.dpc (s.localLine line); x.dimm * d.ranks + x.rank

/-! ## The outer code (R255-R259) -/

/-- What the outer code makes of an error: clean; corrected, with the device positions; uncorrectable; beyond what the
code is stated for. -/
inductive Decode where
  | clean | corrected (pos : List Nat) | uncorrectable | beyond
  deriving DecidableEq, Repr

/-- The mark of a rank: its device position (R257, R272). -/
def State.mark (s : State) (n rank : Nat) : Option Nat :=
  let f := s.rf .mcDevmark [n] (16 * rank + 15) (16 * rank)
  if 2 ^ 15 ≤ f then some (f % 32) else none

/-- One codeword whose error lies in the device positions `bad` (R255-R257). `beyond`: more positions than the code is
stated for. -/
def codeword (x8 : Bool) (mark : Option Nat) (bad : List Nat) : Decode :=
  let rest := (bad.eraseDups).filter fun p => some p != mark
  match rest with
  | [] => .clean
  | [p] => .corrected [p]
  | [_, _] => if x8 then .beyond else .uncorrectable
  | [_, _, _] => if x8 || mark.isSome then .beyond else .uncorrectable
  | _ => .beyond

/-- Two codewords of one line. -/
def Decode.and : Decode → Decode → Decode
  | .uncorrectable, _ => .uncorrectable
  | _, .uncorrectable => .uncorrectable
  | .beyond, _ => .beyond
  | _, .beyond => .beyond
  | .clean, d => d
  | d, .clean => d
  | .corrected a, .corrected b => .corrected (a ++ b.filter fun p => !a.contains p)

/-- The codewords of one burst with wrong symbols, eight, or four with x8 devices, each decoded by itself (R250,
R255-R257). -/
def burstWords (x8 : Bool) (mark : Option Nat) (bad : List BadSymbol) (burst : Bool) : List Decode :=
  (List.range (if x8 then 4 else 8)).map fun w =>
    codeword x8 mark ((bad.filter fun b => b.burst == burst && b.word.toNat == w).map fun b => b.pos.toNat)

/-- The outer code on one burst of a line. -/
def burstCode (x8 : Bool) (mark : Option Nat) (bad : List BadSymbol) (burst : Bool) : Decode :=
  (burstWords x8 mark bad burst).foldl Decode.and .clean

/-- The outer code on a line, which is two bursts (R250). -/
def outerCode (x8 : Bool) (mark : Option Nat) (bad : List BadSymbol) : Decode :=
  (burstCode x8 mark bad false).and (burstCode x8 mark bad true)

/-- The device positions that a line's codewords are corrected in, whatever becomes of the others. -/
def correctedIn (x8 : Bool) (mark : Option Nat) (bad : List BadSymbol) : List Nat :=
  ([false, true].flatMap fun b => (burstWords x8 mark bad b).flatMap fun d => match d with
    | .corrected pos => pos
    | _ => []).eraseDups

/-- A correction counted, and recorded once per rank and STC second (R271). -/
def State.mcCounted (s : State) (n rank line : Nat) : State :=
  let s1 := s.incRf .mcErrcnt [n] 63 32
  let x := s1.mc n
  let sec := s.stc.sec
  if Map.get zeroNat x.rated301 rank = sec + 1 then s1
  else (s1.setMc n { x with rated301 := Map.set zeroNat x.rated301 rank (sec + 1) }).fault
    (blkMc n) clsCorrected 0x0301 0 (line * 256)

/-- A read corrected in a device position, perhaps the sixteenth there within 10 minutes (R257). -/
def State.mcPosition (n rank line : Nat) (s : State) (pos : Nat) : State :=
  let sec := s.stc.sec
  let x := s.mc n
  let recent := (x.corrections.filter fun c => sec ≤ c.sec + 600) ++ [Correction.mk rank pos sec]
  let s3 := s.setMc n { x with corrections := recent }
  if !s.x8 && (s.mark n rank).isNone &&
      decide (16 ≤ (recent.filter fun c => c.rank == rank && c.pos == pos).length) then
    (s3.setRf .mcDevmark [n] (16 * rank + 15) (16 * rank) (2 ^ 15 + pos)).fault
      (blkMc n) clsCorrected 0x0302 0 (line * 256)
  else s3

/-- A corrected read: counted once, and against each device position that was wrong (R257, R271). -/
def State.mcCorrected (s : State) (n rank : Nat) (pos : List Nat) (line : Nat) : State :=
  pos.foldl (State.mcPosition n rank line) (s.mcCounted n rank line)

/-- Does an L2 hold the line dirty, so that what DRAM holds is not its content (R191)? -/
def State.dirtyLine (s : State) (line : Nat) : Bool :=
  (List.range 56).any fun c => let st := (s.l2l c line).st; st == .m || st == .o

/-- Is what DRAM holds of a line out of date: an L2 holds it dirty, or a newer write waits in the controller's queue (R191,
R196, R251)? -/
def State.dramStale (s : State) (line : Nat) : Bool :=
  s.dirtyLine line || (Map.get noLines s.mcq (s.mcOf (line * 256))).contains line

/-- An uncorrectable read: the poison pattern, or zeros in a free granule, and the record that the
POT entry chooses (R259). Before the POT is enabled memory is the Secure World's (DEDUCED, log 18). -/
def State.mcPoison (s : State) (n line : Nat) : State :=
  let a := line * 256
  let e := if s.rf .potBase [] 0 0 = 1 then s.potEntry a else pack [(57, 57, 1), (56, 54, potOwned)]
  let st := fld e 56 54
  let s1 := s.incRf .mcErrcnt [n] 31 16
  let mark := if s.dramStale line then s1 else s1.setPoison line true
  let b := blkMc n
  if fld e 57 57 = 1 ∨ st = potModule then mark.fault b clsFatal 0x0304 0 a
  else if st = 0 ∨ st = potScrub then
    (if s.dramStale line then s1 else s1.wr a (List.replicate 256 0)).fault b clsCorrected 0x0303 0 a
  else
    let s2 := mark.fault b clsContained 0x0303 (fld e 63 58) a
    if st = potShared then s2.partRecord (fld e 53 48) b ⟨clsContained, 0x0303, fld e 53 48, a, 0, none⟩
    else s2

/-- An uncorrectable read, and what Scion does at one in the mirror of a Standby or in the private region of a module
that runs epochs (R259, R385, R404). A Standby's FAIL comes before the reaction to a FATAL record of the line. -/
def State.mcUncorrectable (s : State) (n line : Nat) : State :=
  let s1 := (if s.scn.role = 2 ∧ s.scn.takeover.isNone then s.mirrorFail else s).mcPoison n line
  if s.scn.role = 2 ∧ s.scn.takeover.isNone then s1
  else if s.scn.running && s.inPriv (line * 256) then s1.fault blkScion clsFatal 0x0709 0 (line * 256)
  else s1

/-- The half of a line that a miscorrected burst carries: bytes 0x00-0x7F or 0x80-0xFF (R250; DESIGN CHOICE, log 19). -/
def State.burstFree (s : State) (line : Nat) (burst : Bool) : State :=
  let r := s.drawBytes 128
  r.2.wr (line * 256 + (if burst then 128 else 0)) r.1

/-- A line read from DRAM with wrong symbols `bad` and decoded (R250-R261). A poisoned line reads as
its pattern and is not recorded again. Beyond what the code is stated for, the read is either
detected or miscorrected (DESIGN CHOICE, log 19). -/
def State.mcDecode (s : State) (n line : Nat) (bad : List BadSymbol) : State :=
  let rank := s.rankOf n line
  let mark := s.mark n rank
  if s.poisoned line then s
  else match outerCode s.x8 mark bad with
    | .clean => s
    | .corrected pos => s.mcCorrected n rank pos line
    | .uncorrectable => s.mcUncorrectable n line
    | .beyond =>
      let s1 := { s with free := s.free + 1 }
      if Config.freeBool s.free then s1.mcUncorrectable n line
      else
        let s2 := match correctedIn s.x8 mark bad with
          | [] => s1
          | pos => s1.mcCorrected n rank pos line
        if s.dramStale line then s2
        else ([false, true].filter fun b => burstCode s.x8 mark bad b == .beyond).foldl (fun s b => s.burstFree line b) s2

/-- A read of a line; one that was corrected is written back (R261, R262). -/
def State.mcReadLine (s : State) (n line : Nat) (bad : List BadSymbol) : State :=
  let s1 := s.mcDecode n line bad
  match s.poisoned line, outerCode s.x8 (s.mark n (s.rankOf n line)) bad with
  | false, .corrected _ => s1.modMc n fun x => { x with scrubs := x.scrubs.filter (· != line) ++ [line] }
  | _, _ => s1

/-! ## The queues of a controller (R251) -/

/-- The read is done: its line's transaction has the data. -/
def State.fetchedLine (s : State) (line : Nat) : State :=
  { s with txns := s.txns.map fun t => if t.req.line = line then { t with fetched := true } else t }

/-- Is it the line's turn: the first of the read queue, or, with none waiting, one that a hub block reads (R251)? -/
def State.readTurn (s : State) (n line : Nat) : Bool :=
  match s.readQueue n with
  | [] => true
  | l :: _ => l == line

/-- A controller read. A line in the write queue is served from the queue (R251). Which of its two bursts goes first
(R250) shows in no state. -/
def execMcRead (n : McId) (line : Line) (bad : List BadSymbol) (s : State) : Host.Outcome State Fault Refusal :=
  let l := line.toNat
  .next (if s.isDram (l * 256) && s.mcOf (l * 256) == n.val && !(Map.get noLines s.mcq n).contains l && s.readTurn n l then
    (s.mcReadLine n l bad).fetchedLine l else s)

/-- While the queue drains, its oldest line is written to DRAM, once no read waits (R251). A poisoned line keeps its mark,
which the poison pattern carries (R258). -/
def execMcWrite (n : McId) (s : State) : Host.Outcome State Fault Refusal :=
  let q := Map.get noLines s.mcq n
  .next (if (s.mc n).draining && (s.readQueue n).isEmpty then
    ({ s with mcq := Map.set noLines s.mcq n (q.drop 1) } : State).modMc n fun x =>
      { x with draining := decide (32 < q.length - 1) }
  else s)

/-! ## Patrol and scrubbing (R254, R260-R264) -/

/-- Lines of a channel (R248). -/
def State.chanLines (s : State) : Nat := s.dram / s.ways / 256

/-- The line at a channel-local line number of a controller (R252, inverted). -/
def State.patrolLine (s : State) (n k : Nat) : Nat :=
  (k / 4 * s.ways + (if s.ways = 12 then n else n / 2)) * 4 + k % 4

/-- The next line of the patrol; one in the write queue is served from there (R251, R260). -/
def execPatrolRead (n : McId) (bad : List BadSymbol) (s : State) : Host.Outcome State Fault Refusal :=
  let x := s.mc n
  let l := s.patrolLine n x.patrol
  .next (if x.selfRefresh ∨ (s.ways = 6 ∧ n.val % 2 = 1) then s
  else
    let s1 := s.setMc n { x with patrol := (x.patrol + 1) % s.chanLines }
    if (Map.get noLines s.mcq n).contains l then s1 else s1.mcReadLine n l bad)

/-- The scrub write-back is ordered at the home, unless a newer write was accepted; it changes no
data and no poison mark (R262, R382). -/
def execScrubWriteback (n : McId) (line : Line) (s : State) : Host.Outcome State Fault Refusal :=
  let l := line.toNat
  .next (if (s.mc n).scrubs.contains l then s.mcAccept l else s)

/-- OD 0x10.0002, the ECS threshold (R254). -/
def execEcsRead (n : McId) (rank : BitVec 2) (count row : BitVec 32) (s : State) :
    Host.Outcome State Fault Refusal :=
  .next (if s.odv 0x100002 < count.toNat then
    s.fault (blkMc n) clsCorrected 0x0306 0 0 (pack [(35, 32, rank.toNat), (31, 0, row.toNat)]) else s)

def execRefresh (n : McId) (rank : BitVec 2) (s : State) : Host.Outcome State Fault Refusal :=
  .next (s.modMc n fun x =>
    if x.selfRefresh then x else { x with refreshed := some rank.toNat, refreshes := x.refreshes + 1 })

def execRfm (n : McId) (_rank : BitVec 2) (_bank : BitVec 5) (s : State) : Host.Outcome State Fault Refusal :=
  .next (s.modMc n fun x => if x.selfRefresh then x else { x with rfms := x.rfms + 1 })

/-- A signed temperature. -/
def degrees (b : Nat) : Int := (BitVec.ofNat 8 b).toInt

/-- Bit of MCn.TEMP's byte for a DIMM's latest and last-training temperature (R272). -/
def curLo (dimm : Bool) : Nat := if dimm then 8 else 0
def trnLo (dimm : Bool) : Nat := if dimm then 24 else 16

/-- A reading of a DIMM's sensor, or none: the third unanswered read in a row counts as 95 °C and is
recorded (R263); above 95 °C the channel runs at half rate, until it reads below 90 °C (R264). -/
def execTemperaturePoll (n : McId) (dimm : Bool) (reading : Option (BitVec 8)) (s : State) :
    Host.Outcome State Fault Refusal :=
  let x := s.mc n
  let silent := if dimm then x.silent1 else x.silent0
  let k := if reading.isSome then 0 else silent + 1
  let s1 := s.setMc n (if dimm then { x with silent1 := k } else { x with silent0 := k })
  let lo := curLo dimm
  let set := fun (v : Nat) (s : State) =>
    let s' := s.setRf .mcTemp [n] (lo + 7) lo v
    let hot := decide (95 < degrees v)
    let cool := decide (degrees (s'.rf .mcTemp [n] 7 0) < 90) && decide (degrees (s'.rf .mcTemp [n] 15 8) < 90)
    if hot && !(s'.mc n).halfRate then
      (s'.modMc n fun y => { y with halfRate := true }).fault (blkMc n) clsCorrected 0x0307 0 0
    else if cool then s'.modMc n fun y => { y with halfRate := false }
    else s'
  .next (match reading with
    | some v => set v.toNat s1
    | none => if k = 3 then (set 95 s1).fault (blkMc n) clsCorrected 0x0307 0 0 else s1)

/-! ## Training (R265-R270) -/

/-- Does controller `n` keep its timing: it is in Run, not in self-refresh (R267)? -/
def State.keepsTime (s : State) (n : Nat) : Bool := s.power.state == .run && !(s.mc n).selfRefresh

def execDqsIntervalOscillator (n : McId) (_rank : BitVec 2) (s : State) : Host.Outcome State Fault Refusal :=
  .next (if s.keepsTime n then s.modMc n fun x => { x with oscs := x.oscs + 1 } else s)

/-- The rank in full re-training, if any (R272). -/
def State.retraining (s : State) (n : Nat) : Option Nat :=
  if s.rf .mcTrain [n] 7 0 = 3 then some (s.rf .mcTrain [n] 11 8) else none

/-- Placed directly after an all-bank refresh of the rank; skipped during the rank's full
re-training (R267, R269). -/
def execReadCentring (n : McId) (rank : BitVec 2) (s : State) : Host.Outcome State Fault Refusal :=
  .next (if s.retraining n = some rank.toNat ∨ !s.keepsTime n then s
  else s.modMc n fun x =>
    if x.refreshed = some rank.toNat then { x with refreshed := none, centrings := x.centrings + 1 } else x)

/-- The DIMM that holds a rank. -/
def State.dimmOf (s : State) (rank : Nat) : Bool := decide (s.dpc = 2) && decide (s.ranks / 2 ≤ rank)

/-- The latest temperature of a rank's DIMM, as its byte. -/
def State.rankTemp (s : State) (n rank : Nat) : Nat := let d := s.dimmOf rank; s.rf .mcTemp [n] (curLo d + 7) (curLo d)

/-- Has a rank's temperature changed by 10 °C or more since its last full training (R267)? -/
def State.rankDrift (s : State) (n rank : Nat) : Bool :=
  decide (10 ≤ (degrees (s.rankTemp n rank) - degrees (Map.get zeroNat (s.mc n).trained rank)).natAbs)

/-- A rank was trained at its present temperature (R267, R272). -/
def State.rankTrained (s : State) (n rank : Nat) : State :=
  let d := s.dimmOf rank
  (s.setRf .mcTemp [n] (trnLo d + 7) (trnLo d) (s.rankTemp n rank)).modMc n fun x => { x with
    trained := Map.set zeroNat x.trained rank (s.rankTemp n rank) }

/-- A re-training that falls due starts in a trained channel; it waits for another rank's and is ignored during its own
(R268, R269). -/
def State.retrain (s : State) (n rank : Nat) : State :=
  if !s.rankDrift n rank || decide (s.ranks ≤ rank) || s.rf .mcCfg [n] 0 0 != 1 then s
  else match s.retraining n with
    | some q => if q = rank ∨ (s.mc n).waiting.contains rank then s
        else s.modMc n fun x => { x with waiting := x.waiting ++ [rank] }
    | none =>
      if s.rf .mcTrain [n] 7 0 = 2 then (s.setRf .mcTrain [n] 11 0 (rank * 256 + 3)).modMc n fun x => { x with slices := 0 }
      else s

/-- A change of 10 °C or more since the rank's last full training. -/
def execFullRetraining (n : McId) (rank : BitVec 2) (s : State) : Host.Outcome State Fault Refusal :=
  .next (if s.keepsTime n then s.retrain n rank.toNat else s)

/-- Self-refresh is left: the oscillator step on each rank before the first access, and a full re-training of each rank
that is due one; one that self-refresh interrupted starts again at its first slice (R266, R269). -/
def State.refreshExit (s : State) (n : Nat) : State :=
  let s1 := s.modMc n fun x => { x with selfRefresh := false, oscs := x.oscs + s.ranks, slices := 0 }
  (List.range s.ranks).foldl (fun s r => s.retrain n r) s1

/-- One line of the row that a slice holds, checked with the outer code: corrected, which the write-back of the row keeps,
or uncorrectable (R257, R259, R268, R269). A newer write that waits in the queue stands. Lines of another rank are no part
of the row. -/
def State.sliceLine (s : State) (n rank : Nat) (p : Line × List BadSymbol) : State :=
  let l := p.1.toNat
  if !s.isDram (l * 256) || s.mcOf (l * 256) != n || s.rankOf n l != rank then s else s.mcDecode n l p.2

/-- One slice; `held` are the lines of the row it holds with wrong symbols. At the last
slice, at most the 200th, the rank is trained at its present temperature and the next rank starts
(R268). There are none in self-refresh (R269). -/
def execRetrainingSlice (n : McId) (held : List (Line × List BadSymbol)) (last margin : Bool) (s : State) :
    Host.Outcome State Fault Refusal :=
  .next (match s.retraining n with
  | none => s
  | some r =>
    if (s.mc n).selfRefresh then s
    else
      let s1 := held.foldl (fun s p => s.sliceLine n r p) s
      let s2 := if margin then s1
        else (s1.incRf .mcErrcnt [n] 15 0).fault (blkMc n) clsCorrected 0x0305 0 0
      let k := (s2.mc n).slices + 1
      if last ∨ 200 ≤ k then
        let s3 := s2.rankTrained n r
        match (s3.mc n).waiting with
        | [] => (s3.setRf .mcTrain [n] 11 0 2).modMc n fun x => { x with slices := 0 }
        | q :: qs => (s3.setRf .mcTrain [n] 11 0 (q * 256 + 3)).modMc n fun x => { x with slices := 0, waiting := qs }
      else s2.modMc n fun x => { x with slices := k })

/-- Start-up training of a channel ends (R265, R270): trained, with the stress offsets applied, or
failed. -/
def State.trainChannel (s : State) (n : Nat) (ok narrow : Bool) : State :=
  if s.ways = 6 ∧ n % 2 = 1 then s
  else if ok then
    let cfg := pack [(47, 40, if s.dpc = 2 then 0x38 else 0x40), (39, 24, s.dram / s.ways / 2 ^ 30),
      (15, 12, s.ranks), (9, 8, s.dpc), (4, 4, s.x8.toNat), (0, 0, 1)]
    let s1 := (s.setReg .mcCfg [n] cfg).setRf .mcTrain [n] 11 0 2
    let s2 := (List.range s.ranks).foldl (fun s r => s.rankTrained n r) s1
    if narrow then s2.fault (blkMc n) clsCorrected 0x0305 0 0 else s2
  else (s.setRf .mcTrain [n] 11 0 4).fault (blkMc n) clsFatal 0x0308 0 0

/-- A channel is lost: FATAL, at start-up with its own code and the end of the start-up (R270). -/
def State.channelLost (s : State) (n : Nat) : State :=
  let s1 := (s.setRf .mcTrain [n] 11 0 4).setRf .mcCfg [n] 0 0 0
  if s.power.boot = .training then
    let s2 := s1.fault (blkMc n) clsFatal 0x0308 0 0
    { s2 with power := { s2.power with boot := .stopped } }
  else s1.fault (blkMc n) clsFatal 0x030B 0 0

/-- Three failed replays in a row lose the channel (R270). -/
def execAlertN (n : McId) (failedReplays : BitVec 2) (s : State) : Host.Outcome State Fault Refusal :=
  let s1 := s.fault (blkMc n) clsCorrected 0x030A 0 0
  .next (if s.ways = 6 ∧ n.val % 2 = 1 then s else if failedReplays.toNat = 3 then s1.channelLost n else s1)

end Sys2Proof.Machine
end

