-- ==== Sys2Proof/Machine/TrellisDma.lean ====
section
/-! DEFINITION. Adapter DMA: grants, ceilings, the Standby's reads, and MSI writes (11 R283, R308;
12 R315, R320, R325, R326; 13 R358; 14 R388, R390). -/

namespace Sys2Proof.Machine

/-! ## Ceilings (R358) -/

/-- The partition's ceiling, or a set's, in bytes over 10 µs; zero is none. -/
def State.ceiling (s : State) (p set : Nat) : Nat :=
  let bw := s.rf .trlPoolb [p] 8 0
  if set = 0 then bw * 10000
  else match s.vset? p set with
    | some v => v.bw * bw * 10000 / 256
    | none => 0

def State.dmaUsed (s : State) (p set : Nat) : Nat := Map.get zeroNat s.dmaUse (dlogKey p set)

/-- Does a request of `n` bytes fit under one ceiling in the running interval (DEDUCED, log 32)? -/
def State.fits (s : State) (p set n : Nat) : Bool :=
  s.ceiling p set == 0 || s.dmaUsed p set == 0 || decide (s.dmaUsed p set + n ≤ s.ceiling p set)

def State.dmaCharge (s : State) (p set n : Nat) : State :=
  { s with dmaUse := Map.set zeroNat s.dmaUse (dlogKey p set) (s.dmaUsed p set + n) }

/-- Is a request of an exchange held by a ceiling? Class 0 never is. -/
def State.dmaHolds (s : State) (x : Xch) (n : Nat) : Bool :=
  x.cls != 0 && !(s.fits x.pid 0 n && (x.set == 0 || s.fits x.pid x.set n))

def State.dmaCount (s : State) (x : Xch) (n : Nat) : State :=
  let s1 := s.dmaCharge x.pid 0 n
  if x.set = 0 then s1 else s1.dmaCharge x.pid x.set n

/-! ## Grants (R283, R320, R326) -/

/-- What a request may reach: a segment (its index), the staged frame, or inbound staging. -/
inductive Grant where
  | seg (i : Nat)
  | frame (off : Nat)
  | stage (off : Nat)
  deriving DecidableEq, Repr

/-- The exchange that a request's tag names, on the path in use: its port and the Requester ID of its word (R283, R297). -/
def State.dmaXch (s : State) (r : DmaReq) : Option Xch :=
  match r.tag with
  | none => none
  | some t => s.trl.xchs.find? fun x =>
      x.handle == some (t % 2 ^ 21) && x.cls == t / 2 ^ 21 && decide (2 ≤ x.state) &&
      fld (s.pathWord x.pid x.dev x.path) 59 56 == r.port && fld (s.pathWord x.pid x.dev x.path) 55 40 == r.rid

/-- The grant that holds the whole request, in its direction. -/
def Xch.grant (x : Xch) (r : DmaReq) : Option Grant :=
  let inside := fun (a n : Nat) => decide (a ≤ r.addr) && decide (r.addr + r.len ≤ a + n)
  let wr := r.data.isSome
  match (List.range x.segs.length).find? fun i =>
      match x.segs[i]? with
      | some g => g.flag == 2 && g.dir == wr && inside g.addr g.len
      | none => false with
  | some i => some (.seg i)
  | none =>
    if wr then (if x.inbound && inside x.stageAddr x.stageLen then some (.stage (r.addr - x.stageAddr)) else none)
    else match x.frame with
      | some f => if inside x.frameAddr f.length then some (.frame (r.addr - x.frameAddr)) else none
      | none => none

/-- The class that a request's tag names; 4, for TC0, without a tag (R319, R320). -/
def DmaReq.cls (r : DmaReq) : Nat :=
  match r.tag with
  | some t => t / 2 ^ 21 % 4
  | none => 4

/-- An answer to a read, in the order of its class (R327). A module that transmits nothing gives none (R20). -/
def State.answer (s : State) (r : DmaReq) (a : DmaAns) : State :=
  if s.transmits then
    s.portSend r.port [{ typ := 0, gen := 0, stream := 0, xsn := 0, term := 0, cls := r.cls, path := 0, adev := 0,
                         handle := 0, body := [], rid := r.rid, ans := some a }]
  else s

/-- Does a request target the module register space (R9)? -/
def DmaReq.onRegs (r : DmaReq) : Bool := isModReg r.addr || isModReg (r.addr + r.len - 1)

/-- A refused request: record 0x0605 at the port, and the POT unit's record where the address lies
outside DRAM (R9, R22, R172, R308). DEDUCED: log 44. -/
def State.dmaRefuse (s : State) (r : DmaReq) (pid : Nat) : State :=
  let s1 := s.fault (blkPort r.port) clsContained 0x0605 pid r.addr
  let s2 := if r.onRegs then s1.fault blkPot clsContained 0x0505 pid r.addr
    else if !s.isDram r.addr then s1.fault blkPot clsContained 0x0504 pid r.addr else s1
  if r.data.isNone then s2.answer r .refused else s2

def Xch.addDone (x : Xch) (i n : Nat) : Xch :=
  { x with segs := x.segs.mapIdx fun j g => if j = i then { g with done := g.done + n } else g }

/-- A request within a grant of an exchange, served. -/
def State.dmaServe (s : State) (x : Xch) (g : Grant) (r : DmaReq) : State :=
  let s0 := s.dmaCount x r.len
  match g, r.data with
  | .frame off, _ =>
    if s0.framePoison x then (s0.keepXch { x with poisoned := true }).answer r .abort
    else (s0.keepXch { x with frameRead := x.frameRead + r.len }).answer r (.data (((x.frame.getD []).drop off).take r.len))
  | .stage off, some bs =>
    (s0.hubWrite r.addr bs).keepXch { x with
      staged := (bs.mapIdx fun i b => (off + i, b)) ++ x.staged.filter fun p => !(decide (off ≤ p.1) && decide (p.1 < off + bs.length)),
      done := x.done + r.len }
  | .stage _, none => s0
  | .seg i, none =>
    let gen := ((x.segs[i]?).map Seg.gen).getD 0
    match s0.trlRead x.pid (some gen) r.addr r.len with
    | (none, s1) => ((s1.answer r .refused).endX x 9 3).afterEnd x.pid
    | (some (bs, bad), s1) =>
      if bad then (s1.keepXch { x with poisoned := true }).answer r .abort
      else (s1.keepXch (x.addDone i r.len)).answer r (.data bs)
  | .seg i, some bs =>
    let gen := ((x.segs[i]?).map Seg.gen).getD 0
    match s0.setWrite x.pid x.set (some gen) r.addr bs with
    | (false, s1) => (s1.endX x 9 3).afterEnd x.pid
    | (true, s1) => s1.keepXch (x.addDone i r.len)

/-- A DMA request at a port of a module that is no Standby. -/
def State.dma (s : State) (r : DmaReq) : State :=
  match s.dmaXch r with
  | none => s.dmaRefuse r 0
  | some x =>
    match x.grant r with
      | none => s.dmaRefuse r x.pid
      | some g =>
        if s.dmaHolds x r.len then { s with dmaHeld := s.dmaHeld ++ [r] } else s.dmaServe x g r

/-- A Standby admits a read only for an exchange whose OUT item it has sent (R388), and keeps writes
for replay (R390). -/
def State.standbyDma (s : State) (r : DmaReq) : State :=
  match r.data with
  | none =>
    match s.dmaXch r with
    | none => s.dmaRefuse r 0
    | some x => match x.grant r with
      | none => s.dmaRefuse r x.pid
      | some g =>
        if !x.copySent then s.dmaRefuse r x.pid
        else match g with
          | .frame off => s.answer r (.data (((x.frame.getD []).drop off).take r.len))
          | .stage _ => s
          | .seg i => match s.trlRead x.pid (some (((x.segs[i]?).map Seg.gen).getD 0)) r.addr r.len with
            | (none, s1) => s1.answer r .refused
            | (some (bs, bad), s1) => s1.answer r (if bad then .abort else .data bs)
  | some _ =>
    let x := (r.tag.bind fun t => s.trl.xchs.find? fun x => x.handle == some (t % 2 ^ 21))
    let st := (x.map Xch.stream).getD 0
    let xsn := (x.map Xch.xsn).getD 0
    s.keepReplay {
      port := r.port, typ := 0, path := 0, stream := st, xsn := xsn, gen := (x.map Xch.gen).getD 0, term := 0,
      status := 0, result := 0, dma := some r, bytes := 0 }

/-- A request as an item that waits. -/
def DmaReq.item (r : DmaReq) : ReplayItem :=
  { port := r.port, typ := 0, path := 0, stream := 0, xsn := 0, gen := 0, term := 0, status := 0, result := 0, dma := some r,
    bytes := 0 }

/-- Is a request longer than the port's sizes allow: a write carries at most MPS bytes, a read asks for at most 4,096
(R313)? -/
def State.dmaLong (s : State) (r : DmaReq) : Bool :=
  match r.data with
  | some _ => decide (s.mps r.port < r.len)
  | none => decide (4096 < r.len)

/-- A request at a port: one that targets the module register space, or comes before TRL.CTXBASE.EN, is refused (R9, R308).
A malformed TLP is discarded (R313; DEDUCED, log 181). At T a request waits whose writes would add records (R377). -/
def State.dmaAny (s : State) (r : DmaReq) : State :=
  if !s.linkOn r.port || r.len == 0 || s.egressIdle || s.dmaLong r then s
  else if r.onRegs || !s.trlOn then s.dmaRefuse r 0
  else if s.scn.role = 2 then s.standbyDma r
  else if s.itemWaits r.item then s.waitItem r.item
  else s.dma r

def execAdapterDmaRead (port : PortId) (rid : BitVec 16) (tag : Option (BitVec 24)) (addr : BitVec 48)
    (len : BitVec 13) (s : State) : Host.Outcome State Fault Refusal :=
  .next (s.dmaAny ⟨port.val, rid.toNat, tag.map BitVec.toNat, addr.toNat, len.toNat, none⟩)

def execAdapterDmaWrite (port : PortId) (rid : BitVec 16) (tag : Option (BitVec 24)) (addr : BitVec 48)
    (data : List Byte) (s : State) : Host.Outcome State Fault Refusal :=
  .next (s.dmaAny ⟨port.val, rid.toNat, tag.map BitVec.toNat, addr.toNat, data.length, some data⟩)

/-- The 10 µs of a ceiling end, a partition's (set 0) or a set's, and held requests are admitted. -/
def execDmaCeilingInterval (p : Pid) (set : SetNo) (s : State) : Host.Outcome State Fault Refusal :=
  .next (
    let s1 : State := { s with dmaUse := Map.set zeroNat s.dmaUse (dlogKey p.val set.val) 0, dmaHeld := [] }
    s.dmaHeld.foldl (fun s r => s.dmaAny r) s1)

/-- MSI and MSI-X writes are discarded and counted (R315). -/
def execMsi (port : PortId) (s : State) : Host.Outcome State Fault Refusal :=
  .next (if s.linkOn port.val then s.incRf .trlPlink [port.val] 31 0 else s)

end Sys2Proof.Machine
end

