-- ==== Sys2Proof/Machine/FaultCmd.lean ====
section
/-! DEFINITION. Acknowledging and clearing fault records (17 R463-R468). -/

namespace Sys2Proof.Machine

/-- Key under which the faults of a partition record are kept. -/
def partKey (p b : Nat) : Nat := 128 + 128 * p + b

/-- Does a DIMM of controller `n` read above 95 °C, or does its sensor still not answer (R466)? -/
def State.dimmBad (s : State) (n : Nat) : Bool :=
  let hot := fun (dimm : Bool) => decide (95 < degrees (s.rf .mcTemp [n] (curLo dimm + 7) (curLo dimm)))
  hot false || hot true || decide (3 ≤ (s.mc n).silent0) || decide (3 ≤ (s.mc n).silent1)

/-- Is the Replay Buffer still more than 3/4 full (R390, R466)? -/
def State.replayHigh (s : State) : Bool := decide (192 * 2 ^ 20 < s.replayUse)

/-- Is the link below 32 GT/s or narrower than MAXW (R344, R466)? -/
def State.linkPoor (s : State) (port : Nat) : Bool :=
  decide (s.rf .trlPlink [port] 63 60 < 5) || decide (s.rf .trlPlink [port] 59 56 < maxWidth (s.rf .trlPlink [port] 47 46))

/-- Does the cause of a counted fault persist (R466 and the chapters of R459)? -/
def State.causeStays (s : State) (x : FltSeen) : Bool :=
  let blk := if x.block < 128 then x.block else x.block % 128
  if x.code = 0x010F ∨ x.code = 0x0113 ∨ x.code = 0x0203 then
    match x.thread with
    | some m => (s.thr m).run == .stopped x.code
    | none => false
  else if x.code = 0x0307 then s.dimmBad (blk - 0x48)
  else if x.code = 0x0601 then s.rf .trlPortst [blk - 0x55] 62 62 == 1
  else if x.code = 0x0609 then s.linkPoor (blk - 0x55)
  else if x.code = 0x0701 then !s.scn.grpA || !s.scn.grpB
  else if x.code = 0x0707 then s.replayHigh
  else if x.code = 0x0B01 then !s.power.hot.isEmpty
  else if x.code = 0x0C04 then !(s.isl 112).valid
  else if x.code = 0x0D03 then s.cold.auditBad
  else if x.code = 0x0D06 then !s.cold.link0 || !s.cold.link1
  else false

/-- Is the clear of a record refused (R465, R466)? -/
def State.staysFor (s : State) (key : Nat) (r : W64) : Bool :=
  fld r 63 62 == 3 || (s.fltSeen.filter fun x => x.block == key).any s.causeStays

def State.dropSeen (s : State) (key : Nat) : State := { s with fltSeen := s.fltSeen.filter fun x => x.block != key }

/-- ACK = 1 on a block record (R463). There is no record of a reserved block number (R24, R459). -/
def State.faultAck (s : State) (b : Nat) : State :=
  if 0x73 ≤ b then s
  else if s.rf .fltRec [b] 61 60 = 1 then s.setRf .fltRec [b] 61 60 2 else s

/-- CLR = 1 on a block record (R465); there is none of a reserved block number (R24, R459). -/
def State.faultClear (s : State) (b : Nat) : State :=
  if 0x73 ≤ b then s
  else if s.rf .fltRec [b] 61 60 = 0 then s.setRf .fltCtl [b] 3 2 1
  else if s.staysFor b (s.reg .fltRec [b]) then (s.setRf .fltRec [b] 61 60 2).setRf .fltCtl [b] 3 2 2
  else
    let s1 := [Reg.fltRec, .fltAddr, .fltTsec, .fltTns, .fltInfo].foldl (fun s r => s.setReg r [b] 0) s
    (s1.dropSeen b).setRf .fltCtl [b] 3 2 1

/-- A partition record's clear, and whether it was refused (R468). -/
def State.partClear (s : State) (p b : Nat) : Bool × State :=
  if s.rf .fltPrec [p, b] 61 60 = 0 then (true, s)
  else if s.staysFor (partKey p b) (s.reg .fltPrec [p, b]) then (false, s.setRf .fltPrec [p, b] 61 60 2)
  else
    let s1 := [Reg.fltPrec, .fltPaddr, .fltPtsec, .fltPtns, .fltPinfo].foldl (fun s r => s.setReg r [p, b] 0) s
    (true, s1.dropSeen (partKey p b))

/-- Rootstock writes ACK = 1 to FLT.CTL of the block. -/
def execFaultAck (b : BitVec 7) (s : State) : Host.Outcome State Fault Refusal :=
  .next ((s.cfgw .fltCtl [b.toNat] 1).faultAck b.toNat)

/-- Rootstock writes CLR = 1 to FLT.CTL of the block. -/
def execFaultClear (b : BitVec 7) (s : State) : Host.Outcome State Fault Refusal :=
  .next ((s.cfgw .fltCtl [b.toNat] 2).faultClear b.toNat)

end Sys2Proof.Machine
end

