-- ==== Sys2Proof/Machine/Pmc.lean ====
section
/-! DEFINITION. Performance counters, snapshots and tagged samples (18 R473-R484). -/

namespace Sys2Proof.Machine

/-! ## Counter events (R475) -/

/-- An event of block `b` that the model does not bring about itself: every counter set to it counts (R475). DESIGN CHOICE:
DESIGN CHOICE, log 69. -/
def execCounterEvent (b : Fin 0x73) (event : BitVec 12) (thr : Bool) (s : State) :
    Host.Outcome State Fault Refusal :=
  .next (if ownEvent b event.toNat then s else s.pmcEvent b event.toNat thr.toNat)

/-! ## The Counter Gatherer (R478-R481) -/

/-- May the Gatherer write a ring of owner `pid` at an address (R171, R479)? Before POT.BASE.EN only the
module's own rings are written (R170); an entry that cannot be read refuses it (R173), and nobody writes the image of the
active patch (R136). -/
def State.gathererOk (s : State) (pid a : Nat) : Bool :=
  s.isDram a && !s.inPatch (a / 0x10000) &&
  (if s.rf .potBase [] 0 0 = 0 then pid == 0
   else match s.potSeen none (a / 0x10000) with
    | none => false
    | some e =>
      if pid = 0 then fld e 56 54 == potModule
      else fld e 56 54 == potOwned && fld e 63 58 == pid && fld e 57 57 == 0)

/-- The records of a refused ring write: the Gatherer's; before POT.BASE.EN the POT unit's for a tenant, and that of an
entry that cannot be read (R170, R173, R479). -/
def State.ringRefused (s : State) (pid a : Nat) : State :=
  let s1 :=
    if s.rf .potBase [] 0 0 = 0 then (if pid ≠ 0 then s.fault blkPot clsContained 0x0501 pid a else s)
    else if s.isDram a && (s.potSeen none (a / 0x10000)).isNone then s.fault blkPot clsFatal 0x0507 0 (s.potAt (a / 0x10000))
    else s
  s1.fault blkGatherer clsContained 0x0A02 pid a

/-- A record written into a ring, if its granule allows it. -/
def State.ringWrite (s : State) (pid a : Nat) (bs : List Byte) : Option State :=
  if s.gathererOk pid a then some ((s.potFill none a).hubWrite a bs) else none

/-- The physical core of a logical core of a partition (R45). -/
def State.coreOfL (s : State) (pid l : Nat) : Option Nat :=
  (List.range 56).find? fun c => bit (s.reg .rstCoresvc) c && s.lcoreOf c == l && (s.thr (2 * c)).cur.pid == pid

/-- The blocks that a context selects, each with the number its record shows (R479). -/
def State.gatherBlocks (s : State) (g : Nat) : List (Nat × Nat) :=
  let pid := s.rf .pmcGctl [g] 57 52
  if pid = 0 then
    (List.range 0x73).filterMap fun b =>
      if bit (s.reg (if b < 64 then .pmcGmask0 else .pmcGmask1) [g]) (b % 64) then some (b, b) else none
  else
    (List.range 56).filterMap fun l =>
      if bit (s.reg .pmcGmask0 [g]) l then (s.coreOfL pid l).map fun c => (l, c) else none

/-- Bit `bit` of the controls of counters 7 to 0. -/
def State.pmcBits (s : State) (b hi : Nat) : Nat :=
  ((List.range 8).map fun k => s.rf .pmcCtl [b, k] hi hi * 2 ^ k).sum

/-- VAL: the EN bits, but 0 for a counter with an uncorrectable error (R481, R486). -/
def State.pmcVal (s : State) (b : Nat) : Nat :=
  ((List.range 8).map fun k => if s.pmcBad.contains (8 * b + k) then 0 else s.rf .pmcCtl [b, k] 63 63 * 2 ^ k).sum

/-- A snapshot record (R481). -/
def State.snapRecord (s : State) (b : Nat × Nat) (seq : Nat) : List Byte :=
  fit 128 (dwords ([pack [(63, 56, b.1), (55, 48, s.pmcBits b.2 62), (47, 40, s.pmcVal b.2), (31, 0, seq)]] ++
    s.stamp.words ++ (List.range 8).map fun k => BitVec.ofNat 64 (s.rf .pmcCnt [b.2, k] 47 0)))

/-- Records written into consecutive slots, up to the first refused one. -/
def State.snapWrite (s : State) (g pid seq : Nat) : List (Nat × Nat) → State
  | [] => s.setRf .pmcGstat [g] 63 32 seq
  | b :: bs =>
    let k := s.rf .pmcGbuf [g] 4 0
    let pos := Map.get zeroNat s.gpos g
    let a := s.rf .pmcGbuf [g] 47 12 * 4096 + 128 * (pos % 2 ^ k)
    match s.ringWrite pid a (s.snapRecord b seq) with
    | some s1 => ({ s1 with gpos := Map.set zeroNat s1.gpos g ((pos + 1) % 2 ^ k) } : State).snapWrite g pid seq bs
    | none => (s.setRf .pmcGctl [g] 63 63 0).ringRefused pid a

/-- A snapshot falls due for context `g`: it is written, or skipped and counted while the one before it
is still being written (R480). At T it waits (R377). -/
def execSnapshot (g : Fin 16) (late : Bool) (s : State) : Host.Outcome State Fault Refusal :=
  .next (
    if s.rf .pmcGctl [g.val] 63 63 = 0 || s.power.state != .run || !s.islRuns 110 || s.stalled then s
    else if late then s.incRf .pmcGstat [g.val] 31 16
    else
      let seq := (s.rf .pmcGstat [g.val] 63 32 + 1) % 2 ^ 32
      s.snapWrite g.val (s.rf .pmcGctl [g.val] 57 52) seq (s.gatherBlocks g.val))

/-! ## Tagged sampling (R482-R484) -/

/-- The sampling point falls on an instruction of thread `thr` of core `c`: it is tagged, or the tag
dropped and counted (R483). -/
def execSampleTag (c : CoreId) (thr : Bool) (s : State) : Host.Outcome State Fault Refusal :=
  .next (
    let m := 2 * c.val + thr.toNat
    let t := s.thr m
    if s.rf .pmcSctl [c.val] 63 63 = 0 || !s.pmcRuns c.val || t.run != .running then s
    else if (s.core c).sample.isSome || t.cur.pl == 3 || !s.pmcOwns c.val m false then s.incRf .pmcSctl [c.val] 31 0
    else s.modCore c fun x => { x with sample := some ⟨m, t.cur.pc, t.cur.pid, t.cur.pl, s.srTime⟩ })

/-- A sample record (R484). `out` is OUTCOME and EXC, `src` the data source and address, `cyc` the cycle
counts FD, DI, IC and CR. -/
def State.sampleRecord (s : State) (c : Nat) (x : Sample) (out : Nat × Nat) (src : Nat × W64) (cyc : List Nat) : List Byte :=
  let cy := fun (i : Nat) => (cyc[i]?).getD 0
  fit 64 (dwords ([pack [(63, 32, (s.core c).sampleSeq), (31, 26, x.pid), (25, 20, (s.thr x.thread).cur.lcore),
      (19, 19, x.thread % 2), (17, 16, x.lvl), (15, 8, out.1), (7, 0, src.1)], x.pc, src.2,
    pack [(63, 48, cy 0), (47, 32, cy 1), (31, 16, cy 2), (15, 0, cy 3)],
    pack [(63, 56, (s.core c).attempts), (55, 48, if out.1 = 2 then out.2 else 0)]] ++ s.stamp.words))

/-- The tagged instruction retires, is flushed, or faults: its record is written through the Gatherer
(R482-R484). At T it waits (R377). -/
def execSampleRecord (c : CoreId) (outcome exc src : BitVec 8) (daddr : W64) (fd di ic cr : BitVec 16) (s : State) :
    Host.Outcome State Fault Refusal :=
  .next (if s.stalled then s else match (s.core c).sample with
    | none => s
    | some x =>
      let s1 := s.modCore c fun y => { y with sample := none }
      if 2 < outcome.toNat ∨ 7 < src.toNat ∨ s.rf .pmcSctl [c.val] 63 63 = 0 ∨ !s.islRuns 110 then s1
      else
        let own := s.rf .pmcOwn [c.val] 5 0
        let a := s.rf .pmcSbuf [c.val] 47 12 * 4096 + 64 * ((s.core c).sampleSeq % 2 ^ s.rf .pmcSbuf [c.val] 4 0)
        let bs := s.sampleRecord c x (outcome.toNat, exc.toNat) (src.toNat, daddr)
          [fd.toNat, di.toNat, ic.toNat, cr.toNat]
        match s1.ringWrite own a bs with
        | some s2 => s2.modCore c fun y => { y with sampleSeq := (y.sampleSeq + 1) % 2 ^ 32 }
        | none => (s1.setRf .pmcSctl [c.val] 63 63 0).ringRefused own a)

/-! ## What clears and writes counters (R477, R478, R474) -/

/-- A partition reset clears the counters and the EN bits of the cores the partition owns (R477). -/
def State.pmcClear (s : State) (p : Nat) : State :=
  ((List.range 56).filter fun c => s.rf .pmcOwn [c] 5 0 == p).foldl (fun s c =>
    (List.range 8).foldl (fun s k => (s.setRf .pmcCnt [c, k] 47 0 0).setRf .pmcCtl [c, k] 63 63 0) s) s

end Sys2Proof.Machine
end

