-- ==== Sys2Proof/Machine/Pot.lean ====
section
/-! DEFINITION. The POT unit's commands, leases and gate requests (07 R169-R186). -/

namespace Sys2Proof.Machine

/-! ## The POT (R169-R177) -/

/-- The moves a command may make (R174). -/
def potMove (from_ new : Nat) : Bool :=
  match from_ with
  | 0 => new == potOwned || new == potModule
  | 1 => new == potWindow || new == potShared || new == potScrub || new == potModule
  | 2 => new == potOwned || new == potShared
  | 3 => new == potOwned || new == potWindow
  | 5 => new == potScrub
  | _ => false

/-- An entry (R169). -/
def potWord (owner world st owner2 gen : Nat) : W64 :=
  pack [(63, 58, owner), (57, 57, world), (56, 54, st), (53, 48, owner2), (47, 32, gen)]

/-- The new entry of granule `g` under a command: GEN counts a change (R170, R177). -/
def State.potNew (s : State) (v : W64) (g : Nat) : W64 :=
  let gen := if s.rf .potBase [] 0 0 = 1 then (fld (s.potEntry (g * 0x10000)) 47 32 + 1) % 2 ^ 16 else 0
  potWord (fld v 63 58) (fld v 57 57) (fld v 56 54) (fld v 53 48) gen

/-- May the command change granule `g`: before POT.BASE.EN any of DRAM, then by the moves, and none of the active patch
(R136, R170, R174)? -/
def State.potOk (s : State) (v : W64) (g : Nat) : Bool :=
  s.isDram (g * 0x10000) && (s.rf .potBase [] 0 0 == 0 ||
    (!(s.inPatch g && fld v 56 54 != potModule) && potMove (fld (s.potEntry (g * 0x10000)) 56 54) (fld v 56 54)))

def potRun (v : W64) : List Nat := (List.range (fld v 15 0 + 1)).map (fld v 47 16 + ·)

/-- A new entry of granule `g`: in the table, and out of the POT cache (R176). -/
def State.potWrite (s : State) (g : Nat) (e : W64) : State := (s.hubWrD (s.potAt g) e).potForget g g

/-- The entries of granules `first` to `last` leave the granule check caches of every core (R176). -/
def State.grcForget (s : State) (first last : Nat) : State :=
  (List.range 56).foldl (fun s c => s.modCore c fun x => { x with
    grc := x.grc.filter fun e => !(decide (first ≤ e.1) && decide (e.1 ≤ last)) }) s

/-- A write of POT.CMD: every granule is checked before any changes (R174-R176). -/
def State.potCommand (s : State) (v : W64) : State :=
  if s.rf .potCmdstat [] 1 0 = 1 then s
  else
    let s0 := s.setReg .potCmd [] v
    match (potRun v).find? fun g => !s.potOk v g with
    | some g => s0.setReg .potCmdstat [] (pack [(47, 16, g), (1, 0, 3)])
    | none =>
      ((potRun v).foldl (fun s g => s.potWrite g (s.potNew v g)) s0).setReg .potCmdstat [] (pack [(1, 0, 1)])

def execPotCmd (v : W64) (s : State) : Host.Outcome State Fault Refusal := .next ((s.cfgw .potCmd [] v).potCommand v)

/-- Has every retired store to the run, checked under the old entries, reached its home (R176)? -/
def State.potDrained (s : State) (v : W64) : Bool :=
  let inRun := fun (a : Nat) => (decide (fld v 47 16 ≤ a / 0x10000)) && decide (a / 0x10000 ≤ fld v 47 16 + fld v 15 0)
  s.threads.all fun p => (p.2.sb.all fun e => e.stores.all fun x => !inRun x.addr) &&
    p.2.cb.all fun l => !inRun (l.line * 256)

/-- Every holder has acknowledged: the cores' copies of the entries are gone (R176). -/
def State.potAcked (s : State) (v : W64) : State :=
  (s.grcForget (fld v 47 16) (fld v 47 16 + fld v 15 0)).setReg .potCmdstat [] (pack [(1, 0, 2)])

def execPotCmdComplete (s : State) : Host.Outcome State Fault Refusal :=
  .next (
    if s.rf .potCmdstat [] 1 0 = 1 && s.potDrained (s.reg .potCmd []) then s.potAcked (s.reg .potCmd []) else s)

/-- A Scrubbing granule zeroed and moved to Free (R174, R177). -/
def execGranuleScrubComplete (gran : BitVec 32) (s : State) : Host.Outcome State Fault Refusal :=
  .next (
    let g := gran.toNat
    let e := s.potEntry (g * 0x10000)
    if s.rf .potBase [] 0 0 = 0 || !s.isDram (g * 0x10000) || fld e 56 54 != potScrub || s.rf .potCmdstat [] 1 0 == 1 then s
    else
      let s1 := (List.range 256).foldl (fun s i => s.hubWrite (g * 0x10000 + 256 * i) (List.replicate 256 0)) s
      (s1.potWrite g (potWord 63 0 0 63 ((fld e 47 32 + 1) % 2 ^ 16))).grcForget g g)

/-- The granules of the active patch's image Reserved-Module in the POT (R134). Before POT.BASE.EN no entry is in force;
they are written as it is set. DEDUCED: log 155. -/
def State.patchReserve (s : State) : State :=
  if s.rf .potBase [] 0 0 = 0 then s
  else
    let gs := (List.range s.patch.granules).map (s.patch.base / 0x10000 + ·)
    (gs.filter fun g => fld (s.potEntry (g * 0x10000)) 56 54 != potModule).foldl (fun s g =>
      s.potWrite g (s.potNew (potWord 0 1 potModule 63 0) g)) s

/-- POT.BASE.EN (R134, R170). -/
def State.potOn (s : State) : State := (s.setRf .potBase [] 0 0 1).patchReserve

def execPotEnable (s : State) : Host.Outcome State Fault Refusal :=
  .next (if s.rf .potBase [] 0 0 = 1 then s else (s.cfgw .potBase [] (setBit (s.reg .potBase) 0 true)).potOn)

/-- An offer that was not accepted within 1 s (R178). -/
def execOfferLapse (by_ taker : Pid) (gran : BitVec 32) (num : BitVec 17) (s : State) : Host.Outcome State Fault Refusal :=
  .next { s with offers := s.offers.filter fun o => o ≠ ⟨by_.val, taker.val, gran.toNat, num.toNat⟩ }

/-! ## Leases and gate requests (R183-R186) -/

def State.leased (s : State) (i : Nat) : Bool :=
  if i < 64 then bit (s.reg .pwrLease0) i else bit (s.reg .pwrLease1) (i - 64)

/-- The outcome of a gate request: STATUS, and level 13 again if it had been PENDING. -/
def State.gateDone (s : State) (status : Nat) : State :=
  let s1 := s.setRf .pwrGatereq [] 2 0 status
  { s1 with gateEvent := s1.gateEvent || s1.power.gatePend,
            power := { s1.power with gateWait := false, gatePend := false } }

/-- A gate request enters PWR.GATEREQ (R184-R186). While one waits for its island STATUS reads idle, and a second one
replaces it. DESIGN CHOICE: log 154. -/
def State.gateRequest (s : State) (src island action : Nat) : State :=
  let busy := s.rf .pwrGatereq [] 2 0 == 2
  let same := s.rf .pwrGatereq [] 54 48 == island
  if 112 < island ∨ action = 3 ∨ (busy ∧ !same) then s
  else if action = 0 then
    let s1 := s.modIsl island fun x => { x with gate := 0 }
    let s2 := s1.setReg .pwrGatereq [] (pack [(54, 48, island), (34, 32, src), (2, 0, if busy then 0 else 1)])
    { s2 with power := { s2.power with gateWait := false, gatePend := false } }
  else
    let put := fun (st : Nat) => s.setReg .pwrGatereq [] (pack [(54, 48, island), (39, 38, action), (34, 32, src), (2, 0, st)])
    if s.leased island then
      let s1 := put 2
      { s1 with gateEvent := true, power := { s1.power with gateWait := false, gatePend := true } }
    else
      let s1 := put 0
      { s1 with power := { s1.power with gateWait := true, gatePend := false } }

/-- A gate request of the dictionary, or of Rootstock for a service call, which writes PWR.GATEREQ. -/
def execGatereq (dictionary : Bool) (island : BitVec 7) (action : BitVec 2) (s : State) : Host.Outcome State Fault Refusal :=
  let s1 := if dictionary then s else s.cfgw .pwrGatereq [] (pack [(54, 48, island.toNat), (39, 38, action.toNat)])
  .next (s1.gateRequest (if dictionary then 2 else 1) island.toNat action.toNat)

def execGateIdleTimeout (s : State) : Host.Outcome State Fault Refusal :=
  .next (if s.power.gateWait then s.gateDone 3 else s)

/-- A write of a lease register (R185, R186): an island newly leased is ungated, and a pending request
whose island is released goes on. DEDUCED: log 55. -/
def State.leaseWrite (s : State) (hi : Bool) (v : W64) : State :=
  let r : Reg := if hi then .pwrLease1 else .pwrLease0
  let s1 := s.setReg r [] (fieldsWrite r.row.fields false v (s.reg r))
  let mine := (List.range (if hi then 49 else 64)).map (fun i => if hi then 64 + i else i)
  let s2 := (mine.filter fun i => s1.leased i && !s.leased i && (s.isl i).gate != 0).foldl
    (fun s i => s.modIsl i fun x => { x with gate := 0 }) s1
  let i := s2.rf .pwrGatereq [] 54 48
  if s2.rf .pwrGatereq [] 2 0 = 2 then
    if s2.leased i then { s2 with power := { s2.power with gateWait := false } }
    else { s2 with power := { s2.power with gateWait := true } }
  else if s2.power.gateWait && s2.leased i then
    let s3 := s2.setRf .pwrGatereq [] 2 0 2
    { s3 with gateEvent := true, power := { s3.power with gateWait := false, gatePend := true } }
  else s2

def execLeaseWrite (hi : Bool) (v : W64) (s : State) : Host.Outcome State Fault Refusal :=
  .next ((s.cfgw (if hi then .pwrLease1 else .pwrLease0) [] v).leaseWrite hi v)

end Sys2Proof.Machine
end

