-- ==== Sys2Proof/Machine/Retry.lean ====
section
/-! DEFINITION. Hardening, instruction retry, core sparing and patch loads (05 R131-R136; 06
R137-R156). -/

namespace Sys2Proof.Machine

/-! ## Retry (R137-R143) -/

/-- The oldest retired group's checkpoint hardens (R138). -/
def Thread.harden (t : Thread) : Thread :=
  match t.groups with
  | [] => t
  | g :: gs =>
    { t with hard := g, groups := gs, hseq := t.hseq + 1, devVal := none,
             kept := t.kept.filter fun k => decide (t.hseq + 1 < k.seq) }

/-- Hardening; the group that a retry restored hardening ends the retry. -/
def execCheckpointHarden (t : ThreadId) (s : State) : Host.Outcome State Fault Refusal :=
  let m := t.val
  .next (
    if !s.islRuns (m / 2) then s
    else (if (s.thr m).groups.isEmpty then s else (s.modThr m Thread.harden).hardened m).combFull m)

/-- A thread back at its last hardened checkpoint; one in WAIT whose WAIT had not hardened runs. -/
def Thread.rewind (t : Thread) : Thread :=
  if t.run == .waiting && !t.groups.isEmpty then { t.flush with run := .running } else t.flush

/-- A core whose sparing is due, with the time of the event; an earlier event stands (R147, R152). -/
def Core.dueFor (x : Core) (code now : Nat) : Core :=
  if x.due.isSome then x else { x with due := some code, dueAt := now }

/-- The code of the last check fired (R146). -/
def State.lastCode (s : State) (c code : Nat) : State := s.setRf .rstRtystat [c] 47 40 (code % 256)

/-- Does nothing of core `c` run that a retry could restore: it waits for its sparing, or no thread of it is active
(R140, R149)? -/
def State.nothingRuns (s : State) (c : Nat) : Bool :=
  (s.core c).due.isSome || !((s.thr (2 * c)).active || (s.thr (2 * c + 1)).active)

/-- A check that retry covers: both threads flushed and restored, one attempt counted; a check on
attempt 3 makes the core wait for its sparing (R140, R141, R147). One attempt count per core: DESIGN CHOICE, log 148. -/
def State.retry (s : State) (c thr code : Nat) : State :=
  if s.nothingRuns c then s
  else
    let s1 := (s.modThr (2 * c) Thread.rewind).modThr (2 * c + 1) Thread.rewind
    let s2 := (s1.lastCode c code).modCore c fun x => { x with alone := thr, rcode := code }
    if 3 ≤ (s2.core c).attempts then s2.modCore c fun x => x.dueFor code s.stcNs
    else s2.modCore c fun x => { x with attempts := x.attempts + 1 }

/-- An error outside retry counts towards the rate; the third in one STC second starts sparing
(R143). DEDUCED: log 60. -/
def State.outsideRetry (s : State) (c code : Nat) : State :=
  (((s.lastCode c code).rateEvent c code false).modCore c fun x => { x with outside := x.outside + 1 }).modCore c fun x =>
    if 3 ≤ x.outside then x.dueFor code s.stcNs else x

/-- The sparing of core `c` changed. -/
def State.modSparing (s : State) (c : Nat) (f : Sparing → Sparing) : State :=
  { s with sparings := s.sparings.map fun x => if x.core = c then f x else x }

/-- A thread's hardened state is lost: it stops until a partition reset, a sparing of its core notwithstanding (R143). -/
def State.lostState (s : State) (m : Nat) : State :=
  let a := (s.thr m).cur
  let sec := a.pl = 3
  let s1 := ((s.modThr m fun t => t.stop 0x0113).retryEnds m).modSparing (m / 2) fun x =>
    if m % 2 = 0 then { x with run0 := .stopped 0x0113 } else { x with run1 := .stopped 0x0113 }
  s1.coreFault (m / 2) (if sec then clsFatal else clsContained) 0x0113 a.chkPid 0 0 (some m)

/-- The hardened store of a thread with an address. -/
def Thread.hardStore (t : Thread) (a : Nat) : Bool :=
  t.sb.any fun e => e.stores.any fun x => x.addr == a && decide (x.seq ≤ t.hseq)

def Thread.loseStore (t : Thread) (a : Nat) : Thread :=
  let keep := fun (x : Store) => !(x.addr == a && decide (x.seq ≤ t.hseq))
  let sb := t.sb.map fun e => { e with stores := e.stores.filter keep }
  { t with sb := sb.filter fun e => !e.stores.isEmpty }

/-- The PID of the first hardened store of a thread with an address: the one it was made for (R143). -/
def Thread.hardPid (t : Thread) (a : Nat) : Nat :=
  match (t.sb.flatMap SbEntry.stores).find? fun x => x.addr == a && decide (x.seq ≤ t.hseq) with
  | some x => x.pid
  | none => 0

/-- Microword `k` of the active patch, read from its image, with the ECC that the loader forms (R120, R131, R136). -/
def State.imageWord (s : State) (k : Nat) : BitVec 160 :=
  if s.patch.words ≤ k then 0 else withEcc (BitVec.ofNat 160 (ofBytes (s.homeRd (s.patch.base + 0x80 + 24 * k) 20)))

/-- A patch-RAM word written again from the verified image (R120); there is none of an address in ROM. -/
def State.rewriteWord (s : State) (c addr : Nat) : State :=
  if addr < 0x6000 then s
  else
    let w := s.imageWord (addr - 0x6000)
    s.modCore c fun x => { x with pram := Map.set (fun _ => 0) x.pram addr w }

/-- A parity error of a cached POT entry: the entry leaves its cache, and the next access fetches it again (R173). -/
def State.potParity (s : State) : State := s.fault blkPot clsCorrected 0x0506 0 0

/-- An uncorrectable error in a lane of Sieve while it holds block `k`: the job ends with status 0x21, an inline exchange
FAILED 0x5 with it, and the record is against its PID (R431). Of a lane that holds a run of Scion's R431 says nothing: its
check finds it (R411). -/
def State.sieveLaneError (s : State) (k : Nat) : BlockSrc → State
  | .scion => s
  | .job p c => match (s.ctx 0 p.val c.val).job with
    | none => s
    | some j =>
      if j.busy.contains k then
        (s.sieveEnd p.val c.val { j with busy := [], ready := [] } 0x21 k).fault blkSieve clsContained 0x0803 p.val 0
      else s
  | .exchange p lidx => match s.xch? p.val lidx.toNat with
    | none => s
    | some x =>
      if x.inLanes.contains k then
        ((s.finishX x 9 5 0x21 ((x.cmpl.map Prod.snd).getD 0)).afterEnd x.pid).fault blkSieve clsContained 0x0803 p.val 0
      else s

/-- A check fires in core `c`; `thr` is the thread whose group failed (R137, R140-R143); the checks outside the cores
act at their own place (R173, R216, R312, R404, R431, R455, R460, R486, R547). DEDUCED: log 167. -/
def State.checkFires (s : State) (c thr : Nat) (chk : Check) : State :=
  let m := 2 * c + thr
  match chk with
  | .l1i line => (s.l1Drop c line.toNat).retry c thr 0x0101
  | .l1d line => (s.l1Drop c line.toNat).retry c thr 0x0102
  | .intRegs => s.retry c thr 0x0103
  | .fpRegs => s.retry c thr 0x0104
  | .intPath => s.retry c thr 0x0105
  | .binPath => s.retry c thr 0x0106
  | .decPath => s.retry c thr 0x0107
  | .decode => s.retry c thr 0x0108
  | .controlStore addr single =>
    if s.nothingRuns c then s
    else if single then s.coreFault c clsCorrected 0x0109 0 0
    else (s.rewriteWord c addr.toNat).retry c thr 0x0109
  | .l2Clean line =>
    let st := (s.l2l c line.toNat).st
    if st == .s || st == .f || st == .e then ((s.loseLine c line.toNat).lastCode c 0x010A).retry c thr 0x010A else s
  | .l2Dirty line =>
    let l := line.toNat
    let st := (s.l2l c l).st
    if st == .m || st == .o then
      let s1 := ((s.setPoison l true).loseLine c l).acceptWb l
      (s1.coreFault c clsContained 0x010B (s1.ownerPid (l * 256)) (l * 256)).outsideRetry c 0x010B
    else s
  | .l2Single => ((s.lastCode c 0x010C).incRf .rstRtystat [c] 31 0).rateEvent c 0x010C true
  | .checkpoint => (s.lostState m).outsideRetry c 0x010D
  | .storeBuffer addr =>
    let t := s.thr m
    if t.hardStore addr.toNat then
      let s1 := (s.setThr m (t.loseStore addr.toNat)).queueClose
      (s1.coreFault c clsContained 0x010E (t.hardPid addr.toNat) addr.toNat 0).outsideRetry c 0x010E
    else s.retry c thr 0x010E
  | .l3Single line => s.fault (blkSlice (sliceOf line.toNat)) clsCorrected 0x0201 0 (line.toNat * 256)
  | .l3Data line =>
    (s.l3Drop line.toNat false).fault (blkSlice (sliceOf line.toNat)) clsCorrected 0x0202 0 (line.toNat * 256)
  | .l3Tag line =>
    (s.l3Drop line.toNat true).fault (blkSlice (sliceOf line.toNat)) clsCorrected 0x0202 0 (line.toNat * 256)
  | .potCache gran => (s.potForget gran.toNat gran.toNat).potParity
  | .granCheck gran => (s.modCore c fun x => { x with grc := x.grc.filter fun e => e.1 != gran.toNat }).potParity
  | .beat link single =>
    if single then s.fault (blkRing link.val) clsCorrected 0x0401 0 0 else s.fault (blkRing link.val) clsFatal 0x0402 0 0
  | .trellisState => s.fault blkTrellis clsFatal 0x0606 0 0
  | .scionState => s.fault blkScion clsFatal 0x0709 0 0
  | .sieveSingle => s.fault blkSieve clsCorrected 0x0801 0 0
  | .sieveLane src k => s.sieveLaneError k.toNat src
  | .sieveState => s.fault blkSieve clsFatal 0x0804 0 0
  | .garnetSingle => s.fault blkGarnet clsCorrected 0x0901 0 0
  | .garnetState => s.fault blkGarnet clsFatal 0x0905 0 0
  | .counterSingle => s.fault blkGatherer clsCorrected 0x0A01 0 0
  | .counter b k =>
    ({ s with pmcBad := (8 * b.val + k.val) :: s.pmcBad.filter (· != 8 * b.val + k.val) } : State).fault
      blkGatherer clsContained 0x0A03 0 0
  | .coldframeSingle => s.fault blkColdframe clsCorrected 0x0D01 0 0
  | .coldframeNvm => s.fault blkColdframe clsFatal 0x0D05 0 0

/-- Is the check one of a core? -/
def coreCheck : Check → Bool
  | .l1i _ | .l1d _ | .intRegs | .fpRegs | .intPath | .binPath | .decPath | .decode | .controlStore _ _ | .l2Clean _
  | .l2Dirty _ | .l2Single | .checkpoint | .storeBuffer _ | .granCheck _ => true
  | _ => false

/-- Is core `c` in use: a thread of it is out of core reset, its sparing is under way, or its L2 and buffers still hold
something (R494)? -/
def State.coreUsed (s : State) (c : Nat) : Bool :=
  let left := fun (t : Thread) => t.run != .held || !t.sb.isEmpty || !t.cb.isEmpty
  left (s.thr (2 * c)) || left (s.thr (2 * c + 1)) || (s.sparings.any fun x => x.core == c) || s.l2.any fun p => p.1 / 2 ^ 40 == c

/-- A check of a core acts while the core is in use and its island runs, or the core is being spared: a core whose
sparing is due has nothing to retry, but its L2, its store buffers and its checkpoint array still hold what they held
(R143, R148, R149). -/
def execCheckFires (c : CoreId) (thr : Bool) (chk : Check) (s : State) : Host.Outcome State Fault Refusal :=
  .next (if coreCheck chk && !(s.coreUsed c.val && s.drains (2 * c.val)) then s else s.checkFires c.val thr.toNat chk)

/-! ## Sparing (R144-R154) -/

/-- The idle spare a sparing takes: the lowest on the failing core's tile, else the lowest (R147). -/
def State.pickSpare (s : State) (c : Nat) : Option Nat :=
  let idle := (List.range 56).filter fun k => bit (s.reg .rstCorespare) k
  match idle.find? fun k => k / 14 == c / 14 with
  | some k => some k
  | none => idle.head?

/-- A hardened checkpoint placed in the spare's thread, its reservation cleared: the spare's thread counts its retire
groups on from it, so what an unhardened routine or device load keeps stays its own (R127, R149, R151, R226). -/
def Thread.placed (t : Thread) (from_ : Thread) : Thread :=
  let a := { from_.hard with rsv := none }
  { t with cur := a, hard := a, groups := [], snap := a, seq := from_.hseq, hseq := from_.hseq, run := .held }

/-- The spare's SR.TID.PCORE and THR are its own (R45). -/
def Arch.atCore (a : Arch) (k thr : Nat) : Arch :=
  a.setSr 4 (setFld (setFld (a.srv 4) 13 8 k) 0 0 thr)

def Thread.atCore (t : Thread) (k thr : Nat) : Thread :=
  { t with cur := t.cur.atCore k thr, hard := t.hard.atCore k thr, snap := t.snap.atCore k thr }

/-- The roots of a thread copied (R166). -/
def State.copyRoots (s : State) (m k : Nat) : State :=
  ((s.setReg .potTs1 [k] (s.reg .potTs1 [m])).setReg .potTs2 [k] (s.reg .potTs2 [m])).setReg .potTh [k] (s.reg .potTh [m])

/-- Counters, their controls and the sampling of core `c` copied into the spare's block (R477). -/
def State.copyCounters (s : State) (c k : Nat) : State :=
  let cp := fun (s : State) (r : Reg) (x y : List Nat) => s.setReg r y (s.reg r x)
  let s1 := (List.range 8).foldl (fun s i => cp (cp s .pmcCtl [c, i] [k, i]) .pmcCnt [c, i] [k, i]) s
  let s2 := cp (cp (cp s1 .pmcOwn [c] [k]) .pmcSctl [c] [k]) .pmcSbuf [c] [k]
  let bad := (s2.pmcBad.filter fun n => n / 8 == c).map fun n => 8 * k + n % 8
  ({ s2 with pmcBad := bad ++ s2.pmcBad.filter fun n => n / 8 != k } : State).modCore k fun x => { x with sampleSeq := (s2.core c).sampleSeq }

/-- Stopped threads that a fault record keeps follow their core to the spare (R466). -/
def State.seenMove (s : State) (c k : Nat) : State :=
  let mv := fun (m : Nat) => if m / 2 = c then 2 * k + m % 2 else m
  { s with fltSeen := s.fltSeen.map fun x => { x with thread := x.thread.map mv } }

/-- A core's patch RAM and dispatch overrides copied from the verified image (R134, R136). DEDUCED: log 131. -/
def State.copyPatch (s : State) (c : Nat) : State :=
  s.modCore c fun x => { x with
    pram := ((List.range s.patch.words).map fun k => (0x6000 + k, s.imageWord k)).filter (fun p => p.2 != 0), disp := s.patch.disp }

/-- The partition that owns core `c`: that of a thread out of core reset, else none (PID 0). -/
def State.corePid (s : State) (c : Nat) (run0 : Run) : Nat :=
  if run0 = .held then (s.thr (2 * c + 1)).cur.pid else (s.thr (2 * c)).cur.pid

/-- The sparing of core `c` runs: steps 2 to 6 of R149, or what R154 leaves of them; the FATAL form of its record names PID 0.
DESIGN CHOICE: log 178. -/
def State.sparingRun (s : State) (c : Nat) : State :=
  match s.sparings.find? fun x => x.core == c with
  | none => s
  | some x =>
    let s1 := { s with rcm := s.rcm + 1 }
    match s1.pickSpare c with
    | none =>
      let sec := (x.run0.acts && (s1.thr (2 * c)).cur.pl == 3) || (x.run1.acts && (s1.thr (2 * c + 1)).cur.pl == 3)
      (s1.coreFault c (if sec then clsFatal else clsContained) 0x0112 (if sec then 0 else s1.corePid c x.run0) 0).modSparing c
        fun y => { y with started := true, spare := none }
    | some k =>
      let s2 := (s1.setReg .rstCorespare [] (setBit (s1.reg .rstCorespare) k false)).setReg .rstCoresvc []
        (setBit (s1.reg .rstCoresvc) k true)
      let s3 := (s2.setCore k (Core.reset k)).copyPatch k
      let move := fun (s : State) (i : Nat) =>
        let f := s.thr (2 * c + i)
        (s.modThr (2 * k + i) fun t => (t.placed f).atCore k i).copyRoots (2 * c + i) (2 * k + i)
      let s4 := (move (move s3 0) 1).copyCounters c k
      s4.modSparing c fun y => { y with started := true, spare := some k, lcore := x.lcore }

/-- What a thread of a failing core does until the end: nothing (R151). -/
def Thread.halt (t : Thread) : Thread :=
  if t.active then { t.rewind with run := .held } else t.flush

/-- The run state a sparing gives back, after the flush. -/
def Thread.runAfter (t : Thread) : Run := t.rewind.run

/-- Is an event of R147 before another: by its time, and in one cycle by the physical core number (R152)? -/
def eventBefore (t c t' c' : Nat) : Bool := decide (t < t') || (t == t' && decide (c < c'))

/-- The waiting sparing whose event came first (R152). -/
def firstSparing : List Sparing → Option Sparing
  | [] => none
  | x :: xs => match firstSparing xs with
    | some y => some (if eventBefore y.since y.core x.since x.core then y else x)
    | none => some x

/-- Is a core due whose event is before another and whose threads have not stopped yet? -/
def State.dueBefore (s : State) (x : Sparing) : Bool :=
  (List.range 56).any fun c =>
    (s.core c).due.isSome && !(s.sparings.any fun y => y.core == c) && eventBefore (s.core c).dueAt c x.since x.core

/-- The next sparing in the order of their events begins, once none is in progress (R152). -/
def State.sparingNext (s : State) : State :=
  if s.sparings.any (·.started) then s
  else match firstSparing s.sparings with
    | some x => if s.dueBefore x then s else s.sparingRun x.core
    | none => s

/-- Sparing starts (R149 steps 1 to 6); another sparing in progress makes it wait, its core stopped
(R152). `readOut`: whether a core whose clock has dropped gives up its checkpoints (R148). -/
def State.sparingStart (s : State) (c : Nat) (readOut : Bool) : State :=
  let x := s.core c
  if s.sparings.any (·.core == c) then s
  else match x.due with
    | none => s
    | some code =>
      let s0 := if !s.islRuns c && !readOut then
          (List.range 2).foldl (fun s i => if (s.thr (2 * c + i)).run != .held then s.lostState (2 * c + i) else s) s
        else s
      let r0 := (s0.thr (2 * c)).runAfter
      let r1 := (s0.thr (2 * c + 1)).runAfter
      let s1 := (s0.modThr (2 * c) Thread.halt).modThr (2 * c + 1) Thread.halt
      let y : Sparing :=
        { core := c, lcore := (s1.thr (2 * c)).cur.lcore, code := code, readOut := readOut, started := false, spare := none,
          run0 := r0, run1 := r1, drop0 := false, drop1 := false, since := x.dueAt }
      ({ s1 with sparings := s1.sparings ++ [y] } : State).sparingNext

def execSparingStart (c : CoreId) (readOut : Bool) (s : State) : Host.Outcome State Fault Refusal :=
  .next (s.sparingStart c.val readOut)

/-- Lines that core `c` holds. -/
def State.linesIn (s : State) (c : Nat) : List Nat :=
  (s.l2.filter fun p => p.1 / 2 ^ 40 == c && p.2.st != .i).map fun p => p.1 % 2 ^ 40

/-- Can the drain end: the hardened stores and combining buffers are out, no write-back waits, and no
read of the core is open? -/
def State.drained (s : State) (c : Nat) : Bool :=
  (s.thr (2 * c)).sb.isEmpty && (s.thr (2 * c + 1)).sb.isEmpty && (s.thr (2 * c)).cb.isEmpty &&
  (s.thr (2 * c + 1)).cb.isEmpty && ((s.linesIn c).all fun l => (s.l2l c l).st != .ep) &&
  !(s.txns.any fun t => t.req.agent == .core c)

/-- A thread of the spare takes over what the failing core's had: its run state, its snapshot, what an XPOST or device
load that runs again keeps, and what became pending since step 1 (R127, R149 steps 8 and 10, R151, R155, R226). -/
def Thread.resume (t : Thread) (from_ : Thread) (r : Run) (k thr : Nat) : Thread :=
  { t with
    run := r, snap := from_.snap.atCore k thr, snapRun := from_.snapRun, ipi := t.ipi || from_.ipi,
    losses := from_.losses ++ t.losses, stcn := from_.stcn, fatalStop := t.fatalStop || from_.fatalStop,
    abandons := from_.abandons, kept := from_.kept, devLoad := from_.devLoad, devVal := from_.devVal,
    svcWait := from_.svcWait }

/-- A thread of a reset partition: its retired stores still drain (R57, R244). -/
def Thread.partReset (m : Nat) (t : Thread) : Thread :=
  let h := t.hardenAll
  { Thread.reset m with
    run := .held, sb := h.sb, cb := h.cb, barGen := h.barGen, bars := h.bars, seq := h.seq, hseq := h.hseq, snap := h.snap, snapRun := h.snapRun }

/-- A failing core out of use: deconfigured, its checkpoint arrays and L2 cleared (R149 step 7, R494). -/
def State.deconf (s : State) (c : Nat) : State :=
  let s1 := (s.setReg .rstCoresvc [] (setBit (s.reg .rstCoresvc) c false)).setReg .rstCoredeconf []
    (setBit (s.reg .rstCoredeconf) c true)
  let held := fun (m : Nat) => { Thread.reset m with run := Run.held }
  ((s1.setThr (2 * c) (held (2 * c))).setThr (2 * c + 1) (held (2 * c + 1))).setCore c (Core.reset c)

/-- An interrupt route that names the failing core's thread follows to the spare (R149 step 8). -/
def State.reroute (s : State) (c k : Nat) : State :=
  if s.rf .fltRoute [] 6 1 = c then s.setRf .fltRoute [] 6 1 k else s

/-- INFO of 0x0111: the logical core at [53:48], the PID at [37:32], the code of the check at [15:0]; R150 names the
content only. DESIGN CHOICE: log 159. -/
def sparedInfo (lcore pid code : Nat) : W64 := pack [(53, 48, lcore), (37, 32, pid), (15, 0, code)]

/-- Steps 8 to 10 of R149 on spare `k`: both threads take over and the record is written. A thread whose partition was
reset meanwhile does not resume: its reset goes on here (R153). That the record is written then too is a
DESIGN CHOICE: log 160. -/
def State.takeOver (s : State) (x : Sparing) (k : Nat) (t0 t1 : Thread) (pid : Nat) : State :=
  let a := (s.modThr (2 * k) fun t => t.resume t0 x.run0 k 0).modThr (2 * k + 1) fun t => t.resume t1 x.run1 k 1
  let b := ((a.reroute x.core k).seenMove x.core k).coreFault k clsCorrected 0x0111 pid 0 (sparedInfo x.lcore pid x.code)
  let c := if x.drop0 then b.modThr (2 * k) (Thread.partReset (2 * k)) else b
  if x.drop1 then c.modThr (2 * k + 1) (Thread.partReset (2 * k + 1)) else c

/-- Steps 7 to 10 of R149, and the next sparing that waits (R152). -/
def State.sparingEnd (s : State) : State :=
  match s.sparings.find? fun x => x.started with
  | none => s
  | some x =>
    let c := x.core
    if !s.drained c then s
    else
      let s1 := (s.linesIn c).foldl (fun s l => s.evict c l) s
      let t0 := s1.thr (2 * c)
      let t1 := s1.thr (2 * c + 1)
      let s2 := { s1.deconf c with rcm := s1.rcm - 1, sparings := s1.sparings.filter fun y => y.core != c }
      let s3 := match x.spare with
        | none => s2
        | some k => s2.takeOver x k t0 t1 (s1.corePid c x.run0)
      s3.sparingNext

def execSparingDrainEnd (s : State) : Host.Outcome State Fault Refusal := .next s.sparingEnd

/-! ## Patches (R131-R136) -/

/-- Offset of the first override, and of the signature (R131). -/
def patchD (b : List Byte) : Nat := 0x80 + 24 * fld (dwordAt b 8) 63 48
def patchS (b : List Byte) : Nat := patchD b + 8 * fld (dwordAt b 8) 47 32

/-- Microword `k` of an image. -/
def patchWord (b : List Byte) (k : Nat) : BitVec 160 :=
  BitVec.ofNat 160 (ofBytes ((b.drop (0x80 + 24 * k)).take 20))

/-- Override `j`: index and entry. -/
def patchOver (b : List Byte) (j : Nat) : W64 := dwordAt b (patchD b + 8 * j)

/-- Dispatch indices that decode uses (R124, R125). DEDUCED: log 63. -/
def csIndices : List Nat := [0x000, 0x001, 0x002, 0x2F0, 0x2F1, 0x334, 0x380, 0x390, 0x3A0]

/-- Check 0x10 of R133. A VERSION of 0, outside the range of R131, fails it too. DESIGN CHOICE: log 156. -/
def patchShape (b : List Byte) : Bool :=
  let h := dwordAt b 0
  let n := dwordAt b 8
  let nw := fld n 63 48
  let nd := fld n 47 32
  fld h 63 32 == 0x4B5A4350 && fld h 31 16 != 0 && decide (1 ≤ nw) && decide (nw ≤ 8192) && decide (nd ≤ 1024) &&
  fld n 23 0 == 0 && dwordAt b 0x70 == 0 && dwordAt b 0x78 == 0 &&
  ((List.range nw).all fun k => fld (patchWord b k) 16 0 == 0 && fld (dwordAt b (0x90 + 24 * k)) 31 0 == 0) &&
  (List.range nd).all fun j => fld (patchOver b j) 53 16 == 0

/-- The granules an image covers. -/
def patchGrans (b : List Byte) : Nat := min 4 ((patchS b + 96 + 0xFFFF) / 0x10000)

/-- Owned by PID 0 in the Secure World; before the POT is enabled, all memory is (DEDUCED, log 18). -/
def State.bootOwned (s : State) (a : Nat) : Bool :=
  s.isDram a && (s.rf .potBase [] 0 0 == 0 ||
    (let e := s.potEntry a; fld e 63 58 == 0 && fld e 57 57 == 1 && fld e 56 54 == potOwned))

/-- Threads out of reset. -/
def State.outThreads (s : State) : List Nat := (List.range 112).filter fun m => (s.thr m).run != .held

/-- The checks of R133 in their order; 0x02 where all pass. `deep`: with those that need the digests
and the signature. DEDUCED: log 61. -/
def State.patchCheck (s : State) (deep : Bool) : Nat :=
  let base := s.rf .rstCsaddr [] 47 16 * 0x10000
  let b := s.rd base 205024
  let h := dwordAt b 0
  let n := dwordAt b 8
  let ki := fld n 31 24
  if s.rf .rstCsver [] 0 0 = 1 then 0x18
  else if 1 < s.outThreads.length then 0x1A
  else if !((List.range (patchGrans b)).all fun g => s.bootOwned (base + 0x10000 * g)) then 0x17
  else if !patchShape b then 0x10
  else if fld h 15 0 ≠ s.rf .rstCsver [] 63 48 then 0x11
  else if fld h 31 16 < fld (s.optD 0x100) 15 0 then 0x12
  else if 1 < ki ∨ bit (s.optD 0x0A0) ki then 0x13
  else if !deep then 0x02
  else
    let key := (b.drop 0x10).take 96
    let sig := b.drop (patchS b)
    let hash := (List.range 48).map fun i => Map.get optDefault s.optIn (0x10 + 0x30 * ki + i)
    if sha384 key ≠ hash then 0x14
    else if !ecdsaVerify (ofBytes (key.take 48)) (ofBytes (key.drop 48)) (ofBytes (sig.take 48))
        (ofBytes ((sig.drop 48).take 48)) (sha384 (b.take (patchS b))) then 0x15
    else if !((List.range (fld n 47 32)).all fun j => csIndices.contains (fld (patchOver b j) 63 54)) then 0x16
    else if !((List.range (fld n 63 48)).all fun k => wordOk (patchWord b k)) then 0x19
    else 0x02

/-- A write of RST.CSCTL.LOAD = 1 (R132, R133). -/
def State.patchLoad (s : State) : State :=
  if s.rf .rstCsctl [] 1 1 = 1 ∨ s.rf .rstCsstat [] 7 0 = 1 then s
  else
    let c := s.patchCheck false
    s.setRf .rstCsstat [] 7 0 (if c = 2 then 1 else c)

/-- RST.CSCTL.LOAD (R132, R382). -/
def execPatchLoad (s : State) : Host.Outcome State Fault Refusal := .next (s.cfgw .rstCsctl [] 1).patchLoad

/-- The patch of an image that has passed its checks. Of two overrides of one index the later one stands (R131). DESIGN
CHOICE: log 177. -/
def patchOf (base : Nat) (b : List Byte) : Patch :=
  let n := dwordAt b 8
  let disp := (List.range (fld n 47 32)).foldl (fun m j =>
    let o := patchOver b j
    Map.put m (fld o 63 54) (BitVec.ofNat 16 (fld o 15 0))) []
  { base := base, granules := patchGrans b, digest := sha384 (b.take (patchS b)),
    words := fld n 63 48, disp := disp }

/-- The verification ends (R133, R134): the image granules become Reserved-Module, the boot core copies the patch, and
CSVER shows it. RST.CSADDR and the image are read as they stand now, should they have been written since LOAD.
DESIGN CHOICE: log 157. -/
def execPatchLoadComplete (s : State) : Host.Outcome State Fault Refusal :=
  .next (
    if s.rf .rstCsstat [] 7 0 ≠ 1 then s
    else
      let c := s.patchCheck true
      let s1 := s.setRf .rstCsstat [] 7 0 c
      if c ≠ 2 then s1
      else
        let base := s.rf .rstCsaddr [] 47 16 * 0x10000
        let b := s.rd base 205024
        let n := dwordAt b 8
        let s2 := ({ s1 with patch := patchOf base b } : State).patchReserve
        let s3 := s2.setReg .rstCsver [] (pack [(63, 48, s.rf .rstCsver [] 63 48), (47, 32, fld (dwordAt b 0) 31 16),
          (29, 16, fld n 63 48), (8, 8, fld n 31 24), (0, 0, 1)])
        (s.outThreads.map (· / 2)).eraseDups.foldl State.copyPatch s3)

/-- RST.CSCTL.LOCK, until the next module reset (R132, R135). -/
def execPatchLock (s : State) : Host.Outcome State Fault Refusal := .next ((s.cfgw .rstCsctl [] 2).setRf .rstCsctl [] 1 1 1)

end Sys2Proof.Machine
end

