-- ==== Sys2Proof/Machine/Scion.lean ====
section
/-! DEFINITION. Scion: roles, the link, the mirror, commits, takeover, switch-over and joining (14
R365-R404). -/

namespace Sys2Proof.Machine

def State.modScn (s : State) (f : Scion → Scion) : State := { s with scn := f s.scn }

/-- SCN.PRIV.EN and SCN.CTL.PAIREN. -/
def State.scnOn (s : State) : Bool := s.rf .scnPriv [] 0 0 == 1
def State.pairOn (s : State) : Bool := s.rf .scnCtl [] 0 0 == 1

/-- Scion enabled: its region and PAIREN are locked, with pairing its lanes train, and it has the module's serial number
for HELLO (R372, R375, R403, R492, R503). -/
def State.scnEnable (s : State) : State :=
  (s.setRf .scnPriv [] 0 0 1).modScn fun x => { x with
    trainA := s.pairOn, trainB := s.pairOn, serial := (s.optNvm 0).toNat }

def execScionEnable (s : State) : Host.Outcome State Fault Refusal := .next s.scnEnable

/-! ## The start rule (R365-R367) -/

/-- The pins as sampled; FENCE_IN high forces PAIR_ACTIVE low (R368). -/
def State.sample (s : State) (fence peer : Bool) : State :=
  { s with pins := { s.pins with fenceIn := fence, peerActive := peer, pairActive := s.pins.pairActive && !fence } }

/-- The first role after a reset. -/
def State.startAs (s : State) (role : Nat) : State :=
  s.modScn fun x => { x with role := role, confirming := false }

/-- A module about to become Solo drives PAIR_ACTIVE, and samples again 10 µs later. -/
def State.confirmSolo (s : State) : State :=
  ({ s with pins := { s.pins with pairActive := !s.pins.fenceIn } } : State).modScn fun x => { x with confirming := true }

/-- Is the role still to be decided? -/
def State.undecided (s : State) : Bool := s.scn.role == 7

/-- Without pairing the module is Solo, and drives PAIR_ACTIVE high unless FENCE_IN is (R20, R365, R368). -/
def State.unpaired (s : State) : State :=
  ({ s with pins := { s.pins with pairActive := !s.pins.fenceIn } } : State).startAs 0

def execStartRule (pairId fence peer : Bool) (s : State) : Host.Outcome State Fault Refusal :=
  .next (
    if !s.undecided || s.scn.confirming then s
    else
      let s1 := ({ s with pins := { s.pins with pairId := pairId } } : State).sample fence peer
      if !s.pairOn then s1.unpaired
      else if pairId then (if peer then s1.startAs 3 else s1)
      else if !peer && !fence then s1.confirmSolo else s1.startAs 3)

def execStartRuleConfirm (fence peer : Bool) (s : State) : Host.Outcome State Fault Refusal :=
  .next (
    if !s.undecided || !s.scn.confirming then s
    else
      let s1 := s.sample fence peer
      if fence || (peer && s.pins.pairId) then
        ({ s1 with pins := { s1.pins with pairActive := false } } : State).startAs 3
      else (s1.startAs 0).startProbe)

/-- PEER_ACTIVE stayed low for the start timeout. -/
def execStartTimeout (fence : Bool) (s : State) : Host.Outcome State Fault Refusal :=
  .next (
    if !s.undecided || s.scn.confirming || !s.pairOn || !s.pins.pairId || s.pins.peerActive then s
    else
      let s1 := s.sample fence false
      if fence then s1.startAs 3 else s1.confirmSolo)

/-! ## Fencing (R368, R394) -/

/-- The module fences itself: transmitters idle, PAIR_ACTIVE low, Fenced, FATAL 0x0706. -/
def State.fenceSelf (s : State) : State :=
  let s1 := { s with egressIdle := true, pins := { s.pins with pairActive := false } }
  (s1.setRole 4).fault blkScion clsFatal 0x0706 0 0

/-- FENCE_IN as filtered; its rise fences a Solo, Active or Standby module. -/
def execFenceIn (high : Bool) (s : State) : Host.Outcome State Fault Refusal :=
  let s1 := s.sample high s.pins.peerActive
  .next (if high && !s.pins.fenceIn && decide (s.scn.role ≤ 2) then s1.fenceSelf else s1)

/-! ## The link (R369-R372) -/

/-- A HELLO with a fresh nonce (R372). -/
def State.sendHello (s : State) : State :=
  let d := s.drawBytes 32
  let h : Hello := ⟨s.pins.pairId, s.scn.serial, d.1⟩
  let s1 := d.2.modScn fun x => { x with mine := some h, authSent := false, authed := false, authRetry := false }
  s1.scnSend (.hello h.pairId h.serial h.nonce)

/-- A lane group trains up; the first one brings the link up. -/
def execLaneGroupUp (b : Bool) (s : State) : Host.Outcome State Fault Refusal :=
  .next (
    if !s.scnOn || !s.pairOn || !s.islRuns 107 then s
    else
      let was := s.scn.grpA || s.scn.grpB
      let s1 := s.modScn fun x => if b then { x with grpB := true, trainB := false } else { x with grpA := true, trainA := false }
      if was then s1.scnPump else s1.sendHello)

/-- A lane group fails: DEGRADED, or DOWN, where what was agreed is forgotten. The link leaves UP, so a
join ends (R399). -/
def execLaneGroupDown (b : Bool) (s : State) : Host.Outcome State Fault Refusal :=
  .next (
    if !(if b then s.scn.grpB else s.scn.grpA) then s
    else
      let s1 := s.modScn fun x => if b then { x with grpB := false } else { x with grpA := false }
      if s1.scn.grpA || s1.scn.grpB then (s1.fault blkScion clsCorrected 0x0701 0 0).joinLost
      else (s1.modScn fun x => { x with
        mine := none, peer := none, authSent := false, authed := false, authRetry := false, resending := false, rxSeq := 0, nakOut := false }).joinLost)

def execLaneGroupRetrain (b : Bool) (s : State) : Host.Outcome State Fault Refusal :=
  .next (
    if !s.scnOn || !s.pairOn then s
    else s.modScn fun x =>
      if b then { x with trainB := !x.grpB } else { x with trainA := !x.grpA })

/-- A link-control unit: whether the block before it checks, and whether it carries a NAK (R370). A block that fails is
NAKed and awaited again under its number. DEDUCED: log 64. -/
def execLinkControlUnit (good nak : Bool) (s : State) : Host.Outcome State Fault Refusal :=
  .next (
    if !(s.scn.grpA || s.scn.grpB) then s
    else
      let s1 := s.modScn fun x => { x with
        resending := !good || nak, nakOut := !good, rxSeq := if good then x.rxSeq + 1 else x.rxSeq }
      if !nak then s1.scnPump
      else
        let x := s1.scn
        let n := if x.resendSec = s.stc.sec then x.resendCnt + 1 else 1
        let s2 := s1.modScn fun x => { x with resends := min (x.resends + 1) 0xFFFF, resendSec := s.stc.sec, resendCnt := n }
        if 100 < n ∧ x.rated702 ≠ some s.stc.sec then
          (s2.modScn fun x => { x with rated702 := some s.stc.sec }).fault blkScion clsCorrected 0x0702 0 0
        else s2)

/-- The message that AUTH covers: nonces, serial numbers, PAIR_IDs, PAIR_ID 0 first (R372; DEDUCED, log 35). -/
def authMsg (a b : Hello) : List Byte :=
  let p := if a.pairId then (b, a) else (a, b)
  p.1.nonce ++ p.2.nonce ++ toBytes 8 p.1.serial ++ toBytes 8 p.2.serial ++
    [BitVec.ofNat 8 p.1.pairId.toNat, BitVec.ofNat 8 p.2.pairId.toNat]

def State.authMac (s : State) : Option (List Byte) :=
  match s.scn.mine, s.scn.peer with
  | some a, some b => some (hmac256 s.scn.key (authMsg a b))
  | _, _ => none

/-- AUTH, once both HELLOs are known (R372). -/
def State.sendAuth (s : State) : State :=
  match s.authMac with
  | some mac => (s.scnSend (.auth mac)).modScn fun x => { x with authSent := true }
  | none => s

def execHello (pairId : Bool) (serial : W64) (nonce : List Byte) (s : State) : Host.Outcome State Fault Refusal :=
  .next (
    if !s.scn.carries || s.scn.mine.isNone then s
    else
      let s1 := s.modScn fun x => { x with peer := some ⟨pairId, serial.toNat, fit 32 nonce⟩, authed := false }
      s1.sendAuth)

/-- The partner's AUTH verified; a failure holds the link (R372). -/
def execScionAuth (mac : List Byte) (s : State) : Host.Outcome State Fault Refusal :=
  .next (
    match s.authMac with
    | none => s
    | some m =>
      if !s.scn.carries || s.scn.authed || s.scn.authRetry then s
      else if mac = m then (s.modScn fun x => { x with authed := true }).scnPump
      else (s.modScn fun x => { x with authRetry := true }).fault blkScion clsContained 0x070A 0 0)

/-- The next try, 1 s later: a fresh HELLO and, since the partner's HELLO is known, AUTH over both (R372). -/
def execScionAuthRetry (s : State) : Host.Outcome State Fault Refusal :=
  .next (if s.scn.authRetry && s.scn.carries then s.sendHello.sendAuth else s)

/-! ## Releasing outputs (R387) -/

/-- A flush read queued behind every tracked store, if none is that covers them (R238). -/
def MmioPort.queueFlush (p : MmioPort) : MmioPort :=
  let n := p.tracked.length
  if n = 0 ∨ p.flushes.getLast? = some n then p else { p with flushes := p.flushes ++ [n] }

/-- A posted MMIO store leaves a port: tracked, with a flush read queued behind the 192nd, or discarded and counted while
the path is failed (R238, R240). -/
def MmioPort.post (p : MmioPort) (x : MmioStore) : MmioPort :=
  if p.lost then { p with discarded := p.discarded + 1, skip := p.skip - 1 }
  else
    let q := { p with tracked := p.tracked ++ [x] }
    if q.tracked.length = 192 then q.queueFlush else q

/-- May a store leave the port now: fewer than 256 are tracked, and the module transmits (R20, R238)? -/
def State.mmioFree (s : State) (port : Nat) : Bool :=
  (s.mmioPort port).lost || (decide ((s.mmioPort port).tracked.length < 256) && s.transmits)

/-- A posted MMIO store reaches its port, and waits there while it may not leave (R20, R238). -/
def State.mmioPost (s : State) (port : Nat) (x : MmioStore) : State :=
  s.modMmio port fun p =>
    if s.mmioFree port && p.held.isEmpty then p.post x else { p with held := p.held ++ [(0, x)] }

/-- The oldest held output of a port leaves, a message or an MMIO store; none where it fails a test or may not leave yet
(R238, R387). An ABORT for a port that cannot transmit is not kept. -/
def State.releaseOne (ok : Nat → Bool) (n : Nat) (s : State) : Option State :=
  let out := fun (h : HeldOut) =>
    if !ok h.ep then none
    else
      let s1 := { s with held := s.held.erase h }
      some (if (h.msgs.all fun m => m.typ == 2) && !s.canSend n then s1 else s1.portSend n h.msgs)
  let store := fun (x : Nat × MmioStore) =>
    if !ok x.1 || !s.mmioFree n then none
    else
      let less := fun (h : HeldOut) => if h.port = n then { h with after := h.after - 1 } else h
      some (({ s with held := s.held.map less } : State).modMmio n fun p => ({ p with held := p.held.drop 1 } : MmioPort).post x.2)
  match s.held.find? fun h => h.port == n, (s.mmioPort n).held with
  | none, [] => none
  | some h, [] => out h
  | none, x :: _ => store x
  | some h, x :: _ => if h.after = 0 then out h else store x

/-- The held outputs of a port leave in the order of their creation, up to the first that stays. -/
def State.releasePort (ok : Nat → Bool) (n : Nat) : Nat → State → State
  | 0, s => s
  | k + 1, s => match s.releaseOne ok n with
    | some s1 => State.releasePort ok n k s1
    | none => s

/-- What a port holds that passes a test leaves; a withdrawn port then goes off (R317). -/
def State.releaseAt (s : State) (ok : Nat → Bool) (n : Nat) : State :=
  (State.releasePort ok n (s.held.length + (s.mmioPort n).held.length) s).portEnds n

/-- Held outputs that pass a test leave. -/
def State.release (s : State) (ok : Nat → Bool) : State := (List.range 16).foldl (fun s n => s.releaseAt ok n) s

/-! ## Inbound items that waited (R377, R391) -/

def State.replayOne (s : State) (i : ReplayItem) : State :=
  match i.dma with
  | some r => s.dma r
  | none => (s.applyMsg i.port i.typ i.msg i.result).afterEnd (i.stream / 2 ^ 26)

/-- Items that waited are taken in their order, as far as they may be now. -/
def State.letWaits (s : State) : State :=
  s.scn.waits.foldl (fun s i =>
    if s.scn.role = 2 then s.keepReplay i else if s.itemWaits i then s.waitItem i else s.replayOne i)
    (s.modScn fun x => { x with waits := [] })

/-- An Active left without its partner becomes Solo: outputs leave, epochs stop (R395). -/
def State.becomeSolo (s : State) : State :=
  let s1 := (s.setRole 0).modScn fun x => { x with running := false, switchOver := none, joinSrc := none, queue := [], ship := [], counts := [], stalled := [] }
  (s1.release fun _ => true).letWaits.fault blkScion clsCorrected 0x0703 0 0

/-! ## Heartbeats (R374, R392, R394, R395) -/

def State.committed (s : State) : Nat := (s.reg .scnEpoch).toNat

/-- HB goes out ahead of queued records, and one more beat of the partner is awaited; the beats of a partner lost with
the link are missed too (R374, R392, R395). -/
def execHbSend (s : State) : Host.Outcome State Fault Refusal :=
  .next (
    if !s.pairOn || !(s.scn.authed || s.scn.role == 1 || s.scn.role == 2) then s
    else
      let s1 := s.modScn fun x => { x with hbMiss := min (x.hbMiss + 1) 15 }
      if s.scn.carries && s.scn.authed then s1.scnSend (.hb s.scn.role s.term s.committed) else s1)

/-- A valid HB; a higher TERM from a Solo or Active partner fences a Solo, Active or Standby module, as FENCE_IN does (R368, R394).
DEDUCED: log 136. -/
def execHb (role : BitVec 3) (term : BitVec 16) (ep : W64) (s : State) : Host.Outcome State Fault Refusal :=
  .next (
    if !s.scn.carries || !s.scn.authed then s
    else
      let s1 := s.modScn fun x => { x with hbMiss := 0, peerRole := role.toNat, peerTerm := term.toNat, peerEpoch := ep.toNat }
      if s.term < term.toNat ∧ role.toNat ≤ 1 ∧ s.scn.role ≤ 2 then s1.fenceSelf else s1)

/-- The Standby declares the Active lost: it applies no more records and drives FENCE_OUT (R393). -/
def State.declareLost (s : State) : State :=
  if s.scn.role != 2 || s.scn.takeover.isSome then s
  else ({ s with pins := { s.pins with fenceOut := true } } : State).modScn fun x => { x with takeover := some .declared }

def execPartnerLost (peer : Bool) (s : State) : Host.Outcome State Fault Refusal :=
  let s1 := s.sample s.pins.fenceIn peer
  .next (if 15 ≤ s.scn.hbMiss ∨ (!(s.scn.grpA || s.scn.grpB) ∧ !peer) then s1.declareLost else s1)

def execActivePartnerLost (fence peer : Bool) (s : State) : Host.Outcome State Fault Refusal :=
  .next (
    if s.scn.role != 1 || decide (s.scn.hbMiss < 15) then s
    else
      let s1 := s.sample fence peer
      if peer || fence then s1.fenceSelf else s1.becomeSolo)

/-! ## Shipping and commits at the source (R376-R387) -/

def execEpochTimer (s : State) : Host.Outcome State Fault Refusal := .next s.epochClose

/-- The oldest entry of the frozen half is issued (R380). -/
def execShipRequest (s : State) : Host.Outcome State Fault Refusal :=
  .next (match s.scn.frozen with
    | [] => s.queueClose
    | e :: es => (({ s with scn := { s.scn with frozen := es } } : State).issueEntry e).queueClose)

def execBacklogStallRelease (s : State) : Host.Outcome State Fault Refusal :=
  .next (if s.stalled then s.budgetClose else (s.modScn fun x => { x with stalled := [] }).letWaits)

/-- ACK: the epoch is committed. The switch epoch of a join makes the source Active (R367, R398); the
last epoch of a planned switch-over hands over (R396). -/
def execScionAck (ep : W64) (s : State) : Host.Outcome State Fault Refusal :=
  let e := ep.toNat
  .next (
    if !s.scn.authed || !s.scn.running || decide (s.scn.epoch ≤ e) then s
    else
      let s1 := s.setReg .scnEpoch [] ep
      match s.scn.joinSrc with
      | some (.switching w) =>
        if w = e then
          ({ s1 with pins := { s1.pins with fenceOut := false } } : State).setRole 1 |>.modScn fun x => { x with joinSrc := none }
        else s1
      | some _ => s1
      | none =>
        if s.scn.role != 1 then s1
        else
          let s2 := s1.release fun n => decide (n ≤ e)
          match s.scn.switchOver with
          | none => s2
          | some w =>
            if w ≤ e then
              (({ s2.scnSend (.fail 2) with egressIdle := true, pins := { s2.pins with pairActive := false } } : State).setRole 4).modScn
                fun x => { x with running := false }
            else s2)

/-! ## The mirror (R384-R390) -/

/-- Does the module apply records: a Standby before a takeover, or a joiner? -/
def State.mirrors (s : State) : Bool :=
  s.scn.authed && s.scn.carries && ((s.scn.role == 2 && s.scn.takeover.isNone) || (s.scn.role == 3 && s.scn.joining))

/-- Has a joiner received no epoch record yet, so that the next one names the epoch? -/
def Scion.fresh (x : Scion) : Bool := x.joining && x.recvCount == 0 && x.recvEp == 0

/-- A record of an epoch: it must be the one being received; a joiner's first record names it. -/
def State.recv (s : State) (ep : Nat) (r : Rec) (f : State → State) : State :=
  if !s.mirrors then s
  else
    let first := s.scn.fresh
    if s.scn.recvEp % 256 ≠ ep ∧ !first then s.mirrorFail
    else f (s.modScn fun x => { x with
      recvEp := if first then ep else x.recvEp, recvCount := x.recvCount + 1, recvBytes := x.recvBytes + r.size })

/-- A line written into the mirror, its old content kept in a Standby's Undo Log. -/
def State.mirrorLine (s : State) (l : Nat) (poison : Bool) (d : List Byte) : State :=
  let u : UndoEntry := ⟨l, s.homePoison l, s.homeRd (l * 256) 256⟩
  let s1 := if s.scn.role = 2 then s.modScn fun x => { x with undo := x.undo ++ [u] } else s
  (s1.hubWriteLine (l * 256) (fit 256 d)).setPoison l poison

/-- Register entries put into the pending bank. -/
def bankPut (b : Map W64) (thr : Nat) (es : List (Nat × W64)) : Map W64 :=
  es.foldl (fun b e => Map.put b (thr * 1024 + e.1) e.2) b

/-- One record applied by a mirror (R384). -/
def State.applyRec (s : State) (r : Rec) : State :=
  match r with
  | .line ep l p d => s.recv (ep % 256) r fun s => s.mirrorLine l p d
  | .regd ep t es => s.recv (ep % 256) r fun s => s.modScn fun x => { x with bankP := bankPut x.bankP t es }
  | .cfgw ep .. => s.recv (ep % 256) r fun s => s.modScn fun x => { x with pend := x.pend ++ [r] }
  | .out ep .. => s.recv (ep % 256) r fun s => s.modScn fun x => { x with pend := x.pend ++ [r] }
  | .mmio ep .. => s.recv (ep % 256) r fun s => s.modScn fun x => { x with pend := x.pend ++ [r] }
  | .mmiop ep .. => s.recv (ep % 256) r fun s => s.modScn fun x => { x with pend := x.pend ++ [r] }
  | _ => s

def execLine (ep : BitVec 8) (line : Line) (poison : Bool) (data : List Byte) (s : State) :
    Host.Outcome State Fault Refusal := .next (s.applyRec (.line ep.toNat line.toNat poison data))

def execRegd (ep : BitVec 8) (thr : BitVec 7) (entries : List (BitVec 10 × W64)) (s : State) :
    Host.Outcome State Fault Refusal :=
  .next (s.applyRec (.regd ep.toNat thr.toNat (entries.map fun e => (e.1.toNat, e.2))))

def execCfgw (ep : BitVec 8) (addr : BitVec 48) (value : W64) (s : State) : Host.Outcome State Fault Refusal :=
  .next (s.applyRec (.cfgw ep.toNat addr.toNat value))

def execOut (ep : BitVec 8) (handle : BitVec 21) (stream : BitVec 32) (abort : Bool) (path : BitVec 3) (xsn : W64)
    (s : State) : Host.Outcome State Fault Refusal :=
  .next (s.applyRec (.out ep.toNat handle.toNat stream.toNat abort path.toNat xsn.toNat))

def execMmio (ep : BitVec 8) (addr : BitVec 48) (data : List Byte) (pid : BitVec 6) (thr : BitVec 7) (s : State) :
    Host.Outcome State Fault Refusal :=
  .next (s.applyRec (.mmio ep.toNat addr.toNat data pid.toNat thr.toNat))

def execMmiop (ep : BitVec 8) (port : BitVec 4) (count : W64) (s : State) : Host.Outcome State Fault Refusal :=
  .next (s.applyRec (.mmiop ep.toNat port.toNat count.toNat))

/-- A COMP record: the frame decompressed, and its records applied one by one; a Sieve error counts as a
mismatch (R384, R427). -/
def execComp (ep : BitVec 8) (frame : List Byte) (s : State) : Host.Outcome State Fault Refusal :=
  .next (
    if !s.mirrors then s
    else match unframe 0x4000 frame with
      | .error _ => s.mirrorFail
      | .ok b => match recsOf (b.length + 1) b with
        | none => s.mirrorFail
        | some rs => if rs.all fun r => r.ep == some ep.toNat then rs.foldl State.applyRec s else s.mirrorFail)

/-- A joiner writes a page of the image (R398). -/
def execImg (page : BitVec 36) (data : List Byte) (s : State) : Host.Outcome State Fault Refusal :=
  .next (
    if !s.mirrors || s.scn.role != 3 || !s.isDram (page.toNat * 4096) then s
    else (s.hubWrite (page.toNat * 4096) (fit 4096 data)).modScn fun x => { x with imgNext := page.toNat + 1 })

/-- Trellis's state in the mirror, as the committed context area holds it (R388; DESIGN CHOICE, log 27). DESIGN CHOICE: log 114. -/
def State.mirrorTrl (s : State) : State :=
  let base := s.rf .trlCtxbase [] 47 26 * 2 ^ 26
  let area := (s.mem.filter fun p => decide (base ≤ p.1) && decide (p.1 < base + 2 ^ 26)).map fun p => (p.1 - base, p.2)
  let t := trellisContext area
  let sent := fun (x : Xch) => s.trl.xchs.any fun y => y.stream == x.stream && y.xsn == x.xsn && y.copySent
  { s with trl := { t with xchs := t.xchs.map fun x => { x with copySent := sent x } } }

/-- The second copy of a committed output (R388). -/
def State.sendCopy (s : State) (r : Rec) : State :=
  match r with
  | .out _ h st ab k xsn =>
    match s.trl.xchs.find? fun x => x.stream == st && x.xsn == xsn with
    | none => s
    | some x =>
      let x1 := { x with handle := some h, copySent := true }
      let port := fld (s.pathWord x.pid x.dev k) 59 56
      let ms := if ab then [s.xchMsg x1 2 k []] else s.exchMsgs x1 k
      if s.canSend port then (s.keepXch x1).portSend port ms else s
  | _ => s

/-- Inbound bytes that the Active has admitted for an exchange, by the mirror. -/
def Xch.inDone (x : Xch) : Nat := ((x.segs.filter Seg.dir).map Seg.done).sum + x.done

/-- Replay items of exchanges terminal in the mirror, and DMA writes that the Active has admitted, are
freed (R390). -/
def State.freeReplay (s : State) : State :=
  let keep := fun (i : ReplayItem) =>
    match s.trl.xchs.find? fun x => x.stream == i.stream && x.xsn == i.xsn with
    | none => false
    | some x => i.dma.isNone || decide (x.inDone < i.bytes)
  ({ s with replay := s.replay.filter keep } : State).replayLevel.letWaits

/-- The port of an adapter MMIO address in a record. -/
def recPort : Rec → Option Nat
  | .mmio _ a .. => some (mmioPort a)
  | _ => none

/-- A committed MMIOP count drops the stores it says were performed (R393 step 10). -/
def Scion.mmioDone (x : Scion) (r : Rec) : Scion :=
  match r with
  | .mmiop _ port n =>
    let last := Map.get zeroNat x.mmioCnt port
    let mine := x.comm.filter fun c => recPort c == some port
    let gone := mine.take (n - last)
    { x with mmioCnt := Map.set zeroNat x.mmioCnt port n, comm := gone.foldl List.erase x.comm }
  | _ => x

/-- An epoch commits at a mirror (R385): registers, configuration writes and MMIO stores join what is
committed, the Undo Log is dropped, and ACK goes out. -/
def State.mirrorCommit (s : State) (ep : Nat) : State :=
  let pend := s.scn.pend
  let keep := pend.filter fun r => match r with
    | .cfgw .. => true
    | .mmio .. => true
    | _ => false
  let x := { s.scn with
    bankC := s.scn.bankP, comm := s.scn.comm ++ keep, pend := [], undo := [], recvEp := ep + 1, recvCount := 0, recvBytes := 0 }
  let s1 := { s with scn := pend.foldl Scion.mmioDone x }
  (s1.setReg .scnEpoch [] (BitVec.ofNat 64 ep)).scnSend (.ack ep)

/-- A CLOSE or SWITCH whose counts match commits (R385); none where it does not. -/
def State.closeMatch (s : State) (ep count bytes : Nat) : Option State :=
  let x := s.scn
  if (x.recvEp % 256 = ep % 256 ∨ x.fresh) ∧ x.recvCount = count ∧ x.recvBytes = bytes then some (s.mirrorCommit ep) else none

def execScionClose (ep : W64) (count : BitVec 48) (bytes : W64) (s : State) : Host.Outcome State Fault Refusal :=
  .next (
    if !s.mirrors then s
    else
      let outs := s.scn.pend
      match s.closeMatch ep.toNat count.toNat bytes.toNat with
      | none => s.mirrorFail
      | some s1 => if s.scn.role = 2 then (outs.foldl State.sendCopy s1.mirrorTrl).freeReplay else s1)

/-- The joiner commits the switch epoch and becomes Standby, with the source's TERM (R342, R398). -/
def execSwitch (ep : W64) (count : BitVec 48) (bytes : W64) (s : State) : Host.Outcome State Fault Refusal :=
  .next (
    if !s.mirrors || !s.scn.joining then s
    else match s.closeMatch ep.toNat count.toNat bytes.toNat with
      | none => s.mirrorFail
      | some s1 =>
        let s2 := (s1.setRf .trlTerm [] 15 0 s.scn.peerTerm).mirrorTrl
        (s2.setRole 2).modScn fun x => { x with joining := false, recvEp := ep.toNat + 1 })

/-! ## Takeover (R393) -/

/-- A configuration write applied to the module registers. -/
def State.applyCfg (s : State) (r : Rec) : State :=
  match r with
  | .cfgw _ a v => match regAt a with
    | some (g, ix) => s.setReg g ix (fieldsWrite g.row.fields false v (s.reg g ix))
    | none => s
  | _ => s

/-- The committed register bank of one logical thread, if it has one. -/
def bankOf (b : Map W64) (lt : Nat) : List (Nat × W64) :=
  (b.filter fun p => p.1 / 1024 == lt).map fun p => (p.1 % 1024, p.2)

/-- A thread loaded from the committed bank (R393 step 7). -/
def loadThread (m : Nat) (es : List (Nat × W64)) : Thread :=
  let a := (es.foldl (fun a e => ckSet a e.1 e.2) (Arch.reset m)).atCore (m / 2) (m % 2)
  let run := match es.find? fun e => e.1 == ckCount with
    | some e => Run.ofCode e.2.toNat
    | none => .held
  { Thread.reset m with cur := a, hard := a, snap := a, run := run }

/-- The service cores in rising order: logical core `l` takes the l-th (DEDUCED, log 36). -/
def State.serviceCores (s : State) : List Nat := (List.range 56).filter fun c => bit (s.reg .rstCoresvc) c

def State.loadCores (s : State) : State :=
  ((s.serviceCores).mapIdx fun l c => (l, c)).foldl (fun s p =>
    let one := fun (s : State) (h : Nat) =>
      let es := bankOf s.scn.bankC (2 * p.1 + h)
      if es.isEmpty then s else s.setThr (2 * p.2 + h) (loadThread (2 * p.2 + h) es)
    (one (one s 0) 1).copyPatch p.2) (s.setRf .rstCsctl [] 1 1 1)

/-- Garnet's key-store key recovered from copy B, and every bound slot due a fresh instance (R439,
R441). -/
def State.takeKeys (s : State) : State :=
  if s.rf .gntKsbase [] 0 0 = 0 then s
  else match (s.ksRead (s.ksBase + 2 ^ 20 + 0x100) 40).bind (kwUnwrap (Config.pairingKek s.scn.key)) with
    | some k =>
      let s1 := (s.modGnt fun g => { g with ksk := k }).loadSlots true
      let due := (s1.gnt.slots.filter fun p => p.2.fresh).map Prod.fst
      (due.foldl (fun s n => s.putSlot n (s.slot n)) s1).writeKsk
    | none => s

/-- An exchange sent again after a takeover, from its recorded path on (R307). -/
def State.resend (s : State) (x : Xch) : State :=
  if s.usable x x.path then s.issue x x.path
  else match s.nextPath x x.path with
    | some k => s.issue x k
    | none => s.setXch { x with window := true }

/-- The committed MMIO stores not known performed, as lost stores. -/
def lostMmio (rs : List Rec) : List MmioStore :=
  rs.filterMap fun r => match r with
    | .mmio _ a d p t => some ⟨a, d, t, p⟩
    | _ => none

/-- Steps 4 to 12 of R393: `peer` is PEER_ACTIVE as sampled 5 µs after FENCE_OUT. No module becomes Solo while FENCE_IN is
high (R366): a Standby that joined under it fences itself instead. DEDUCED: log 182. -/
def execUndoLogApplied (peer : Bool) (s : State) : Host.Outcome State Fault Refusal :=
  .next (
    if s.scn.role != 2 || s.scn.takeover.isNone then s
    else
      let s1 := s.sample s.pins.fenceIn peer
      if s1.pins.fenceIn then s1.fenceSelf
      else
      let s2 := if peer then s1.fault blkScion clsContained 0x0705 0 0 else s1
      let s3 := s2.scn.undo.reverse.foldl (fun s u => (s.hubWriteLine (u.line * 256) u.data).setPoison u.line u.poison) s2
      let cfg := s3.scn.comm
      let s4 := (cfg.foldl State.applyCfg (s3.modScn fun x => { x with pend := [], undo := [], bankP := x.bankC })).mirrorTrl.restartJobs.pinSync
      let s5 := ((s4.loadCores).raiseTerm s4.scn.peerTerm).takeKeys
      let s6 := ({ s5.setRole 0 with pins := { s5.pins with pairActive := !s5.pins.fenceIn } } : State).modScn fun x => { x with
        takeover := none, running := false, comm := [], mmioCnt := [], bankP := [], bankC := [], recvCount := 0, recvBytes := 0 }
      let s7 := s6.fenceAll
      let s8 := (s7.trl.xchs.filter fun x => decide (2 ≤ x.state)).foldl (fun s x => s.resend x) s7
      let s9 := (s8.loseStores (lostMmio cfg)).fault blkScion clsCorrected 0x0704 0 0
      (s9.replay.foldl State.replayOne { s9 with replay := [], replayFull := false }).letWaits)

/-- FAIL: the partner leaves the pair (R367, R392, R395, R396, R399). DEDUCED: log 67. -/
def execFail (reason : BitVec 8) (s : State) : Host.Outcome State Fault Refusal :=
  .next (
    if !s.scn.authed || !s.scn.carries then s
    else if s.scn.role = 2 then s.declareLost
    else if s.scn.role = 1 then s.becomeSolo
    else if reason = 4 ∨ s.scn.joining ∨ s.scn.joinSrc.isSome then s.joinLost
    else s)

/-! ## Planned switch-over (R396) -/

/-- SCN.CTL.SWITCH on an Active: issue stops and the epoch closes, once the CLOSE of the epoch before it is queued. -/
def State.switchStart (s : State) : State :=
  if s.scn.role != 1 || s.scn.switchOver.isSome then s
  else s.epochCloseNow.modScn fun x => { x with switchOver := some s.scn.epoch }

def execSwitchOver (s : State) : Host.Outcome State Fault Refusal := .next s.switchStart

def execSwitchOverTimeout (s : State) : Host.Outcome State Fault Refusal :=
  .next (
    if s.scn.role = 1 ∧ s.scn.switchOver.isSome then
      (s.modScn fun x => { x with switchOver := none }).fault blkScion clsCorrected 0x070B 0 0
    else s)

/-! ## Joining (R397-R399) -/

/-- The first check of R397 that fails, or 0. -/
def State.joinCheck (s : State) (p : JoinPeer) : Nat :=
  let ver := s.reg .rstCsver
  if p.dram.toNat ≠ s.dram ∨ p.ways.toNat ≠ s.ways then 1
  else if p.priv.toNat ≠ s.rf .scnPriv [] 47 30 then 2
  else if p.romid.toNat ≠ fld ver 63 48 then 3
  else if s.serviceCores.length < p.lcores.toNat then 4
  else if (List.range 12).any fun k => p.ports.getLsbD k && !s.linkOn k then 5
  else if p.patched ≠ bit ver 0 ∨ p.pver.toNat ≠ fld ver 47 32 ∨ p.key ≠ bit ver 8 ∨
      (p.patched ∧ p.csaddr.toNat ≠ s.rf .rstCsaddr [] 47 16) then 6
  else if s.scn.peerRole ≠ 0 then 7
  else 0

/-- A failed check: the joiner sends FAIL and records its number. -/
def State.joinRefused (s : State) (n : Nat) : State :=
  (s.scnSend (.fail 4)).fault blkScion clsCorrected 0x0708 0 0 (BitVec.ofNat 64 n)

/-- SCN.CTL.JOIN on a Joining module: the checks, and its cores enter core reset, with the control store locked as Rootstock
locked it at its own start-up (R135, R192, R398). Any other write of it is ignored. -/
def State.joinStart (s : State) (p : JoinPeer) : State :=
  if s.scn.role != 3 || !s.scn.linkUp || !s.scn.authed || s.scn.joining then s
  else
    let n := s.joinCheck p
    if n ≠ 0 then s.joinRefused n
    else
      let held := fun (m : Nat) (_ : Thread) => { Thread.reset m with run := Run.held }
      let s1 := (s.cores.map Prod.fst).foldl (fun s c => s.modCore c fun x => { x with l1i := [], l1d := [] }) (s.mapThr held)
      (({ s1 with l2 := [] } : State).setRf .rstCsctl [] 1 1 1).modScn fun x => { x with
        joining := true, imgNext := 0, pend := [], comm := [], mmioCnt := [], bankP := [], bankC := [], undo := [], recvEp := 0, recvCount := 0, recvBytes := 0 }

/-- The ports' counts of MMIO stores performed start with the epochs; stores from before are left out of them. -/
def State.mmioFresh (s : State) : Map MmioPort :=
  (s.mmio.map fun p => (p.1, { p.2 with performed := 0, skip := p.2.tracked.length + p.2.held.length })).filter
    fun p => p.2 != MmioPort.reset p.1

/-- The same join at the source: Recovery Coherence Mode, and epochs start (R376, R398). -/
def State.joinServe (s : State) : State :=
  if s.scn.role != 0 || s.scn.joinSrc.isSome || !s.scn.linkUp || !s.scn.authed then s
  else
    ({ s with rcm := s.rcm + 1, mmio := s.mmioFresh, l2 := (s.l2.map fun p => (p.1, { p.2 with ps := false })).filter fun p => p.2 != L2Line.none p.1 } : State).modScn fun x => { x with
      joinSrc := some .writeback, running := true, frozen := [], logged := [], counts := [], closing := none, wantClose := false, pre := [], queue := [], ship := [], half := false, halfLen := 0, fullImage := false }

/-- A join: on the joiner (SCN.CTL.JOIN), or where it reaches the source. -/
def execJoin (source : Bool) (peer : JoinPeer) (s : State) : Host.Outcome State Fault Refusal :=
  .next (if source then s.joinServe else s.joinStart peer)

/-- The source's write-back of every M and O line ends, leaving them E and S; Recovery Coherence Mode
ends for it (R398). -/
def execJoinWritebackEnd (s : State) : Host.Outcome State Fault Refusal :=
  .next (
    if s.scn.joinSrc ≠ some .writeback then s
    else
      let dirty := (s.l2.filter fun p => p.2.st == .m || p.2.st == .o).map Prod.fst
      let s1 := dirty.foldl (fun s k => s.acceptWb (k % 2 ^ 40)) s
      let clean := fun (x : L2Line) => if x.st = .m then { x with st := L2State.e } else if x.st = .o then { x with st := L2State.s } else x
      ({ s1 with rcm := s1.rcm - 1, l2 := (s1.l2.map fun p => (p.1, clean p.2)).filter fun p => p.2 != L2Line.none p.1 } : State).modScn fun x => { x with joinSrc := some (.image 0) })

/-- Pages of DRAM. -/
def State.pages (s : State) : Nat := s.dram / 4096

/-- The next page but those of the private region goes out (R398). -/
def execImgSend (s : State) : Host.Outcome State Fault Refusal :=
  .next (match s.scn.joinSrc with
    | some (.image k) =>
      if s.pages ≤ k then s
      else
        let s1 := s.modScn fun x => { x with joinSrc := some (.image (k + 1)) }
        if s.inPriv (k * 4096) then s1 else (s1.modScn fun x => { x with queue := x.queue ++ [.img x.epoch k (s.homeRd (k * 4096) 4096)] }).scnPump
    | _ => s)

/-- Every register with a field that software writes: the configuration image (R398 step 6). -/
def cfgAddrs : List Nat :=
  (Reg.all.filter fun r => r.row.fields.any fun f => f.acc == .rw || f.acc == .rwl || f.acc == .w1s).flatMap fun r =>
    (indices r.row.dims).map fun ix => r.addr ix

/-- The source's switch epoch: the register and configuration images, and SWITCH (R398 step 6). DEDUCED: log 66. -/
def State.joinSwitch (s : State) : State :=
  let ep := s.scn.epoch
  let s1 := s.modScn fun x => { x with fullImage := true, joinSrc := some (.switching ep) }
  (cfgAddrs.foldl (fun s a => s.scnQueue (.cfgw ep a (Map.get regDefault s.regs a))) s1).epochCloseNow

/-- The image is sent: the source sends its switch epoch once B is below T; the joiner compares the
patch digest (R398 steps 5 and 6). -/
def execJoinImageComplete (s : State) : Host.Outcome State Fault Refusal :=
  .next (
    if s.scn.joining then
      let b := s.rd s.patch.base 205024
      if s.patch.granules = 0 ∨ sha384 (b.take (patchS b)) = s.patch.digest then s
      else (s.joinRefused 6).endJoin
    else match s.scn.joinSrc with
      | some (.image k) => if k < s.pages || s.stalled || s.issueAll.scn.closing.isSome then s else s.joinSwitch
      | _ => s)

/-- The link has left UP, or the partner failed: the join ends (R399). -/
def execJoinEnd (s : State) : Host.Outcome State Fault Refusal :=
  .next (if s.scn.linkUp then s else s.joinLost)

end Sys2Proof.Machine
end

