-- ==== Sys2Proof/Machine/Reset.lean ====
section
/-! DEFINITION. Resets, clock islands, start-up and power states (19 R487-R508; 09 R244-R246;
21 R552-R557). -/

namespace Sys2Proof.Machine

/-! ## What a module-level reset leaves (R494, R497, R503) -/

/-- RST.CAUSE for a module-level reset. -/
def State.cause (s : State) (kind src : Nat) : W64 := pack [(63, 60, kind), (55, 48, src), (47, 0, s.stc.sec)]

/-- Registers that a module reset keeps: RST.CAUSE takes its new value, RST.WDOG keeps its period, and
TRL.TERM its value in NVM (R342, R497). -/
def State.keptRegs (s : State) (kind src : Nat) : Map W64 :=
  let put := fun (m : Map W64) (r : Reg) (v : W64) => Map.set regDefault m (r.addr []) v
  put (put (put [] .rstCause (s.cause kind src)) .rstWdog (setFld (s.reg .rstWdog) 63 63 0)) .trlTerm (s.reg .trlTerm)

/-- Outputs in reset (R503); the inputs stand as they are. -/
def Pins.inReset (p : Pins) : Pins := { p with fenceOut := false, pairActive := false, ppsOut := 0 }

/-- Every thread in core reset. -/
def heldThreads : Map Thread := [(0, { Thread.reset 0 with run := .held })]

/-- Start-up from step 6 of R500. -/
def Power.starting (p : Power) (warm : Bool) : Power :=
  { Power.reset with
    aux := p.aux, main := p.main, heldReset := p.heldReset, boot := .rails, warmBoot := warm, startRcm := false, tj := p.tj,
    hot := p.hot }

/-- Islands in reset; the PLLs of a module cold reset lock again. -/
def islsReset (s : State) (relock : Bool) : Map Isl :=
  (List.range 112).foldl (fun m i => Map.set Isl.reset m i
    { Isl.reset i with valid := !relock && (s.isl i).valid, held := true }) (Map.set Isl.reset [] 112 (s.isl 112))

/-- The state of a module cold reset with a source (R494): every part of the MAIN domain at its reset
value, DRAM lost. DEDUCED: log 142. -/
def State.coldReset (s : State) (src : Nat) : State :=
  { State.reset with
    pending := s.pending, free := s.free, dram := s.dram, ways := s.ways, dpc := s.dpc, ranks := s.ranks, x8 := s.x8, spd := s.spd,
    regs := s.keptRegs 2 src, threads := heldThreads, rcm := 0, od := s.od, stc := s.stc, fltHist := s.fltHist,
    scn := { Scion.reset with key := toBytes 32 (s.odv 0x310002), serial := s.scn.serial }, pins := s.pins.inReset,
    gnt := s.gnt.afterReset, isls := islsReset s true, power := s.power.starting false,
    opt := s.opt, optIn := s.optIn, cold := { s.cold with pst := [], inband := [], chg := [], chgOvf := false } }

/-- Trellis as a module warm reset leaves it: the exchanges and registrations of the preserved context area,
with every set, queue and job context disabled. DEDUCED: log 58. -/
def Trl.warm (t : Trl) : Trl :=
  { t with
    sqs := t.sqs.map fun q => { q with enabled := false, ring := q.ring.voidAll.skip },
    cqs := t.cqs.map fun q => { q with enabled := false },
    sets := t.sets.map fun v => { v with enabled := false }, admin := [], resetting := [], ctxs := [] }

/-- Memory-controller registers that a warm reset keeps: what the kept training needs, and the marks (R257, R266, R494). -/
def State.mcRegs (s : State) (m : Map W64) : Map W64 :=
  (List.range 12).foldl (fun m n => [Reg.mcCfg, .mcDevmark, .mcTemp, .mcTrain].foldl
    (fun m r => Map.set regDefault m (r.addr [n]) (s.reg r [n])) m) m

/-- Deconfigured cores stay so until a module cold reset (R146). -/
def State.coreRegs (s : State) (m : Map W64) : Map W64 :=
  Map.set regDefault m (Reg.rstCoredeconf.addr []) (s.reg .rstCoredeconf)

/-- Memory controllers as a module warm reset leaves them: DRAM in self-refresh, the patrol where it stopped, and the
trained values with the re-trainings that wait (R260, R266, R269). -/
def State.mcWarm (s : State) : Map Mc :=
  (List.range 12).foldl (fun m n => Map.set Mc.reset m n { Mc.reset n with
    selfRefresh := true, patrol := (s.mc n).patrol, waiting := (s.mc n).waiting, trained := (s.mc n).trained }) []

/-- A line gained for core `c`, a dirty line in its way written back first (R207). -/
def State.ownNow (s : State) (c line : Nat) : State :=
  match s.acquire c 0 line true with
  | some s1 => s1
  | none => match s.inTheWay c line with
    | some v => let s1 := s.evict c v; (s1.acquire c 0 line true).getD s1
    | none => s

/-- What a combining buffer holds written, should its home not take it now. -/
def State.combWrite (s : State) (m : Nat) : State :=
  match s.combLeaveAll m with
  | some s1 => s1
  | none => (s.thr m).cb.foldl (fun s l =>
      (s.wrOffsets l.line l.bytes).combDone (.comb m) l.line) s

/-- A device store as a module warm reset or Doze drains it: an MMIO store goes to its port, and a register store is
performed. A doorbell store of a warm reset finds its queue reset; Doze waits for those. DEDUCED: log 74. -/
def State.drainDevice (s : State) (x : Store) : State :=
  if isMmio x.addr then s.mmioPost (Machine.mmioPort x.addr) ⟨x.addr, x.bytes, x.who, x.pid⟩
  else s.applyCfg (.cfgw 0 x.addr (BitVec.ofNat 64 (ofBytes x.bytes)))

/-- The retired stores and the combining buffer of thread `m` drain (R244). -/
def State.drainThread (s : State) (m : Nat) : State :=
  let s1 := s.hardenThr m
  let s2 := ((s1.thr m).sb.filter fun e => !e.device).foldl (fun s e => (s.ownNow (m / 2) e.line).drainEntry m e) s1
  let s3 := s2.combWrite m
  ((s3.thr m).sb.flatMap SbEntry.stores).foldl State.drainDevice (s3.modThr m fun t => { t with sb := [] })

/-- Every thread's stores drained. -/
def State.drainAll (s : State) : State := (List.range 112).foldl State.drainThread s

/-- The state of a module warm reset with a source (R494). -/
def State.warmReset (s : State) (src : Nat) : State :=
  let d := s.drainAll
  let c := s.coldReset src
  { c with
    mem := d.mem, poison := d.poison, regs := d.mcRegs (d.coreRegs (d.keptRegs 3 src)), isls := islsReset s false,
    power := s.power.starting true, trl := s.trl.warm, gnt := { c.gnt with warm := true, outLanes := s.gnt.outLanes },
    mcs := s.mcWarm }

/-- Is a module cold reset, or the start-up that follows it, in progress (R496)? -/
def State.inCold (s : State) : Bool := (s.power.boot == .rails || s.power.boot == .training) && !s.power.warmBoot

/-- A module cold reset asked for while the module is in Run or Doze. -/
def State.askCold (s : State) (src : Nat) : State :=
  if s.power.state = .run ∨ s.power.state = .doze then s.coldReset src else s

/-- A module warm reset; a wider one in progress absorbs it. DEDUCED: log 73. -/
def State.askWarm (s : State) (src : Nat) : State :=
  if s.inCold || (s.power.state != .run && s.power.state != .doze) then s else s.warmReset src

/-! ## Option bytes (R492, R493) -/

/-- The Option Loader runs: each listed doubleword reads with an error, corrected or (`true`)
uncorrectable. DEDUCED: log 139. -/
def State.loadOptions (s : State) (errs : List (Fin 64 × Bool)) : State :=
  errs.foldl (fun s e =>
    let d := e.1.val
    let s1 := if e.2 then
        { s with optIn := (List.range 8).foldl (fun m i => Map.set optDefault m (8 * d + i) 0) s.optIn }
      else s
    if e.2 ∧ d < 32 then
      let s2 := s1.fault blkReset clsFatal 0x0118 0 0
      { s2 with power := { s2.power with boot := .stopped } }
    else s1.fault blkReset clsCorrected 0x0117 0 0) { s with optIn := s.opt }

/-! ## Sleep (R504, R505) -/

/-- MAIN goes off: everything in its domain is lost. -/
def State.mainOff (s : State) (coldDue : Option Nat) : State :=
  let c := s.coldReset 0
  { c with
    regs := Map.set regDefault (s.keptRegs 2 0) Reg.rstCause.row.base (s.reg .rstCause),
    power := { c.power with state := .sleep, coldDue := coldDue, tj := [], hot := [] } }

/-- The MAIN regulators come up: step 5 of R500, with the module cold reset of a source. -/
def State.mainOn (s : State) (src : Nat) : State :=
  let c := s.coldReset src
  { c with pins := { c.pins with thermN := true } }

/-! ## AUX (R495, R500, R553) -/

/-- AUX-domain state after an AUX cold reset: NVM kept, volatile objects at their defaults. -/
def State.auxWipe (s : State) : State :=
  let c := s.coldReset 1
  let keep := s.cold
  { c with
    regs := Map.set regDefault (Map.set regDefault [] Reg.rstCause.row.base (pack [(63, 60, 1), (55, 48, 1)]))
      (Reg.trlTerm.addr []) (s.reg .trlTerm),
    stc := ⟨0, 0, 0⟩, pins := { c.pins with gpio := 0, thermN := true },
    od := s.od.filter fun p => match odRow p.1 with
      | some r => r.pers != .volatile
      | none => false,
    isls := Map.set Isl.reset c.isls 112 (Isl.reset 112),
    cold := { Cold.reset with
      head := keep.head, audit := keep.audit, anchor := keep.anchor, link := keep.link,
      zeroPending := keep.zeroPending, link0 := false, link1 := false, sent := keep.sent },
    power := { c.power with aux := false, state := .off, tj := [], hot := [] } }

/-- The Operator key, the Installer key and the pairing key zeroed (R536). -/
def State.zeroKeys (s : State) : State := ((s.setOdv 0x010000 0).setOdv 0x010001 0).setOdv 0x310002 0

/-- Is MAIN to be brought up: AUTOON, or a zeroisation that is pending and has to run (R492, R537)? DEDUCED: log 172. -/
def State.mainWanted (s : State) : Bool := bit (s.optD 0x118) 0 || s.cold.zeroPending

/-- AUX is up: steps 1 to 5 of R500; a zeroisation that was pending starts again (R537). DEDUCED: log 91. -/
def State.auxUp (s : State) (errs : List (Fin 64 × Bool)) : State :=
  let s1 := (if s.cold.zeroPending then s.zeroKeys else s).loadOptions errs
  let out := fld (s1.optD 0x110) 63 48
  let go := s1.mainWanted && s1.power.main && s1.power.boot != .stopped
  { s1 with
    pins := { s1.pins with gpio := fld (s1.optD 0x110) 47 32 &&& out },
    cold := { s1.cold with link0 := true, link1 := true },
    power := { s1.power with aux := true, state := if go then .run else .sleep } }

def execAuxColdReset (s : State) : Host.Outcome State Fault Refusal := .next s.auxWipe

/-- AUX passes 2.6 V. -/
def execAuxPowerOn (errs : List (Fin 64 × Bool)) (s : State) : Host.Outcome State Fault Refusal :=
  .next (if s.power.state != .off then s else s.auxUp errs)

/-! ## MAIN (R495, R500, R552) -/

/-- Coldframe reads every SPD hub: a right population starts the training of its channels; another one stops the start-up
with FATAL 0x0308 (R249, R265). The spec does not say in which controller's block. DESIGN CHOICE: log 163. -/
def State.startTraining (s : State) : State :=
  if s.popOk then s.channels.foldl (fun s n => s.setRf .mcTrain [n] 7 0 1) s.populate
  else
    let s1 := s.fault (blkMc 0) clsFatal 0x0308 0 0
    { s1 with power := { s1.power with boot := .stopped } }

/-- Every rail is in regulation: islands with clock-valid are released, the Option Loader runs again, and
training starts, or the DRAM leaves self-refresh (steps 6 to 9 of R500; R205, R266). -/
def execMainPowerGood (errs : List (Fin 64 × Bool)) (s : State) : Host.Outcome State Fault Refusal :=
  .next (
    let p := s.power
    if p.state != .run || p.boot != .rails || p.heldReset || !p.main || !p.aux then s
    else
      let s0 := { s with rcm := s.rcm + 1, power := { p with boot := .training, startRcm := true } }
      let s1 := (List.range 112).foldl (fun (s : State) i => s.modIsl i fun x => { x with held := x.held && !x.valid }) s0
      let used := (List.range 12).filter fun n => s.ways = 12 ∨ n % 2 = 0
      let s2 := s1.loadOptions errs
      if s2.power.boot = .stopped then s2 else if p.warmBoot then used.foldl State.refreshExit s2 else s2.startTraining)

/-- MAIN below 38 V, or a rail out of regulation: Sleep at once, and a module cold reset when MAIN returns
(R246, R495, R505). -/
def execMainPowerGoodLoss (s : State) : Host.Outcome State Fault Refusal :=
  .next (
    if s.power.state = .run ∨ s.power.state = .doze then
      let s1 := s.mainOff (some 2)
      { s1 with power := { s1.power with main := false } }
    else { s with power := { s.power with main := false } })

/-- MAIN rises above 39 V: a pending module cold reset is applied, and Sleep is left where AUTOON = 1 or a
zeroisation is pending. -/
def execMainReturn (s : State) : Host.Outcome State Fault Refusal :=
  .next (
    let s1 := { s with power := { s.power with main := true } }
    if s.power.state != .sleep || s.power.main then s1
    else
      let src := s.power.coldDue.getD 0x0A
      if s1.mainWanted then s1.mainOn src
      else match s.power.coldDue with
        | some c =>
          let s2 := s1.setReg .rstCause [] (s1.cause 2 c)
          { s2 with power := { s2.power with coldDue := none } }
        | none => s1)

/-! ## Module resets (R494, R495) -/

/-- RESET_N low for 1 µs. -/
def execResetN (s : State) : Host.Outcome State Fault Refusal :=
  .next (
    let s1 := s.askCold 3
    { s1 with pins := { s1.pins with resetN := false }, power := { s1.power with heldReset := true } })

def execResetNRelease (s : State) : Host.Outcome State Fault Refusal :=
  .next { s with pins := { s.pins with resetN := true }, power := { s.power with heldReset := false } }

/-- WARM_N as filtered: low for 1 µs asks for a warm reset (R494). -/
def execWarmN (low : Bool) (s : State) : Host.Outcome State Fault Refusal :=
  let s1 : State := { s with pins := { s.pins with warmN := !low } }
  .next (if low && s.pins.warmN then s1.askWarm 4 else s1)

/-- A module cold reset from a source of R495. -/
def execModuleColdReset (src : BitVec 8) (s : State) : Host.Outcome State Fault Refusal := .next (s.askCold src.toNat)

def execModuleWarmReset (src : BitVec 8) (s : State) : Host.Outcome State Fault Refusal := .next (s.askWarm src.toNat)

/-- HOLD has passed since the FATAL reaction (R471). -/
def execFatalHoldExpiry (s : State) : Host.Outcome State Fault Refusal :=
  .next (
    if !s.power.holdRuns then s
    else
      let s1 := { s with power := { s.power with holdRuns := false } }
      if s.rf .fltFcfg [] 16 16 = 1 then s1.askWarm 8 else s1)

/-- Start-up training of channel `n` ends (R265, R270). -/
def execChannelTrainingComplete (n : McId) (ok narrow : Bool) (s : State) : Host.Outcome State Fault Refusal :=
  .next (
    if s.power.boot != .training || s.rf .mcTrain [n.val] 7 0 != 1 then s
    else
      let s1 := s.trainChannel n.val ok narrow
      if ok then s1 else { s1 with power := { s1.power with boot := .stopped } })

/-! ## The service set and the boot thread (R144, R145, R500, R501) -/

def coreMask (cs : List Nat) : Nat := (cs.map fun c => 2 ^ c).sum

/-- A failing service core is deconfigured and a spare takes its place (R145). -/
def State.replaceCore (s : State) (c : Nat) : State :=
  let s1 := (s.setReg .rstCoresvc [] (setBit (s.reg .rstCoresvc) c false)).setReg .rstCoredeconf []
    (setBit (s.reg .rstCoredeconf) c true)
  match s1.pickSpare c with
  | none => s1
  | some k => (s1.setReg .rstCorespare [] (setBit (s1.reg .rstCorespare) k false)).setReg .rstCoresvc []
      (setBit (s1.reg .rstCoresvc) k true)

/-- Steps 9 and 10 of R500 for the cores; `failing` did not pass their self-test. A core that is deconfigured already
stays so, and is replaced like one that fails (R144-R146). -/
def State.serviceSet (s : State) (failing : List Nat) : State :=
  let mask := s.optD 8
  let set := (List.range 56).filter (bit mask)
  let s1 := if 52 < set.length then s.fault blkReset clsCorrected 0x0115 0 0 else s
  let bad := (List.range 56).filter fun c => failing.contains c || bit (s.reg .rstCoredeconf) c
  let svc := set.take 52
  let spare := (List.range 56).filter fun c => !svc.contains c && !bad.contains c
  let out := bad.filter fun c => !svc.contains c
  let s2 := ((s1.setReg .rstCoresvc [] (BitVec.ofNat 64 (coreMask svc))).setReg .rstCorespare []
    (BitVec.ofNat 64 (coreMask spare))).setReg .rstCoredeconf [] (BitVec.ofNat 64 (coreMask out))
  let s3 := failing.foldl (fun s _c => s.fault blkReset clsCorrected 0x0119 0 0) s2
  (svc.filter bad.contains).foldl State.replaceCore s3

/-- A core leaves core reset with the active patch (R136), and no retry is under way in it. -/
def State.coreStart (s : State) (c : Nat) : State :=
  if (s.thr (2 * c)).run == .held && (s.thr (2 * c + 1)).run == .held then (s.copyPatch c).modCore c fun x => { x with attempts := 0 }
  else s

/-- The boot thread: thread 0 of the lowest service core, Secure, at the image's entry point, with g2 at the
start record (R501). -/
def State.bootThread (s : State) (entry start : W64) : State :=
  match (List.range 56).find? (bit (s.reg .rstCoresvc)) with
  | none => s
  | some c =>
    let m := 2 * c
    let a := { (Arch.reset m).setG 2 start with pc := entry }
    ((s.coreStart c).setThr m { Thread.reset m with cur := a, hard := a, snap := a, run := .running }).setRf .fltRoute [] 6 0 m

/-- A partition's object in force (R517). -/
def partObj (p item : Nat) : Nat := (0x60 + p) * 0x10000 + item
def State.odForce (s : State) (p item : Nat) : Nat := s.odv (2 ^ 24 + partObj p item)

/-- Objects of effect P apply at a Start or a Reset (R517). -/
def State.applyP (s : State) (p : Nat) : State :=
  (List.range 0x0C).foldl (fun s i =>
    match odRow (partObj p i) with
    | some r => if r.eff = .p then s.setOdv (2 ^ 24 + partObj p i) (s.odv (partObj p i)) else s
    | none => s) s

/-- Rootstock's register copies of a partition's objects of effect P in force (R517); the pools and the ledger are written
only while the partition's queues are disabled (R287, R355). -/
def State.copyP (s : State) (p : Nat) : State :=
  let put := fun (s : State) (r : Reg) (v : W64) => s.rootReg r [p] (fieldsWrite r.row.fields false v (s.reg r [p]))
  let off := s.odForce p 0xB / 2 ^ 16 % 2 ^ 16
  let cnt := s.odForce p 0xB % 2 ^ 15
  let s1 :=
    if s.rf .trlPcfg [p] 63 63 = 1 then s
    else (put (put s .trlPoola (BitVec.ofNat 64 (s.odForce p 9 / 2 ^ 64))) .trlPoolb (BitVec.ofNat 64 (s.odForce p 9))).rootReg
      .trlLbase [p] (setFld (s.reg .trlLbase [p]) 4 0 (s.odForce p 0xA))
  let v := setFld (s1.reg .trlPcfg [p]) 62 62 (s.odForce p 8)
  State.pinSync (s1.rootReg .trlPcfg [p] (if 16384 < cnt ∨ 65536 < off + cnt then v else setFld (setFld v 47 32 off) 14 0 cnt))

/-- A partition's start: its objects of effect P apply, and its State is starting (R517). -/
def State.partStart (s : State) (p : Nat) : State :=
  let s1 := s.applyP p
  { s1 with
    cold := { s1.cold with pst := Map.set zeroNat s1.cold.pst p 1 },
    power := { s1.power with again := s1.power.again.filter (· != p) } }

/-- Registers with the object that Rootstock copies into each of their fields at start-up, effects N and S, but for the
weights of TRL.PARB (R365, R511, R513, R516). -/
def bootFields : List (Reg × List Nat × Nat × Nat × Nat) :=
  [(.fltFcfg, [], 16, 16, 0x080000), (.fltFcfg, [], 9, 0, 0x080001), (.rstRtycfg, [], 15, 0, 0x110001),
    (.trlRdwin, [], 19, 0, 0x200000), (.trlAckto, [], 16, 0, 0x200001), (.trlAbto, [], 9, 0, 0x200002),
    (.scnCtl, [], 0, 0, 0x310000), (.scnEpcfg, [], 18, 0, 0x310003), (.scnEpcfg, [], 42, 32, 0x310004),
    (.scnJcfg, [], 5, 0, 0x310005)] ++
  ((List.range 12).flatMap fun n => [(.mcScrub, [n], 7, 0, 0x100001), (.trlPlink, [n], 47, 46, 0x210000 + 0x10 * n),
    (.trlPlink, [n], 45, 45, 0x210001 + 0x10 * n), (.trlPlink, [n], 43, 42, 0x210002 + 0x10 * n),
    (.trlMmioto, [n], 16, 0, 0x210003 + 0x10 * n)]) ++
  (List.range 48).map fun i => (.potPfdis, [], i + 1, i + 1, partObj (i + 1) 7)

/-- What Rootstock does with the dictionary's objects at steps 14 and 15 of R500: its register copies, and the
start of the partitions with Auto Start (R513, R517). DEDUCED: log 138. -/
def State.bootCopies (s : State) : State :=
  let s0 := bootFields.foldl (fun s f => s.setRf f.1 f.2.1 f.2.2.1 f.2.2.2.1 (s.odv f.2.2.2.2)) s
  let s1 := (List.range 12).foldl (fun s n => s.setReg .trlParb [n]
    (fieldsWrite Reg.trlParb.row.fields false (BitVec.ofNat 64 (s.odv (0x210004 + 0x10 * n))) (s.reg .trlParb [n]))) s0
  let s2 := (List.range 48).foldl (fun s i =>
    let v := BitVec.ofNat 64 (s.odv (0x400001 + i))
    if s.pslotBad (i + 1) (fld v 11 0) (fld v 28 16) then s
    else s.setReg .gntPslot [i + 1] (pack [(44, 32, fld v 28 16), (11, 0, fld v 11 0)])) s1
  (List.range 48).foldl (fun s i => if s.odv (partObj (i + 1) 6) = 1 then s.partStart (i + 1) else s) s2

/-- Rootstock's image is read and verified, and the boot thread released (R501, steps 9 to 12 of R500). `a`
and `b`: Garnet's verdicts on the images at IMGA and IMGB; `image` and `entry` are those of the one loaded,
`record` the start record below it, at `start`. Rootstock then makes the copies of `bootCopies`. No core is tested at a warm
reset (R500). DEDUCED: log 71. -/
def execRootstockImageVerified (failing : List CoreId) (a b : Bool) (image record : List Byte) (entry start : W64) (s : State) :
    Host.Outcome State Fault Refusal :=
  .next (
    let trained := (List.range 12).all fun n => (s.ways == 6 && n % 2 == 1) || s.rf .mcTrain [n] 7 0 == 2 || s.rf .mcTrain [n] 7 0 == 3
    let fits := decide (image.length ≤ 0x800000) && decide (start.toNat + record.length ≤ 0x100000)
    if s.power.state != .run || s.power.boot != .training || !trained || !s.islRuns 106 || s.cold.zeroPending || !fits then s
    else
      let s1 := s.serviceSet (if s.power.warmBoot then [] else failing.map Fin.val)
      let bOk := b && fld (s.optD 0x108) 31 16 != 0
      if !a && !bOk then
        let s2 := s1.fault blkReset clsFatal 0x011B 0 0
        { s2 with power := { s2.power with boot := .stopped } }
      else
        let s2 := if a then s1 else s1.fault blkReset clsCorrected 0x011A 0 0
        let s3 := (((s2.wr 0x100000 image).wr start.toNat record).bootThread entry start).bootCopies
        let s4 := if s3.pairOn then s3 else s3.unpaired
        { s4 with power := { s4.power with boot := .done } })

/-! ## Partition resets (R244, R245, R494, R496, R502) -/

/-- The sparing of a core with threads of a reset partition: they do not resume at its end (R153). -/
def State.dropThreads (s : State) (p : Nat) (x : Sparing) : Sparing :=
  { x with
    drop0 := x.drop0 || (s.thr (2 * x.core)).cur.pid == p, drop1 := x.drop1 || (s.thr (2 * x.core + 1)).cur.pid == p }

/-- A partition reset begins; one in progress absorbs it. `hold`: the threads are held afterwards. -/
def State.partReset (s : State) (p : Nat) (hold : Bool) : State :=
  if p = 0 ∨ 48 < p ∨ s.presets.any (fun x => x.pid == p) then s
  else
    let busy := fun (m : Nat) => s.sparings.any fun x => x.core == m / 2 || x.spare == some (m / 2)
    let ms := (List.range 112).filter fun m => (s.thr m).cur.pid == p && !busy m
    let s1 := ms.foldl (fun s m => (s.modThr m (Thread.partReset m)).retryEnds m) s
    let s2 := { s1 with sparings := s1.sparings.map (s1.dropThreads p) }
    let s3 := (List.range 15).foldl (fun s c => s.stopCtx 0 p c) s2
    let s4 := ((List.range 8).foldl (fun s c => s.stopCtx 1 p c) s3).pmcClear p
    let s5 := (if hold then s4 else s4.applyP p)
    { s5 with
      presets := s5.presets ++ [⟨p, ms, hold⟩],
      cold := { s5.cold with pst := Map.set zeroNat s5.cold.pst p (if hold then 4 else 3) },
      power := { s5.power with again := p :: s5.power.again.filter (· != p) } }

/-- A write of RST.CMD, queued for the mirror (R382, R497). -/
def State.rstCmd (s : State) (kind pid core : Nat) (key : BitVec 16) : State :=
  s.cfgw .rstCmd [] (pack [(63, 60, kind), (53, 48, pid), (37, 32, core), (15, 0, key.toNat)])

/-- RST.CMD with its key (R497). -/
def execRstCmdModuleCold (key : BitVec 16) (s : State) : Host.Outcome State Fault Refusal :=
  let s := s.rstCmd 2 0 0 key
  .next (if key = 0x4B5A then s.askCold 6 else s)

def execRstCmdModuleWarm (key : BitVec 16) (s : State) : Host.Outcome State Fault Refusal :=
  let s := s.rstCmd 3 0 0 key
  .next (if key = 0x4B5A then s.askWarm 6 else s)

def execRstCmdPartition (p : BitVec 6) (key : BitVec 16) (s : State) : Host.Outcome State Fault Refusal :=
  let s := s.rstCmd 4 p.toNat 0 key
  .next (if key = 0x4B5A then s.partReset p.toNat false else s)

/-- The checkpoint arrays and the L2 of a spare or deconfigured core cleared (R494). -/
def State.coreReset (s : State) (c : Nat) : State :=
  if 55 < c ∨ !(bit (s.reg .rstCorespare) c || bit (s.reg .rstCoredeconf) c) then s
  else
    let held := fun (m : Nat) => { Thread.reset m with run := Run.held }
    let s1 := ((s.setThr (2 * c) (held (2 * c))).setThr (2 * c + 1) (held (2 * c + 1))).setCore c (Core.reset c)
    { s1 with l2 := s1.l2.filter fun p => p.1 / 2 ^ 40 != c }

def execRstCmdCore (c : BitVec 6) (key : BitVec 16) (s : State) : Host.Outcome State Fault Refusal :=
  let s := s.rstCmd 5 0 c.toNat key
  .next (if key = 0x4B5A then s.coreReset c.toNat else s)

/-- The lowest granule that a partition owns (R502). -/
def State.lowestOwned (s : State) (p : Nat) : Nat :=
  let base := s.rf .potBase [] 47 16 * 0x10000
  let gs := (s.mem.map fun x => (x.1 - base) / 8).filter fun g =>
    s.isDram (g * 0x10000) && fld (s.potEntry (g * 0x10000)) 56 54 == potOwned && fld (s.potEntry (g * 0x10000)) 63 58 == p
  (gs.foldl min (s.dram / 0x10000)) * 0x10000

/-- Do the partition's exchanges and job contexts stand still (R502)? -/
def State.partQuiet (s : State) (p : Nat) : Bool :=
  !(s.presets.any fun x => x.pid == p) && s.rf .trlPstat [p] 63 63 == 1 &&
  ((List.range 15).all fun c => (s.ctx 0 p c).state == 0) && (List.range 8).all fun c => (s.ctx 1 p c).state == 0

/-- The architected state that a partition's thread starts with (R502). -/
def State.startArch (s : State) (m p lcore : Nat) (c0r : Bool) : Arch :=
  let a := Arch.reset m
  let lvl := if s.odForce p 5 = 1 then 2 else 1
  let a1 := (a.setSr 4 (pack [(32, 32, c0r.toNat), (31, 26, p), (21, 16, lcore), (13, 8, m / 2), (0, 0, m % 2)])).setSr 1
    (setFld (a.srv 1) 15 14 lvl)
  let put := fun (a : Arch) (x : Nat × Nat) => a.setG x.1 (BitVec.ofNat 64 x.2)
  let regs := [(2, p), (3, s.rf .trlAq [p] 47 14 * 2 ^ 14), (4, s.odForce p 2), (5, (s.power.again.contains p).toNat),
    (6, 2 * lcore + m % 2), (7, s.lowestOwned p)]
  { (regs.foldl put a1) with pc := BitVec.ofNat 64 (s.odForce p 4), lvls := [(0, lvl)] }

/-- Start-up's use of Recovery Coherence Mode ends, at the latest when the first partition starts (R500). DEDUCED: log 70. -/
def State.endStartRcm (s : State) : State :=
  if s.power.startRcm then { s with rcm := s.rcm - 1, power := { s.power with startRcm := false } } else s

/-- Rootstock starts thread `t` for a partition, as logical core `lcore` (R502), on a module whose role executes partitions
(R20, R366); with the first thread it makes the partition's register copies (R517). It has locked patch loads before it
releases a service core (R135). -/
def execPartitionThreadStart (t : ThreadId) (p : Pid) (lcore : BitVec 6) (c0r : Bool) (s : State) :
    Host.Outcome State Fault Refusal :=
  .next (
    let m := t.val
    let st := Map.get zeroNat s.cold.pst p.val
    if p.val = 0 || (s.thr m).run != .held || !bit (s.reg .rstCoresvc) (m / 2) || s.power.boot != .done ||
        s.power.state != .run || !s.partQuiet p.val || st == 0 || st == 4 || decide (1 < s.scn.role) ||
        s.sparings.any (fun x => x.core == m / 2 || x.spare == some (m / 2)) then s
    else
      let a := s.startArch m p.val lcore.toNat c0r
      let old := s.thr m
      let s1 := (((s.rootReg .rstCsctl [] (setBit (s.reg .rstCsctl) 1 true)).coreStart (m / 2)).endStartRcm).retryEnds m
      let s2 := s1.setThr m { Thread.reset m with
        cur := a, hard := a, run := .running, seq := old.seq, hseq := old.hseq, barGen := old.barGen, bars := old.bars, snap := old.snap,
        snapRun := old.snapRun }
      let s3 := [Reg.potTs1, .potTs2, .potTh].foldl (fun s r => s.rootReg r [m] (setBit (s.reg r [m]) 0 false)) s2
      let s4 := if st = 2 then s3 else s3.copyP p.val
      { s4 with cold := { s4.cold with pst := Map.set zeroNat s4.cold.pst p.val 2 } })

/-! ## The watchdog (R497) -/

def execWatchdogEnable (s : State) : Host.Outcome State Fault Refusal :=
  let s := s.cfgw .rstWdog [] (setBit (s.reg .rstWdog) 63 true)
  .next (
    if s.rf .rstWdog [] 63 63 = 1 then s
    else
      let s1 := s.setRf .rstWdog [] 63 63 1
      { s1 with power := { s1.power with wdog := 0 } })

def execHbeat (s : State) : Host.Outcome State Fault Refusal :=
  let s1 := if s.scn.running then let r := s.draw; r.2.cfgw .rstHbeat [] r.1 else s
  .next { s1 with power := { s1.power with wdog := 0 } }

/-- The period has passed, counted in Coldframe cycles. -/
def execWatchdogExpiry (s : State) : Host.Outcome State Fault Refusal :=
  .next (
    if s.rf .rstWdog [] 63 63 = 1 ∧ s.power.state = .run ∧ s.rf .rstWdog [] 31 0 * 200000 ≤ s.power.wdog then s.askWarm 7
    else s)

/-! ## Clock islands (R488-R491) -/

/-- Partitions with a job or an inline exchange in an engine. -/
def inlineIn (e : Nat) (x : Xch) : Bool :=
  (x.state == 1 && x.frame.isNone && (x.xf / (if e = 0 then 8 else 4)) % 2 == 1) ||
  (x.cmpl.isSome && (x.xf / (if e = 0 then 1 else 2)) % 2 == 1)

/-- An engine lost (R491): jobs end with 0x21 or 0x31, inline exchanges FAILED 0x5, and each PID with
work gets the record. -/
def State.engineLost (s : State) (e : Nat) : State :=
  let st := if e = 0 then 0x21 else 0x31
  let jobs := (s.trl.ctxs.filter fun x => x.1 / 1024 == e && x.2.job.isSome).map fun x => (x.1 % 1024 / 16, x.1 % 16)
  let xs := s.trl.xchs.filter (inlineIn e)
  let s1 := jobs.foldl (fun s k => match (s.ctx e k.1 k.2).job with
    | some j =>
      if e = 0 then s.sieveEnd k.1 k.2 { j with busy := [], ready := [] } st j.next else s.gntFail k.1 k.2 j st
    | none => s) s
  let s2 := xs.foldl (fun s x => (s.finishX x 9 5 st ((x.cmpl.map Prod.snd).getD 0)).afterEnd x.pid) (if e = 1 then s1.modGnt fun g => { g with units := [] } else s1)
  let ps := ((jobs.map Prod.fst) ++ xs.map Xch.pid).eraseDups
  (if ps.isEmpty then [0] else ps).foldl (fun s p => s.fault blkClocks clsContained 0x0C02 p 0) s2

/-- Every Gatherer context stops. -/
def State.gathererStop (s : State) : State := (List.range 16).foldl (fun s g => s.setRf .pmcGctl [g] 63 63 0) s

/-- A port's link lost with its island (R299). -/
def State.portLost (s : State) (port : Nat) : State :=
  let s1 := (((s.setRf .trlPortst [port] 63 63 0).setRf .trlPlink [port] 63 60 0).setRf .trlPlink [port] 59 56 0).setRf
    .trlPlink [port] 40 40 0
  (s1.mmioLose port).failPort true port

/-- The reaction to a drop of a running island (R491): the threads of a core stop at their last hardened checkpoints, which
its sparing reads out or loses (R148, R156). -/
def State.islandLost (s : State) (i : Nat) : State :=
  if i < 56 then
    if bit (s.reg .rstCoresvc) i then
      ((s.modThr (2 * i) Thread.rewind).modThr (2 * i + 1) Thread.rewind).modCore i fun x => x.dueFor 0x0C01 s.stcNs
    else s
  else if 92 ≤ i ∧ i ≤ 103 then (s.portLost (i - 92)).fault blkClocks clsContained 0x0C02 0 0
  else if i = 105 ∨ i = 106 then s.engineLost (i - 105)
  else if i = 110 then s.gathererStop.fault blkClocks clsContained 0x0C02 0 0
  else if i = 107 ∧ s.rf .scnCtl [] 0 0 = 0 then s.fault blkClocks clsContained 0x0C02 0 0
  else if i = 112 then
    ({ s with cold := { s.cold with ptp := s.cold.ptp.holdover } } : State).fault blkClocks clsCorrected 0x0C04 0 0
  else s.fault blkClocks clsFatal 0x0C03 0 0

/-- Clock-valid drops (R488, R490, R491). -/
def State.clockDrop (s : State) (i : Nat) : State :=
  let x := s.isl i
  if !x.valid then s
  else
    let s1 := s.modIsl i fun y => { y with valid := false }
    if x.held || x.gate != 0 then s1
    else
      let s2 := (s1.incRf .clkLoss [] 31 0).setRf .clkLoss [] 38 32 i
      (if i = 112 then s2 else s2.modIsl i fun y => { y with held := true }).islandLost i

def execClockValidDrop (i : Island) (s : State) : Host.Outcome State Fault Refusal := .next (s.clockDrop i.val)

/-- Islands of a reference (R487). -/
def refIslands : RefClk → List Nat
  | .sys => List.range 92 ++ (List.range 8).map (104 + ·)
  | .port p => [92 + p.val]
  | .aux => [112]

def execRefclkLoss (ref : RefClk) (s : State) : Host.Outcome State Fault Refusal :=
  .next ((refIslands ref).foldl State.clockDrop s)

/-- Clock-valid rises; during start-up the island is released then (R488, R500). -/
def execClockValidRise (i : Island) (s : State) : Host.Outcome State Fault Refusal :=
  .next (
    if i.val < 112 ∧ s.power.state ≠ .run ∧ s.power.state ≠ .doze then s
    else s.modIsl i.val fun x => { x with valid := true, held := x.held && !(s.power.boot == .training && i.val < 112) })

/-! ## Block resets (R498, R499) -/

/-- Does an island accept CMD 0b01 and 0b10? -/
def State.blockMay (s : State) (i : Nat) : Bool :=
  ((decide (92 ≤ i) && decide (i ≤ 103)) || i == 105 || i == 106 || i == 110) && !s.leased i

/-- The island's blocks are asked to end their work, as for a disable. -/
def State.blockDisable (s : State) (i : Nat) : State :=
  if i = 105 ∨ i = 106 then
    let e := i - 105
    let ks := (s.trl.ctxs.filter fun x => x.1 / 1024 == e).map Prod.fst
    ks.foldl (fun s k => (s.setRf (bindReg e) [k % 1024 / 16, k % 16] 63 63 0).stopCtx e (k % 1024 / 16) (k % 16)) s
  else if i = 110 then s.gathererStop
  else s.portLost (i - 92)

/-- Sieve loses the blocks of an inline exchange that its lanes hold; they are taken again. DEDUCED: log 171. -/
def Xch.lanesLost (x : Xch) : Xch := { x with inLanes := [], blocksTaken := x.blocksTaken - x.inLanes.length }

/-- Registers of an island's slot back at their reset values, and the work that it holds lost. -/
def State.blockWipe (s : State) (i : Nat) : State :=
  let clear := fun (s : State) (r : Reg) (ix : List Nat) => s.setReg r ix (regDefault (r.addr ix))
  if i = 105 then
    let s1 := { s with regs := s.regs.filter fun p => !(decide (0xF01000000000 ≤ p.1) && decide (p.1 < 0xF02000000000)) }
    clear { s1 with trl := { s1.trl with
      ctxs := s1.trl.ctxs.filter fun x => decide (1024 ≤ x.1), xchs := s1.trl.xchs.map Xch.lanesLost } } .sveStat []
  else if i = 106 then
    let s1 := { s with regs := s.regs.filter fun p => !((decide (0xF03000000000 ≤ p.1) && decide (p.1 < 0xF04000000000)) ||
      (decide (0xFF0016000000 ≤ p.1) && decide (p.1 < 0xFF0017000000))) }
    { s1 with
      trl := { s1.trl with ctxs := s1.trl.ctxs.filter fun x => decide (x.1 < 1024) }, gnt := { s1.gnt.afterReset with outLanes := s1.gnt.outLanes } }
  else if i = 110 then
    let s1 := (List.range 16).foldl (fun s g => [Reg.pmcGctl, .pmcGbuf, .pmcGmask0, .pmcGmask1, .pmcGstat].foldl
      (fun s r => clear s r [g]) s) s
    { s1 with gpos := [] }
  else
    let s1 := [Reg.trlPortst, .trlPlink, .trlParb, .trlPc0, .trlMmioto].foldl (fun s r => clear s r [i - 92]) s
    { s1 with
      ports := Map.set Port.empty s1.ports (i - 92) (Port.empty 0), mmio := Map.set MmioPort.reset s1.mmio (i - 92) (MmioPort.reset 0) }

/-- RST.BLKCTL with ISLAND and CMD 0b01 or 0b10: step 1 of R499. -/
def State.blockCmd (s : State) (i : Nat) (release : Bool) : State :=
  let s0 := if i ≤ 112 then s.setRf .rstBlkctl [] 54 48 i else s
  if !s.blockMay i then s0.modIsl i fun x => { x with status := 4 }
  else
    (s0.modIsl i fun x => { x with gate := 0, status := 1, forced := false, release := release }).blockDisable i

/-- RST.BLKCTL with an island and a command, queued for the mirror (R382, R497). -/
def State.blkWrite (s : State) (i cmd : Nat) : State := s.cfgw .rstBlkctl [] (pack [(54, 48, i), (41, 40, cmd)])

def execBlockResetAndRelease (i : Island) (s : State) : Host.Outcome State Fault Refusal :=
  .next ((s.blkWrite i.val 1).blockCmd i.val true)

def execBlockResetAndHold (i : Island) (s : State) : Host.Outcome State Fault Refusal :=
  .next ((s.blkWrite i.val 2).blockCmd i.val false)

/-- A release, refused without clock-valid. -/
def State.blockRelease (s : State) (i : Nat) : State :=
  s.modIsl i fun x => if !x.held then x else if x.valid then { x with held := false, status := 0 } else { x with status := 3 }

def execBlockRelease (i : Island) (s : State) : Host.Outcome State Fault Refusal :=
  .next (((s.blkWrite i.val 3).setRf .rstBlkctl [] 54 48 i.val).blockRelease i.val)

/-- Steps 2 to 4 of R499. -/
def State.blockReset (s : State) (i : Nat) (forced : Bool) : State :=
  let x := s.isl i
  if x.status ≠ 1 then s
  else
    let s1 := (s.modIsl i fun y => { y with held := true, status := 2, forced := forced }).blockWipe i
    if x.release then s1.blockRelease i else s1

/-- Does a lane of the engine still hold work? -/
def State.engineBusy (s : State) (i : Nat) : Bool :=
  if i = 105 then decide (0 < s.lanesBusy true + s.lanesBusy false) else i == 106 && (!s.gnt.units.isEmpty || s.ecdsaBusy)

/-- Does the island hold work that it ends before it is idle: a core its threads and buffers, an engine its lanes (R184)? -/
def State.islandBusy (s : State) (i : Nat) : Bool :=
  if i < 56 then
    let work := fun (t : Thread) => t.run == .running || !t.sb.isEmpty || !t.cb.isEmpty
    work (s.thr (2 * i)) || work (s.thr (2 * i + 1))
  else s.engineBusy i

/-- The island is idle and is gated whole (R184). -/
def execIslandIdle (s : State) : Host.Outcome State Fault Refusal :=
  .next (
    let i := s.rf .pwrGatereq [] 54 48
    if !s.power.gateWait || s.islandBusy i then s
    else
      let a := s.rf .pwrGatereq [] 39 38
      (s.modIsl i fun x => { x with gate := a }).gateDone 1)

/-- An island's idle acknowledgement, which an engine does not give while its lanes hold work. -/
def execBlockIdle (i : Island) (s : State) : Host.Outcome State Fault Refusal :=
  .next (if s.engineBusy i.val then s else s.blockReset i.val false)

def execBlockIdleTimeout (i : Island) (s : State) : Host.Outcome State Fault Refusal :=
  .next (
    if (s.isl i.val).status ≠ 1 then s
    else (s.blockReset i.val true).fault blkReset clsContained 0x0114 0 0)

/-! ## Power states (R504-R507, R557) -/

/-- Why a Doze or Sleep request is refused (R505). -/
def State.powerRefused (s : State) : Bool :=
  (decide (1 ≤ s.scn.role) && decide (s.scn.role ≤ 3)) || s.reg .pwrLease0 != 0 || s.reg .pwrLease1 != 0 || s.power.boot != .done

/-- Every M and O line written back; it leaves its L2. -/
def State.flushL2s (s : State) : State :=
  ((s.l2.filter fun p => p.2.st == .m || p.2.st == .o).map Prod.fst).foldl
    (fun s k => s.evict (k / 2 ^ 40) (k % 2 ^ 40)) s

/-- Entry to Doze: threads stop at hardened checkpoints, buffers drain, DRAM goes to self-refresh (R504). -/
def State.doze (s : State) : State :=
  let runs := (List.range 112).filterMap fun m => if (s.thr m).active then some (m, (s.thr m).run) else none
  let s1 := s.drainAll.flushL2s
  let s2 := s1.mapThr fun _ t => if t.active then { t with run := .held } else t
  let s3 := (List.range 12).foldl (fun s n => if s.rf .mcCfg [n] 0 0 = 1 then s.modMc n fun x => { x with selfRefresh := true } else s) s2
  { s3 with power := { s3.power with state := .doze, dozed := runs } }

/-- Does a store to a doorbell page or a module register wait in a buffer? -/
def State.devicesWait (s : State) : Bool :=
  s.threads.any fun p => p.2.sb.any fun e => e.device && e.stores.any fun x => !isMmio x.addr

/-- Every transaction under way finished and every write-back acknowledged. -/
def State.settleLines (s : State) : State :=
  let s1 := (s.txns.map fun t => t.req.line).foldl State.turn s
  (s1.wbs.map fun w => (w.core, w.line)).foldl (fun s w => s.wbAck w.1 w.2) s1

/-- A Doze request that is not refused: transactions under way finish; the entry waits for buffered stores to registers
and doorbell pages (R244). -/
def State.goDoze (s : State) : State :=
  if s.devicesWait then { s with power := { s.power with dozeWait := true } }
  else ({ s.settleLines with power := { s.settleLines.power with dozeWait := false } } : State).setRf .pwrStat [] 63 62 1 |>.doze

/-- PWR.CTL.REQ = 0b01; a Doze entry that waits is a transition in progress (R505). -/
def State.enterDoze (s : State) : State :=
  if s.power.state != .run then s
  else if s.powerRefused || s.power.dozeWait then s.setRf .pwrStat [] 63 62 2
  else s.goDoze

/-- A Doze entry that waited goes on. -/
def State.dozeIfDue (s : State) : State := if s.power.dozeWait && !s.devicesWait then s.goDoze else s

def execEnterDoze (s : State) : Host.Outcome State Fault Refusal := .next (s.cfgw .pwrCtl [] 1).enterDoze

/-- PWR.CTL.REQ = 0b10. -/
def State.enterSleep (s : State) : State :=
  if s.power.state != .run && s.power.state != .doze then s
  else if s.powerRefused || s.power.dozeWait then s.setRf .pwrStat [] 63 62 2
  else s.mainOff none

def execEnterSleep (s : State) : Host.Outcome State Fault Refusal := .next (s.cfgw .pwrCtl [] 2).enterSleep

/-- Leaving Doze: the threads resume as after a sparing, their reservations cleared (R151, R505), and each
controller runs its oscillator step (R266). -/
def State.undoze (s : State) : State :=
  let s1 := s.power.dozed.foldl (fun s x => s.modThr x.1 fun t =>
    { t with run := x.2, cur := { t.cur with rsv := none }, hard := { t.hard with rsv := none } }) s
  let s2 := (List.range 12).foldl (fun s n => if (s.mc n).selfRefresh then s.refreshExit n else s) s1
  { s2 with power := { s2.power with state := .run, dozed := [], wdog := 0 } }

/-- A wake source: 1 dictionary, 2 GPIO, 3 adapter, 4 timer, 5 STC alarm (R504, R505, R507). DEDUCED: log 75. -/
def State.wake (s : State) (src : Nat) : State :=
  if s.power.state = .doze ∧ 1 ≤ src ∧ src ≤ 4 then (s.undoze).setRf .pwrStat [] 59 56 src
  else if s.power.state = .sleep ∧ s.power.main ∧ (src = 1 ∨ src = 2 ∨ src = 5) then
    (s.mainOn 0x0A).setRf .pwrStat [] 59 56 src
  else s

/-- DEDUCED: log 144. -/
def execWake (src : BitVec 4) (s : State) : Host.Outcome State Fault Refusal := .next (s.wake src.toNat)

/-- The hottest sensor of a compute tile reads `celsius` (R506, R507). -/
def execIssueLimit (tile : Fin 4) (celsius : BitVec 7) (s : State) : Host.Outcome State Fault Refusal :=
  .next (
    if s.power.state != .run && s.power.state != .doze then s
    else
      let t := tile.val
      let tj := Map.set zeroNat s.power.tj t celsius.toNat
      let on := s.power.hot.contains t
      let hot := if 93 ≤ celsius.toNat then (if on then s.power.hot else s.power.hot ++ [t])
        else if celsius.toNat < 90 then s.power.hot.filter (· != t) else s.power.hot
      let s1 := { s with power := { s.power with tj := tj, hot := hot } }
      let s2 := (s1.setRf .pwrStat [] 15 8 ((tj.map Prod.snd).foldl max 0)).setRf .pwrStat [] 16 16 (!hot.isEmpty).toNat
      if 93 ≤ celsius.toNat && !on then s2.fault blkPower clsCorrected 0x0B01 0 0 else s2)

/-- 100 °C: THERM_N low, FATAL 0x0B02, then Sleep (R506, R557). -/
def execThermalTrip (s : State) : Host.Outcome State Fault Refusal :=
  .next (
    if s.power.state != .run && s.power.state != .doze then s
    else
      let s1 := (s.fault blkPower clsFatal 0x0B02 0 0).mainOff none
      { s1 with pins := { s1.pins with thermN := false } })

/-- 105 °C: Coldframe hardware turns the MAIN regulators off, a MAIN power-good loss (R557). -/
def execHardwareBackstop (s : State) : Host.Outcome State Fault Refusal :=
  .next (
    if s.power.state != .run && s.power.state != .doze then s
    else
      let s1 := s.mainOff (some 2)
      { s1 with pins := { s1.pins with thermN := false } })

end Sys2Proof.Machine
end

