-- ==== Sys2Proof/Machine/RegView.lean ====
section
/-! DEFINITION. What a read of a module register returns (00 R10 and the register maps): the stored value, or
the state that the register shows. -/

namespace Sys2Proof.Machine

def State.maskOf (f : Nat → Bool) (n : Nat) : W64 :=
  BitVec.ofNat 64 ((List.range n).map fun i => if f i then 2 ^ i else 0).sum

/-- SCN.STAT.LINK (R370, R403). -/
def Scion.linkState (x : Scion) : Nat :=
  if x.grpA && x.grpB then (if x.resending then 4 else 2) else if x.grpA || x.grpB then 3
  else if x.trainA || x.trainB then 1 else 0

def State.scnStatRead (s : State) : W64 :=
  let x := s.scn
  pack [(63, 61, x.role), (60, 58, x.linkState), (57, 57, s.pins.peerActive.toNat), (56, 56, s.pins.fenceIn.toNat),
    (55, 55, s.pins.fenceOut.toNat), (54, 54, s.pins.pairId.toNat), (19, 16, min x.hbMiss 15), (15, 0, min x.resends 0xFFFF)]

/-- CFM.CHG (R513, R546). -/
def State.chgRead (s : State) : W64 :=
  match s.cold.chg with
  | [] => pack [(62, 62, s.cold.chgOvf.toNat)]
  | k :: ks => pack [(63, 63, 1), (62, 62, s.cold.chgOvf.toNat), (47, 24, k), (15, 0, ks.length)]

/-- State of a partition, as its State object shows it (R517). -/
def State.partState (s : State) (p : Nat) : Nat :=
  let v := Map.get zeroNat s.cold.pst p
  if v = 4 then (if s.partQuiet p then 0 else 3) else v

/-- A register as a read shows it. -/
def State.regView (s : State) (r : Reg) (ix : List Nat) : W64 :=
  let v := s.reg r ix
  let i := ix.headD 0
  let j := (ix.drop 1).headD 0
  match r with
  | .rstBlkctl =>
    let x := s.isl (fld v 54 48)
    setFld (setFld v 3 3 x.forced.toNat) 2 0 x.status
  | .clkValid0 => State.maskOf (fun k => (s.isl k).valid) 64
  | .clkValid1 => State.maskOf (fun k => (s.isl (64 + k)).valid) 49
  | .fltPend0 => State.maskOf (fun b => s.rf .fltRec [b] 61 60 == 1) 64
  | .fltPend1 => State.maskOf (fun b => s.rf .fltRec [64 + b] 61 60 == 1) 64
  | .trlOut => BitVec.ofNat 64 s.trl.xchs.length
  | .trlPgen => setFld v 15 0 (s.genOf i 0)
  | .trlPstat => setFld v 20 0 (s.trl.xchs.filter fun x => x.pid == i).length
  | .trlPc0 => setFld v 4 0 (min 16 ((s.port i).outbox.filter fun m => m.cls == 0 && m.typ == 1).length)
  | .scnStat => s.scnStatRead
  | .scnBklg => pack [(63, 32, s.scn.stalls), (28, 0, s.backlog)]
  | .sveStat => s.sveStatRead
  | .gntStat => s.gntStatRead
  | .gntInst => s.gntInstRead
  | .sveBind => setFld v 62 61 (s.ctx 0 i j).state
  | .gntBind => setFld v 62 61 (s.ctx 1 i j).state
  | .cfmStcs => BitVec.ofNat 64 (s.stc.sec % 2 ^ 48)
  | .cfmStcn => s.stampNs
  | .cfmChg => s.chgRead
  | .cfmStat => pack [(63, 62, s.cold.ptp.sync), (1, 1, s.cold.link1.toNat), (0, 0, s.cold.link0.toNat)]
  | _ => v

/-- The value returned: WO fields and reserved bits read 0 (R10). -/
def State.regRead (s : State) (r : Reg) (ix : List Nat) : W64 := fieldsRead r.row.fields (s.regView r ix)

/-- What a read leaves behind: RC fields cleared, a queue entry removed, an event's level ended (R10, R469,
R513). -/
def State.afterRead (s : State) (r : Reg) (ix : List Nat) : State :=
  let s1 := s.setReg r ix (fieldsAfterRead r.row.fields (s.reg r ix))
  match r with
  | .scnStat => s1.modScn fun x => { x with resends := 0, roleEvent := false }
  | .scnBklg => s1.modScn fun x => { x with stalls := 0 }
  | .pwrGatereq => { s1 with gateEvent := false }
  | .cfmChg => { s1 with cold := { s1.cold with chg := s1.cold.chg.drop 1, chgOvf := false } }
  | _ => s1

end Sys2Proof.Machine
end

