-- ==== Sys2Proof/Machine/Coldframe.lean ====
section
/-! DEFINITION. The Itnov Dictionary: values, sessions, requests, the audit log (20 R509-R537). -/

namespace Sys2Proof.Machine

def State.modCold (s : State) (f : Cold → Cold) : State := { s with cold := f s.cold }

/-! ## Values of objects (R509-R517) -/

/-- Option bytes as a read shows them: DEVKEY reads as zero (R516). -/
def State.optionBytes (s : State) : List Byte :=
  (List.range 512).map fun i => if 0xB0 ≤ i ∧ i < 0xD0 then 0 else Map.get optDefault s.opt i

/-- Openings of maker access so far (R492, R516). -/
def State.makerCount (s : State) : Nat := ((List.range 64).filter (bit (s.optNvm 0xA8))).length

/-- TIME96 (R510). -/
def timeNum (sec ns frac : Nat) : Nat := sec % 2 ^ 48 * 2 ^ 48 + ns % 2 ^ 32 * 2 ^ 16 + frac % 2 ^ 16
def State.now96 (s : State) : Nat := timeNum s.stc.sec s.stc.ns (s.stc.frac / 2 ^ 24)

def Session.bytes (now : Nat) (x : Session) : List Byte :=
  toBytes 2 x.num ++ toBytes 1 x.role ++ toBytes 1 x.port ++ toBytes 4 (now - x.last)

/-- The latest fault history of FLT.FATAL (0x80) or of a block (R471, R516). -/
def State.histOf (s : State) (k : Nat) : List W64 :=
  match (s.fltHist.filter fun x => x.1 == k).getLast? with
  | some x => x.2
  | none => []

/-- A master preferred to another (R541): the vectors compared in order. -/
def Master.vec (m : Master) : List Nat := [m.prio1, m.cls, m.acc, m.var, m.prio2, m.gm, m.steps, m.source, m.port]

def lexLt : List Nat → List Nat → Bool
  | a :: as, b :: bs => decide (a < b) || (a == b && lexLt as bs)
  | _, _ => false

/-- The chosen grandmaster's port of announcement. -/
def Ptp.best (p : Ptp) : Option Master :=
  p.masters.foldl (fun b m => match b with
    | none => some m
    | some x => if lexLt m.vec x.vec then some m else some x) none

def intBytes (n : Nat) (v : Int) : List Byte := toBytes n (v % 2 ^ (8 * n)).toNat

/-- The Gatherer context that serves a partition (R517). -/
def State.gathererOf (s : State) (p : Nat) : Option Nat := (List.range 15).find? fun g => s.rf .pmcGctl [g] 57 52 == p

/-- Counter Status (R517). DEDUCED: log 86. -/
def State.counterStatus (s : State) (p : Nat) : Nat :=
  match s.gathererOf p with
  | some g =>
    if s.rf .pmcGctl [g] 63 63 = 1 then 1
    else if s.rf .fltPrec [p, blkGatherer] 61 60 ≠ 0 ∧ s.rf .fltPrec [p, blkGatherer] 31 16 = 0x0A02 then 3 else 0
  | none => if (s.odv (partObj p 0x11)).testBit 191 then 2 else 0

/-- The population of channel `n` as Coldframe found it at the last start-up, EN once the channel is trained (R249). -/
def State.popFound (s : State) (n : Nat) : W64 :=
  if s.power.boot = .rails then 0 else setFld (s.popCfg n) 0 0 (s.rf .mcCfg [n] 0 0)

/-- The bytes of an object's value; for an object with no value of its own, what it shows. -/
def State.odBytes (s : State) (k : Nat) : List Byte :=
  let reg := fun (r : Reg) (ix : List Nat) => toBytes 8 (s.regRead r ix).toNat
  let g := k / 0x10000
  let item := k % 0x10000
  let gpioIn := (Config.gpioIn (s.stc.sec * 10 ^ 9 + s.stc.ns) s.free).toNat
  let out := fld (s.optD 0x110) 63 48
  match k with
  | 0x000000 => toBytes 8 (s.optNvm 0).toNat
  | 0x000001 => toBytes 2 (s.rf .rstCsver [] 63 48) ++ toBytes 2 (s.rf .rstCsver [] 47 32) ++
      toBytes 4 Config.rootstockVersion.toNat
  | 0x000002 => toBytes 1 s.scn.role
  | 0x000010 => s.optionBytes
  | 0x010010 => fit 64 (s.cold.sessions.flatMap (Session.bytes s.stc.sec))
  | 0x020000 => toBytes 4 s.cold.head
  | 0x020001 => (List.range 16384).flatMap fun i => fit 128 (Map.get (fun _ => []) s.cold.audit i)
  | 0x020002 => s.cold.anchor
  | 0x040000 => toBytes 12 s.now96
  | 0x040003 => toBytes 1 s.cold.ptp.sync
  | 0x040004 => intBytes 8 s.cold.ptp.offset
  | 0x040005 => toBytes 8 ((s.cold.ptp.best.map Master.gm).getD 0)
  | 0x040006 => toBytes 2 ((s.cold.ptp.best.map Master.utc).getD 0)
  | 0x050000 => toBytes 1 (if s.power.state = .run then 0 else if s.power.state = .doze then 1 else 2)
  | 0x050003 => toBytes 4 ((s.regRead .pwrGatereq []).toNat % 2 ^ 32)
  | 0x050004 => reg .rstCause []
  | 0x050005 => toBytes 1 (s.rf .pwrStat [] 15 8)
  -- the level of an input is not the module's: a free value
  | 0x060000 => toBytes 2 ((s.pins.gpio &&& out) ||| (gpioIn &&& (0xFFFF - out)))
  | 0x060001 => toBytes 2 s.pins.gpio
  | 0x080010 => fit 8 (dwords (s.histOf 0x80))
  | 0x100000 => (List.range 12).flatMap fun n => toBytes 8 (s.popFound n).toNat
  | 0x110000 => reg .rstCoresvc [] ++ reg .rstCorespare [] ++ reg .rstCoredeconf []
  | 0x310008 => reg .scnStat [] ++ reg .scnEpoch [] ++ reg .scnBklg []
  | 0xF00000 => [BitVec.ofNat 8 s.cold.makerOpen.toNat]
  | 0xF00001 => toBytes 1 s.makerCount
  | _ =>
    if g = 8 ∧ 0x100 ≤ item then fit 40 (dwords (s.histOf (item - 0x100)))
    else if g = 0x10 ∧ 0x10 ≤ item then
      let n := item - 0x10
      reg .mcCfg [n] ++ reg .mcErrcnt [n] ++ reg .mcDevmark [n] ++ reg .mcTemp [n] ++ reg .mcTrain [n]
    else if g = 0x21 ∧ item % 0x10 = 6 then
      reg .trlPortst [item / 0x10] ++ reg .trlPlink [item / 0x10] ++ reg .trlPc0 [item / 0x10]
    else if g = 0x50 then
      match eventName (item / 0x1000) (item % 0x1000) with
      | some n => n.toUTF8.toList.map fun (b : UInt8) => b.toBitVec
      | none => []
    else if 0x61 ≤ g ∧ item = 0 then toBytes 1 (s.partState (g - 0x60))
    else if 0x61 ≤ g ∧ item = 0x13 then toBytes 1 (s.counterStatus (g - 0x60))
    else match odRow k with
      | some r => toBytes r.size (s.odv k)
      | none => []

/-- MAIN is off, or a module-level reset is in progress (R514). DEDUCED: log 72. -/
def State.mainAway (s : State) : Bool :=
  s.power.state == .sleep || s.power.state == .off || s.power.boot == .rails || s.power.boot == .training

/-! ## PDUs (R523) -/

structure Pdu where
  kind : Nat
  session : Nat
  seq : Nat
  opc : Nat
  status : Nat
  obj : Nat
  typ : Nat
  off : Nat
  payload : List Byte
  deriving DecidableEq, Repr

/-- The PDU up to its MAC. -/
def Pdu.bytes (p : Pdu) : List Byte :=
  dwords [pack [(63, 56, 1), (55, 48, p.kind), (47, 32, p.session), (31, 0, p.seq)],
    pack [(63, 56, p.opc), (55, 48, p.status), (47, 24, p.obj), (23, 16, p.typ), (15, 0, p.payload.length)],
    pack [(63, 32, p.off)]] ++ p.payload ++ List.replicate ((8 - p.payload.length % 8) % 8) 0

/-- A PDU parsed: version, length and zero fields as R523 has them; what follows it is the MAC. -/
def parsePdu (b : List Byte) : Option (Pdu × List Byte) :=
  let w0 := dwordAt b 0
  let w1 := dwordAt b 8
  let w2 := dwordAt b 16
  let n := fld w1 15 0
  let body := 24 + (n + 7) / 8 * 8
  if b.length < 24 ∨ fld w0 63 56 ≠ 1 ∨ 1456 < n ∨ b.length < body ∨ fld w1 55 48 ≠ 0 ∨ fld w2 31 0 ≠ 0 then none
  else some ({
    kind := fld w0 55 48, session := fld w0 47 32, seq := fld w0 31 0, opc := fld w1 63 56, status := fld w1 55 48,
    obj := fld w1 47 24, typ := fld w1 23 16, off := fld w2 63 32, payload := (b.drop 24).take n }, b.drop body)

/-- A frame of a kind that carries no MAC. -/
def parseOpen (kind : Nat) (b : List Byte) : Option Pdu :=
  match parsePdu b with
  | some (p, []) => if p.kind = kind then some p else none
  | _ => none

def State.sendFrame (s : State) (port mac : Nat) (b : List Byte) : State :=
  s.modCold fun c => { c with sent := c.sent ++ [.itnov port mac b] }

/-- A frame discarded and counted (R522). -/
def State.dropFrame (s : State) : State := s.modCold fun c => { c with dropped := c.dropped + 1 }

/-- A PDU sent without a MAC. -/
def State.sendPdu (s : State) (port mac : Nat) (p : Pdu) : State := s.sendFrame port mac p.bytes

/-- A frame's MAC (R524). -/
def macOf (ks b : List Byte) : List Byte := (hmac256 ks b).take 16

/-! ## The audit log (R532-R534) -/

/-- What a record says of a write. -/
structure AuditIn where
  role : Nat
  result : Nat
  session : Nat
  obj : Nat
  typ : Nat
  src : Nat
  key : Bool
  old : List Byte
  new : List Byte
  deriving DecidableEq, Repr

/-- OLD or NEW: the value left-aligned, or its SHA-256. -/
def auditVal (key : Bool) (v : List Byte) : List Byte :=
  if key then List.replicate 32 0 else if 32 < v.length then sha256 v else fit 32 v

def State.auditBytes (s : State) (a : AuditIn) : List Byte :=
  let hash := fun (v : List Byte) => (!a.key && decide (32 < v.length)).toNat
  dwords ([pack [(63, 32, s.cold.head), (31, 24, a.role), (23, 16, a.result), (15, 0, a.session)],
    pack [(63, 40, a.obj), (39, 32, a.typ), (31, 24, a.src), (2, 2, a.key.toNat), (1, 1, hash a.old), (0, 0, hash a.new)]] ++
    s.stamp.words) ++ auditVal a.key a.old ++ auditVal a.key a.new

/-- A record appended to the chain. -/
def State.auditAppend (s : State) (a : AuditIn) : State :=
  let b := s.auditBytes a
  let link := sha256 (b ++ s.cold.link)
  let slot := s.cold.head % 16384
  let old := Map.get (fun _ => []) s.cold.audit slot
  s.modCold fun c => { c with
    anchor := if old = [] then c.anchor else old.drop 96, audit := Map.set (fun _ => []) c.audit slot (b ++ link),
    link := link, head := (c.head + 1) % 2 ^ 32, auditBad := false }

/-- A record that cannot be made durable (R532). -/
def State.auditLost (s : State) : State :=
  (s.modCold fun c => { c with auditBad := true }).fault blkColdframe clsContained 0x0D03 0 0

/-! ## Requests (R525, R530, R531) -/

/-- Who asks: role, SESSION for the audit, source, session key, partition in-band. -/
structure Asker where
  role : Nat
  session : Nat
  src : Nat
  ks : List Byte
  pid : Option Nat
  deriving DecidableEq, Repr

/-- The outcome of a request: status, payload, the state, and the session whose role's sessions close
once the response has left, as the role, if any. -/
structure Done where
  status : Nat
  payload : List Byte
  state : State

def done (st : Nat) (s : State) : Done := ⟨st, [], s⟩

/-- The response to a request. -/
def respOf (p : Pdu) (st : Nat) (payload : List Byte) : Pdu :=
  { p with
    kind := 2, status := st, payload := payload, typ := match odRow p.obj with
      | some r => r.typ
      | none => p.typ }

def State.modSession (s : State) (n : Nat) (f : Session → Session) : State :=
  s.modCold fun c => { c with sessions := c.sessions.map fun x => if x.num = n then f x else x }

/-- Sessions closed, with their snapshots and stagings. -/
def State.closeSessions (s : State) (which : Session → Bool) : State :=
  let gone := (s.cold.sessions.filter which).map Session.num
  s.modCold fun c => { c with
    sessions := c.sessions.filter fun x => !which x, segs := c.segs.filter fun g => !gone.contains g.session }

/-- A request of a row that takes the PDUs `mine` accepts: checked by R525, executed by `f`, answered; `post`
runs once the response has left. DEDUCED: log 77. -/
def State.request (s : State) (req : DictReq) (mine : Pdu → Bool) (f : Asker → Pdu → State → Done)
    (post : Pdu → Nat → State → State) : State :=
  match req with
  | .frame port mac pdu =>
    let pn := port.toNat
    match parsePdu pdu with
    | none => s.dropFrame
    | some (p, tag) =>
      if p.kind ≠ 1 ∨ tag.length ≠ 16 ∨ !mine p then s
      else match s.cold.sessions.find? fun x => x.num == p.session && x.port == pn && x.mac == mac.toNat with
        | none => s.sendPdu pn mac.toNat (respOf p 9 [])
        | some x =>
          let send := fun (s : State) (r : Pdu) => s.sendFrame pn mac.toNat (r.bytes ++ macOf x.ks r.bytes)
          if tag ≠ macOf x.ks p.bytes then s
          else if p.seq = x.seq ∧ p.seq ≠ 0 then
            (s.sendFrame pn mac.toNat x.resp).modSession x.num fun y => { y with last := s.stc.sec }
          else if p.seq ≠ x.seq + 1 then send s (respOf p 0x0A [])
          else
            let d := f ⟨x.role, x.num, pn, x.ks, none⟩ p s
            let r := respOf p d.status d.payload
            let s1 := (send d.state r).modSession x.num fun y =>
              { y with seq := p.seq, resp := r.bytes ++ macOf x.ks r.bytes, last := s.stc.sec }
            post p d.status s1
  | .inBand p =>
    match s.cold.inband.find? fun x => x.1 == p.val && x.2.resp.isNone with
    | none => s
    | some (_, q) => match parsePdu q.req with
      | none => s
      | some (d, _) =>
        if !mine d then s
        else
          let o := f ⟨1, 0xFF00 + p.val, 2, [], some p.val⟩ d s
          let r := (respOf d o.status o.payload).bytes
          post d o.status (o.state.modCold fun c => { c with
            inband := c.inband.map fun x => if x.1 = p.val then (x.1, { x.2 with resp := some r }) else x })

/-- The right that a role has for an object. -/
def rightOf (role : Nat) (r : OdRow) : Rt := if role = 1 then r.o else if role = 2 then r.i else if role = 3 then r.m else .no

def Rt.reads (x : Rt) : Bool := x == .r || x == .rw
def Rt.writes (x : Rt) : Bool := x == .w || x == .rw

/-- May the asker use the object at all (R520, R531)? -/
def Asker.reaches (a : Asker) (obj : Nat) : Bool :=
  match a.pid with
  | some p => decide (obj / 0x10000 < 0x61) || decide (0x90 < obj / 0x10000) || obj / 0x10000 == 0x60 + p
  | none => true

/-- Why a read is refused: none, or its status (R509, R514, R518). -/
def State.readBad (s : State) (a : Asker) (obj : Nat) : Option Nat :=
  match odRow obj with
  | none => some (if a.role = 4 then 2 else 1)
  | some r =>
    if !a.reaches obj || !(rightOf a.role r).reads then some 2
    else if r.live && s.mainAway then some 5 else none

/-- DESIGN CHOICE: log 78. -/
def execRead (req : DictReq) (s : State) : Host.Outcome State Fault Refusal :=
  .next (s.request req (fun p => p.opc == 1) (fun a p s =>
    match s.readBad a p.obj with
    | some e => done e s
    | none =>
      let v := s.odBytes p.obj
      -- the spec states no status for a value longer than one PDU: a free one
      if 1456 < v.length then done (fld s.draw.1 7 0) s.draw.2 else ⟨0, v, s⟩) fun _ _ s => s)

/-! ## Writes (R512, R516, R517) -/

def keyObj (k : Nat) : Bool := k == 0x010000 || k == 0x010001 || k == 0x010002 || k == 0x310002 || k == 0x400100

/-- A value as the object's range compares it. -/
def odValue (r : OdRow) (v : List Byte) : Int :=
  let n : Int := ofBytes v
  if 5 ≤ r.typ ∧ r.typ ≤ 8 ∧ (2 : Int) ^ (8 * r.size - 1) ≤ n then n - 2 ^ (8 * r.size) else n

/-- Does a write of the option bytes clear an OTP bit or lower MINPVER (R492, R516)? -/
def State.optionBad (s : State) (v : List Byte) : Bool :=
  let at_ := fun (i : Nat) => ((v[i]?).getD 0)
  ((List.range 256).any fun i =>
    !(decide (0xB0 ≤ i) && decide (i < 0xD0)) && (Map.get optDefault s.opt i &&& ~~~(at_ i)) != 0) ||
  decide (fld (dwordAt v 0x100) 15 0 < fld (s.optNvm 0x100) 15 0)

/-- The bytes of a KEK Load: slot, attributes, unwrapped header and key (R521). -/
def kekOpen (ks v : List Byte) : Option (List Byte) :=
  kwUnwrap (hmac256 ks ([0x49, 0x54, 0x4E, 0x56, 0x2D, 0x4B] ++ v.take 2)) (v.drop 10)

/-- Is a KEK Load's slot free and in a range, and are its contents as R521 has them? DEDUCED: log 141. -/
def State.kekOk (s : State) (ks v : List Byte) : Bool :=
  let n := ofBytes (v.take 2)
  let attr := dwordAt v 2
  decide (n < 4096) && (s.slot n).st == 0 && (s.slotPid n).isSome && fld attr 63 60 == 6 && bit attr 53 && attrOk attr &&
  s.rf .gntKsbase [] 0 0 == 1 && decide (s.gnt.inst < 2 ^ 31) &&
  match kekOpen ks v with
  | some u => u.length == 48 && dwordAt u 0 == attr && dwordAt u 8 == 0
  | none => false

/-- Is the state condition of an object not met (R512, R517, R535, R544)? `high`: MAKER_EN has been high for
1 ms. -/
def State.stateBad (s : State) (a : Asker) (high : Bool) (k : Nat) (v : List Byte) : Bool :=
  let n := ofBytes v
  let g := k / 0x10000
  if k = 0x040000 then s.odv 0x040001 != 0
  else if k = 0x000010 then s.optionBad v
  else if k = 0x400100 then s.mainAway || !s.kekOk a.ks v
  else if k = 0x050003 then s.mainAway
  else if k = 0xF00000 then n == 1 && (!high || decide (64 ≤ s.makerCount))
  else if 0x61 ≤ g ∧ g ≤ 0x90 ∧ k % 0x10000 = 1 then
    let st := s.partState (g - 0x60)
    if n = 1 then st != 0 else st != 1 && st != 2
  else false

/-- The status of a write's checks, in the order of R512; none where it passes. -/
def State.writeBad (s : State) (a : Asker) (high : Bool) (p : Pdu) (v : List Byte) : Option Nat :=
  match odRow p.obj with
  | none => some (if a.role = 4 then 2 else 1)
  | some r =>
    let ok := if a.role = 4 then p.obj == 0x010001 else a.reaches p.obj && (rightOf a.role r).writes
    if !ok then some 2
    else if p.typ ≠ r.typ ∨ v.length ≠ r.size then some 3
    else if odValue r v < r.lo ∨ r.hi < odValue r v then some 4
    else if s.stateBad a high p.obj v then some 5
    else none

/-- The record of a write (R532, R533). -/
def State.auditOf (s : State) (a : Asker) (p : Pdu) (v : List Byte) (result : Nat) : AuditIn :=
  { role := a.role, result := result, session := a.session, obj := p.obj,
    typ := match odRow p.obj with
      | some r => r.typ
      | none => p.typ,
    src := a.src, key := keyObj p.obj, old := s.odBytes p.obj, new := v }

/-- A write checked, audited and, where it is accepted, made by `eff`, with the status `ok` (R512, R532). -/
def State.dictWrite (s : State) (durable high : Bool) (ok : Nat) (a : Asker) (p : Pdu) (v : List Byte)
    (eff : State → State) : Done :=
  let bad := s.writeBad a high p v
  if !durable then done 5 s.auditLost
  else
    let s1 := s.auditAppend (s.auditOf a p v (bad.getD ok))
    match bad with
    | some e => done e s1
    | none => done ok (eff s1)

/-- Subscriptions to an object whose value changed (R529). -/
def State.touch (s : State) (k : Nat) : State :=
  s.modCold fun c => { c with sessions := c.sessions.map fun x =>
    { x with subs := x.subs.map fun y => if y.obj = k then { y with changed := true } else y } }

/-- The number of an object of effect S queued (R513). -/
def State.queueChg (s : State) (k : Nat) : State :=
  s.modCold fun c => if 256 ≤ c.chg.length then { c with chgOvf := true } else { c with chg := c.chg ++ [k] }

/-- The STC set by a write of Current Time (R544). -/
def State.setTime (s : State) (n : Nat) : State :=
  { s with stc := ⟨n / 2 ^ 48, n / 2 ^ 16 % 2 ^ 32, n % 2 ^ 16 * 2 ^ 24⟩ }

/-- Option bytes written: OTP bits only set, DEVKEY left (R492, R516). -/
def State.setOptions (s : State) (v : List Byte) : State :=
  (List.range 512).foldl (fun s i =>
    let old := Map.get optDefault s.opt i
    let b := (v[i]?).getD 0
    let new := if 0xB0 ≤ i ∧ i < 0xD0 then old ||| b else if i < 256 then old ||| b else b
    { s with opt := Map.set optDefault s.opt i new }) s

/-- Withdrawal of a port, or its end (R317). -/
def State.portService (s : State) (port : Nat) (on : Bool) : State :=
  if on then (s.failPort false port).modPort port fun p => { p with withdrawing := true }
  else
    (s.modPort port fun p => { p with withdrawing := false, ending := false }).rootReg .trlPlink [port]
      (setBit (s.reg .trlPlink [port]) 41 false)

/-- What a write does to an object with a value of its own, by its effect class (R511), or to one that has
another home. -/
def State.odWrite (s : State) (k : Nat) (v : List Byte) : State :=
  let n := ofBytes v
  let s1 := if s.odBytes k = v then s else s.touch k
  match k with
  | 0x040000 => s1.setTime n
  | 0x060001 => { s1 with pins := { s1.pins with gpio := n &&& fld (s1.optD 0x110) 63 48 } }
  | 0x000010 => s1.setOptions v
  | 0x310006 => s1
  | 0x310007 => s1.switchStart
  | _ =>
    if k / 0x10000 = 0x21 ∧ k % 0x10 = 5 then s1.portService (k % 0x10000 / 0x10) (n == 1)
    else if k = 0xF00000 then s1
    else
      let s2 := s1.setOdv k n
      match odRow k with
      | some r => if r.eff = .s ∧ s.odv k ≠ n then s2.queueChg k else s2
      | none => s2

/-- A write of a role key closes that role's sessions after the response (R519). -/
def keyRole (k : Nat) : Option Nat :=
  if k = 0x010000 then some 1 else if k = 0x010001 then some 2 else if k = 0x010002 then some 3 else none

def afterWrite (p : Pdu) (st : Nat) (s : State) : State :=
  match keyRole p.obj with
  | some r => if st = 0 then s.closeSessions fun x => x.role == r else s
  | none => s

/-- Objects whose accepted writes have a row of their own. -/
def ownRow (p : Pdu) : Bool :=
  p.obj == 0x050001 || p.obj == 0x050002 || p.obj == 0x050003 || p.obj == 0x400100 ||
  (p.obj == 0xF00000 && p.payload == [1]) ||
  (decide (0x61 ≤ p.obj / 0x10000) && decide (p.obj / 0x10000 ≤ 0x90) && p.obj % 0x10000 == 1 &&
    (p.payload == [1] || p.payload == [2] || p.payload == [3]))

/-- Is the object an action (R511)? -/
def isAction (k : Nat) : Bool :=
  match odRow k with
  | some r => r.eff == .a
  | none => false

/-- The status of an accepted action: done, or still going on, which depends on its time (R516). DESIGN CHOICE: log 83. -/
def State.actionStatus (s : State) : Nat × State := (if fld s.draw.1 0 0 = 1 then 7 else 0, s.draw.2)

/-- DEDUCED: log 87. -/
def execWrite (req : DictReq) (durable : Bool) (s : State) : Host.Outcome State Fault Refusal :=
  .next (s.request req (fun p => p.opc == 2 && !ownRow p) (fun a p s =>
    let st := if isAction p.obj then s.actionStatus else (0, s)
    st.2.dictWrite durable false st.1 a p p.payload fun s => s.odWrite p.obj p.payload) afterWrite)

/-- A write request that one row takes: WRITE of an object that `mine` names. -/
def State.actionWrite (s : State) (req : DictReq) (durable high : Bool) (mine : Pdu → Bool)
    (eff : Asker → Pdu → State → State) (post : Pdu → Nat → State → State) : State :=
  s.request req (fun p => p.opc == 2 && mine p) (fun a p s =>
    s.actionStatus.2.dictWrite durable high s.actionStatus.1 a p p.payload (eff a p)) post

/-- Power Command: 1 Run, 2 Doze, 3 Sleep (R516). DEDUCED: log 115. -/
def State.powerCommand (s : State) (n : Nat) : State :=
  if n = 1 then s.wake 1 else if n = 2 then s.enterDoze else s.enterSleep

def execPowerCommand (req : DictReq) (durable : Bool) (s : State) : Host.Outcome State Fault Refusal :=
  .next (s.actionWrite req durable false (fun p => p.obj == 0x050001)
    (fun _ p s => s.powerCommand (ofBytes p.payload)) fun _ _ s => s)

/-- A reset that the dictionary asks for, after its response (R495, R530). -/
def State.dictReset (s : State) (n : Nat) : State :=
  if n = 1 then s.auxWipe.auxUp [] else if n = 2 then s.askCold 5 else s.askWarm 5

def execModuleResetObject (req : DictReq) (durable : Bool) (s : State) : Host.Outcome State Fault Refusal :=
  .next (s.actionWrite req durable false (fun p => p.obj == 0x050002) (fun _ _ s => s)
    fun p st s => if st = 0 ∨ st = 7 then
      let t := s.dictReset (ofBytes p.payload)
      if ofBytes p.payload = 1 then t.setReg .rstCause [] (pack [(63, 60, 1), (55, 48, 5)]) else t
    else s)

def execGateRequestObject (req : DictReq) (durable : Bool) (s : State) : Host.Outcome State Fault Refusal :=
  .next (s.actionWrite req durable false (fun p => p.obj == 0x050003)
    (fun _ p s =>
      let v := BitVec.ofNat 32 (ofBytes p.payload)
      s.gateRequest 2 (fld v 22 16) (fld v 1 0)) fun _ _ s => s)

/-- A KEK unwrapped into its slot, bound to the base set of the slot's partition (R521). -/
def State.kekLoad (s : State) (ks v : List Byte) : State :=
  match kekOpen ks v, s.drawInst with
  | some u, (some i, s1) => s1.putSlot (ofBytes (v.take 2)) {
      st := 1, attr := dwordAt v 2, key := u.drop 16, set := 0, inst := i, pairId := s.pairBit, counter := 0, ceil := 0, fresh := false }
  | _, _ => s

def execKekLoad (req : DictReq) (durable : Bool) (s : State) : Host.Outcome State Fault Refusal :=
  .next (s.actionWrite req durable false (fun p => p.obj == 0x400100)
    (fun a p s => s.kekLoad a.ks p.payload) fun _ _ s => s)

/-- Is the PDU a write of a partition's Control with a value? -/
def isControl (n : Nat) (p : Pdu) : Bool :=
  decide (0x61 ≤ p.obj / 0x10000) && decide (p.obj / 0x10000 ≤ 0x90) && p.obj % 0x10000 == 1 && p.payload == [BitVec.ofNat 8 n]

def execPartitionStart (req : DictReq) (durable : Bool) (s : State) : Host.Outcome State Fault Refusal :=
  .next (s.actionWrite req durable false (isControl 1) (fun _ p s => s.partStart (p.obj / 0x10000 - 0x60)) fun _ _ s => s)

def execPartitionStop (req : DictReq) (durable : Bool) (s : State) : Host.Outcome State Fault Refusal :=
  .next (s.actionWrite req durable false (isControl 2) (fun _ p s => s.partReset (p.obj / 0x10000 - 0x60) true) fun _ _ s => s)

/-- DEDUCED: log 89. -/
def execControlReset (req : DictReq) (durable : Bool) (s : State) : Host.Outcome State Fault Refusal :=
  .next (s.actionWrite req durable false (isControl 3) (fun _ p s => s.partReset (p.obj / 0x10000 - 0x60) false) fun _ _ s => s)

/-! ## Maker access (R535-R537) -/

/-- Steps 1 to 3 of R536, once the response has left. -/
def State.zeroise (s : State) : State :=
  let s1 := (s.modCold fun c => { c with zeroPending := true, zeroFresh := true }).zeroKeys
  (s1.closeSessions fun x => x.role == 1 || x.role == 2).coldReset 9

/-- A write of 1 to Maker Debug; `high`: MAKER_EN has been high for 1 ms. An accepted write is answered
0x07. -/
def execMakerDebug (req : DictReq) (durable high : Bool) (s : State) : Host.Outcome State Fault Refusal :=
  .next (s.request req (fun p => p.opc == 2 && p.obj == 0xF00000 && p.payload == [1]) (fun a p s =>
    let s1 := { s with pins := { s.pins with makerEn := high } }
    s1.dictWrite durable high 7 a p p.payload fun s => s) fun _ st s => if st = 7 then s.zeroise else s)

/-- Step 6 of R536: installed DRAM reads zero, and debug opens if MAKER_EN is still high (R537). -/
def execZeroisationComplete (high : Bool) (s : State) : Host.Outcome State Fault Refusal :=
  .next (
    if !s.cold.zeroPending || s.power.boot != .training then s
    else
      let s1 : State := { s with
        mem := [], poison := [], gnt := { s.gnt with ksk := [], slots := [] }, pins := { s.pins with makerEn := high },
        power := { s.power with boot := .stopped } }
      let go := high && s.cold.zeroFresh
      let s2 := s1.modCold fun c => { c with zeroPending := false, zeroFresh := false, makerOpen := go }
      if go then
        let n := s2.makerCount
        let w := setBit (s2.optNvm 0xA8) n true
        (List.range 8).foldl (fun s i =>
          { s with opt := Map.set optDefault s.opt (0xA8 + i) (BitVec.ofNat 8 (w.toNat / 2 ^ (8 * (7 - i)))) }) s2
      else s2.fault blkColdframe clsCorrected 0x0D07 0 0)

/-! ## Segments (R527) -/

/-- DEDUCED: log 81. -/
def State.seg? (s : State) (n obj : Nat) (w : Bool) : Option Segs :=
  s.cold.segs.find? fun g => g.session == n && g.obj == obj && g.write == w
def State.dropSeg (s : State) (n obj : Nat) (w : Bool) : State :=
  s.modCold fun c => { c with segs := c.segs.filter fun g => !(g.session == n && g.obj == obj && g.write == w) }
def State.putSeg (s : State) (g : Segs) : State :=
  (s.dropSeg g.session g.obj g.write).modCold fun c => { c with segs := c.segs ++ [g] }

def execReadseg (req : DictReq) (s : State) : Host.Outcome State Fault Refusal :=
  .next (s.request req (fun p => p.opc == 3) (fun a p s =>
    match s.readBad a p.obj with
    | some e => done e s
    | none =>
      match odRow p.obj with
      | none => done 1 s
      | some r =>
        if r.typ ≠ tBlob then done 3 s
        else
          let s1 := if p.off = 0 then s.putSeg ⟨a.session, p.obj, false, s.odBytes p.obj⟩ else s
          match s1.seg? a.session p.obj false with
          | none => done 0x0B s1
          | some g =>
            if p.off % 1024 ≠ 0 ∨ g.data.length ≤ p.off then done 0x0B s1
            else ⟨0, (g.data.drop p.off).take 1024, s1⟩) fun _ _ s => s)

/-- A segment staged: the status that refuses it, or the data so far. DEDUCED: log 140. -/
def State.stage (s : State) (a : Asker) (p : Pdu) : Except Nat (List Byte) :=
  match odRow p.obj with
  | none => .error (if a.role = 4 then 2 else 1)
  | some r =>
    let ok := if a.role = 4 then p.obj == 0x010001 else a.reaches p.obj && (rightOf a.role r).writes
    let old := match s.seg? a.session p.obj true with
      | some g => if p.off = 0 then [] else g.data
      | none => []
    if !ok then .error 2
    else if p.typ ≠ r.typ ∨ r.typ ≠ tBlob then .error 3
    else if s.cold.segs.any (fun g => g.write && g.obj == p.obj && g.session != a.session) then .error 6
    else if p.off ≠ old.length ∨ r.size < p.off + p.payload.length ∨
        (p.payload.length ≠ 1024 ∧ p.off + p.payload.length ≠ r.size) then .error 0x0B
    else .ok (old ++ p.payload)

def execWriteseg (req : DictReq) (durable : Bool) (s : State) : Host.Outcome State Fault Refusal :=
  .next (s.request req (fun p => p.opc == 4) (fun a p s =>
    match s.stage a p with
    | .error e =>
      let s1 := if e = 0x0B then s.dropSeg a.session p.obj true else s
      if durable then done e (s1.auditAppend (s1.auditOf a p p.payload e)) else done 5 s1.auditLost
    | .ok data =>
      let size := match odRow p.obj with
        | some r => r.size
        | none => 0
      if data.length < size then done 0 (s.putSeg ⟨a.session, p.obj, true, data⟩)
      else
        let s1 := s.dropSeg a.session p.obj true
        if p.obj = 0x400100 then s1.dictWrite durable false 0 a p data fun s => s.kekLoad a.ks data
        else s1.dictWrite durable false 0 a p data fun s => s.odWrite p.obj data) afterWrite)

/-- A snapshot or a staging idle for 10 s. -/
def execSegmentExpiry (session : BitVec 16) (obj : BitVec 24) (write : Bool) (s : State) : Host.Outcome State Fault Refusal :=
  .next (s.dropSeg session.toNat obj.toNat write)

/-! ## Describing and subscribing (R511, R529) -/

def execDescribe (req : DictReq) (s : State) : Host.Outcome State Fault Refusal :=
  .next (s.request req (fun p => p.opc == 5) (fun a p s =>
    if a.role = 4 ∨ !a.reaches p.obj then done 2 s
    else if (odRow p.obj).isNone then done 1 s
    else ⟨0, (Config.describeBytes p.obj).take 1456, s⟩) fun _ _ s => s)

/-- DEDUCED: log 80. -/
def execSubscribe (req : DictReq) (s : State) : Host.Outcome State Fault Refusal :=
  .next (s.request req (fun p => p.opc == 6) (fun a p s =>
    if a.pid.isSome then done 2 s
    else match s.readBad a p.obj with
      | some e => done e s
      | none =>
        let mine := ((s.cold.sessions.filter fun x => x.num == a.session).flatMap Session.subs)
        if mine.any fun y => y.obj == p.obj then done 0 s
        else if 32 ≤ mine.length then done 6 s
        else done 0 (s.modSession a.session fun x => { x with subs := x.subs ++ [⟨p.obj, false, s.odBytes p.obj⟩] })) fun _ _ s => s)

def execUnsubscribe (req : DictReq) (s : State) : Host.Outcome State Fault Refusal :=
  .next (s.request req (fun p => p.opc == 7) (fun a p s =>
    if a.pid.isSome || a.role == 4 then done 2 s
    else if (odRow p.obj).isNone then done 1 s
    else done 0 (s.modSession a.session fun x => { x with subs := x.subs.filter fun y => y.obj != p.obj })) fun _ _ s => s)

/-- A notification of a changed object: its latest value, or nothing for a BLOB. DEDUCED: log 88. -/
def execNotification (session : BitVec 16) (obj : BitVec 24) (s : State) : Host.Outcome State Fault Refusal :=
  .next (
    let k := obj.toNat
    match s.cold.sessions.find? fun x => x.num == session.toNat, odRow k with
    | some x, some r =>
      let v := s.odBytes k
      if !(x.subs.any fun y => y.obj == k && (y.changed || y.value != v)) || (r.live && s.mainAway) then s
      else
        let p : Pdu := {
          kind := 3, session := x.num, seq := x.nseq + 1, opc := 0, status := 0, obj := k, typ := r.typ, off := 0,
          payload := if r.typ = tBlob then [] else v }
        (s.sendFrame x.port x.mac (p.bytes ++ macOf x.ks p.bytes)).modSession x.num fun y => { y with
          nseq := y.nseq + 1, subs := y.subs.map fun z => if z.obj = k then { z with changed := false, value := v } else z }
    | _, _ => s)

/-- A frame of another EtherType, or a PDU that does not parse (R522). -/
def execOtherFrame (s : State) : Host.Outcome State Fault Refusal :=
  .next s.dropFrame

/-! ## Sessions (R519, R520, R524, R528) -/

/-- The key of a role, none where it is unprovisioned. -/
def State.roleKey (s : State) (role : Nat) : Option (List Byte) :=
  if role = 4 then (if s.odv 0x010001 = 0 then some Config.provisioningKey else none)
  else if role = 0 ∨ 3 < role then none
  else
    let n := s.odv (0x010000 + role - 1)
    if n = 0 then none else some (toBytes 32 n)

/-- A PDU of the opening. -/
def openPdu (kind session status : Nat) (payload : List Byte) : Pdu :=
  { kind := kind, session := session, seq := 0, opc := 0, status := status, obj := 0, typ := 0, off := 0, payload := payload }

/-- What the proofs of R524 cover. -/
def State.openMsg (s : State) (o : Opening) : List Byte :=
  toBytes 8 (s.optNvm 0).toNat ++ toBytes 1 o.role ++ o.ns ++ o.nm ++ toBytes 2 o.num

/-- OPEN; the module picks the free session number `n`. DESIGN CHOICE: log 79. -/
def execOpenSession (port : Bool) (mac : BitVec 48) (pdu : List Byte) (n : BitVec 16) (s : State) :
    Host.Outcome State Fault Refusal :=
  .next (match parseOpen 0x10 pdu with
    | none => if (parsePdu pdu).isNone then s.dropFrame else s
    | some p =>
      let role := ofBytes (p.payload.take 1)
      let free := decide (1 ≤ n.toNat) && decide (n.toNat ≤ 0xFEFF) &&
        !(s.cold.sessions.any fun x => x.num == n.toNat) && !(s.cold.openings.any fun x => x.num == n.toNat)
      if s.cold.zeroPending || p.payload.length != 17 || !free then s
      else if 8 ≤ s.cold.sessions.length + s.cold.openings.length ∨
          (role = 3 ∧ (s.cold.sessions.any (fun x => x.role == 3) ∨ s.cold.openings.any fun x => x.role == 3)) then
        s.sendPdu port.toNat mac.toNat (openPdu 0x11 0 6 [])
      else if (s.roleKey role).isNone || s.cold.locked.contains role then
        -- the spec states no status for an OPEN that no key or a lockout refuses: a free one
        s.draw.2.sendPdu port.toNat mac.toNat (openPdu 0x11 0 (fld s.draw.1 7 0) [])
      else
        let r := s.drawBytes 16
        let o : Opening := ⟨n.toNat, role, port.toNat, mac.toNat, p.payload.drop 1, r.1⟩
        (r.2.modCold fun c => { c with openings := c.openings ++ [o] }).sendPdu port.toNat mac.toNat
          (openPdu 0x11 n.toNat 0 (toBytes 8 (s.optNvm 0).toNat ++ r.1)))

/-- A failed AUTH step counts towards the role's lockout (R528). -/
def State.authFail (s : State) (role : Nat) : State :=
  let fs := (s.cold.fails ++ [(role, s.stc.sec)]).filter fun f => decide (s.stc.sec < f.2 + 60)
  let s1 := s.modCold fun c => { c with fails := fs }
  if 5 ≤ (fs.filter fun f => f.1 == role).length ∧ !s.cold.locked.contains role then
    (s1.modCold fun c => { c with locked := c.locked ++ [role], fails := c.fails.filter fun f => f.1 != role }).fault
      blkColdframe clsCorrected 0x0D04 0 0
  else s1

def execAuth (port : Bool) (mac : BitVec 48) (pdu : List Byte) (durable : Bool) (s : State) : Host.Outcome State Fault Refusal :=
  .next (match parseOpen 0x12 pdu with
    | none => if (parsePdu pdu).isNone then s.dropFrame else s
    | some p =>
      match s.cold.openings.find? fun x => x.num == p.session && x.port == port.toNat && x.mac == mac.toNat with
      | none => s.sendPdu port.toNat mac.toNat (openPdu 0x13 p.session 9 [])
      | some o =>
        let s1 := s.modCold fun c => { c with openings := c.openings.filter fun x => x.num != o.num }
        let k := (s.roleKey o.role).getD []
        let m := s.openMsg o
        if (s.roleKey o.role).isSome && p.payload == hmac256 k ([0x49, 0x54, 0x4E, 0x56, 0x2D, 0x41] ++ m) then
          let ks := hmac256 k ([0x49, 0x54, 0x4E, 0x56, 0x2D, 0x53] ++ o.ns ++ o.nm ++ toBytes 2 o.num)
          (s1.modCold fun c => { c with sessions := c.sessions ++
            [⟨o.num, o.role, o.port, o.mac, ks, 0, [], 0, [], s.stc.sec⟩] }).sendPdu port.toNat mac.toNat
            (openPdu 0x13 o.num 0 (hmac256 k ([0x49, 0x54, 0x4E, 0x56, 0x2D, 0x4D] ++ m)))
        else
          let rec' : AuditIn := ⟨o.role, 8, o.num, 0x010010, tBlob, port.toNat, false, [], []⟩
          let s2 := if durable then s1.auditAppend rec' else s1.auditLost
          (s2.authFail o.role).sendPdu port.toNat mac.toNat (openPdu 0x13 o.num 8 []))

/-- No AUTH within 1 s of the CHALLENGE. -/
def execAuthTimeout (session : BitVec 16) (s : State) : Host.Outcome State Fault Refusal :=
  .next (s.modCold fun c => { c with openings := c.openings.filter fun x => x.num != session.toNat })

/-- The Lockout Time has passed. -/
def execLockoutEnd (role : BitVec 3) (s : State) : Host.Outcome State Fault Refusal :=
  .next (s.modCold fun c => { c with locked := c.locked.filter (· != role.toNat) })

/-- CLOSE, under the session's MAC. DEDUCED: log 82. -/
def execClose (port : Bool) (mac : BitVec 48) (pdu : List Byte) (s : State) : Host.Outcome State Fault Refusal :=
  .next (match parsePdu pdu with
    | none => s.dropFrame
    | some (p, tag) =>
      if s.cold.sessions.any fun x => p.kind == 0x14 && x.num == p.session && x.port == port.toNat && x.mac == mac.toNat &&
          tag == macOf x.ks p.bytes then
        s.closeSessions fun x => x.num == p.session
      else s)

/-- The Idle Timeout has passed without a valid request. -/
def execSessionIdleTimeout (session : BitVec 16) (s : State) : Host.Outcome State Fault Refusal :=
  .next (s.closeSessions fun x => x.num == session.toNat)

/-! ## Management ports (R546, R547) -/

def execManagementPortLinkDown (port : Bool) (s : State) : Host.Outcome State Fault Refusal :=
  .next ((s.modCold fun c => if port then { c with link1 := false } else { c with link0 := false }).fault
    blkColdframe clsCorrected 0x0D06 0 0)

def execManagementPortLinkUp (port : Bool) (s : State) : Host.Outcome State Fault Refusal :=
  .next (s.modCold fun c => if port then { c with link1 := true } else { c with link0 := true })

end Sys2Proof.Machine
end

