-- ==== Sys2Proof/Machine/RegAccess.lean ====
section
/-! DEFINITION. Loads and stores of module registers and doorbell pages, as their targets perform them
(00 R9-R12, 01 R21-R25, 11 R275-R278, 15 R417, R418, 16 R444; the register maps). -/

namespace Sys2Proof.Machine

/-! ## Writes of module registers -/

/-- A write field by field (R11). -/
def State.plainWrite (s : State) (r : Reg) (ix : List Nat) (locked : Bool) (v : W64) : State :=
  s.setReg r ix (fieldsWrite r.row.fields locked v (s.reg r ix))

/-- RST.CMD (R497). -/
def State.rstCmdWrite (s : State) (v : W64) : State :=
  let kind := fld v 63 60
  if fld v 15 0 ≠ 0x4B5A then s
  else if kind = 2 then s.askCold 6
  else if kind = 3 then s.askWarm 6
  else if kind = 4 then s.partReset (fld v 53 48) false
  else if kind = 5 then s.coreReset (fld v 37 32)
  else s

/-- RST.BLKCTL: CMD acts on ISLAND, which keeps its value under a number above 112 (R11, R497-R499). -/
def State.blkctlWrite (s : State) (v : W64) : State :=
  let i := if fld v 54 48 ≤ 112 then fld v 54 48 else s.rf .rstBlkctl [] 54 48
  let s1 := s.setRf .rstBlkctl [] 54 48 i
  match fld v 41 40 with
  | 1 => s1.blockCmd i true
  | 2 => s1.blockCmd i false
  | 3 => s1.blockRelease i
  | _ => s1

/-- RST.WDOG: setting EN starts a period (R497). -/
def State.wdogWrite (s : State) (v : W64) : State :=
  let s1 := s.plainWrite .rstWdog [] false v
  if bit v 63 && s.rf .rstWdog [] 63 63 == 0 then { s1 with power := { s1.power with wdog := 0 } } else s1

/-- RST.CSCTL: LOAD, then LOCK (R132). DEDUCED: log 98. -/
def State.csctlWrite (s : State) (v : W64) : State :=
  let s1 := if bit v 0 then s.patchLoad else s
  if bit v 1 then s1.setRf .rstCsctl [] 1 1 1 else s1

/-- PWR.GATEREQ: a field out of its range keeps its value (R11, R183-R186). DEDUCED: log 101. -/
def State.gatereqWrite (s : State) (v : W64) : State :=
  let i := if fld v 54 48 ≤ 112 then fld v 54 48 else s.rf .pwrGatereq [] 54 48
  let a := if fld v 39 38 = 3 then s.rf .pwrGatereq [] 39 38 else fld v 39 38
  s.gateRequest 1 i a

/-- FLT.CTL (R463, R465). DEDUCED: log 99. -/
def State.fltCtlWrite (s : State) (b : Nat) (v : W64) : State :=
  let s1 := if bit v 1 then s.faultClear b else s
  if bit v 0 then s1.faultAck b else s1

/-- POT.BASE: EN puts the POT in force and locks the register (R134, R170). -/
def State.potbaseWrite (s : State) (v : W64) : State :=
  if s.rf .potBase [] 0 0 = 1 then s.plainWrite .potBase [] true v
  else
    let s1 := s.plainWrite .potBase [] false (setBit v 0 false)
    if bit v 0 then s1.potOn else s1

/-- TRL.CTXBASE: EN enables Trellis and locks ADDR (R310). -/
def State.ctxbaseWrite (s : State) (v : W64) : State :=
  if s.trlOn then s
  else
    let s1 := s.plainWrite .trlCtxbase [] false (setBit v 0 false)
    if bit v 0 then s1.trlEnable else s1

/-- TRL.PCFGp: DTOFF and DTCNT stand together; C0EN pins or frees (R11, R217, R310). -/
def State.pcfgWrite (s : State) (p : Nat) (v : W64) : State :=
  let old := s.reg .trlPcfg [p]
  let bad := decide (16384 < fld v 14 0) || decide (65536 < fld v 47 32 + fld v 14 0)
  let w := if bad then setFld (setFld v 47 32 (fld old 47 32)) 14 0 (fld old 14 0) else v
  (s.plainWrite .trlPcfg [p] false w).pinSync

/-- TRL.PLINKp: a port disabled, or with PERST_N low, has no link (R299, R344). DEDUCED: log 100. -/
def State.plinkWrite (s : State) (p : Nat) (v : W64) : State :=
  let s1 := s.plainWrite .trlPlink [p] false v
  if s1.rf .trlPortst [p] 63 63 = 1 ∧ (s1.rf .trlPlink [p] 47 46 = 3 ∨ s1.rf .trlPlink [p] 41 41 = 1) then s1.portLost p else s1

/-- What the partner says of itself at a join, which no register holds: free values (DESIGN CHOICE, log 8). -/
def State.drawPeer (s : State) : JoinPeer × State :=
  let w := fun (i : Nat) => Config.freeWord (s.free + i)
  ({ dram := (w 0).setWidth 48, ways := (w 1).setWidth 4, priv := (w 2).setWidth 18, romid := (w 3).setWidth 16,
     lcores := (w 4).setWidth 6, ports := (w 5).setWidth 12, patched := bit (w 6) 0, pver := (w 7).setWidth 16,
     key := bit (w 8) 0, csaddr := (w 9).setWidth 32 }, { s with free := s.free + 10 })

/-- SCN.CTL (R375, R396, R397, R403). DESIGN CHOICE: log 97. -/
def State.scnCtlWrite (s : State) (v : W64) : State :=
  let s1 := s.plainWrite .scnCtl [] s.scnOn v
  let s2 := if bit v 2 then s1.switchStart else s1
  if bit v 1 then let d := s2.drawPeer; d.2.joinStart d.1 else s2

/-- SCN.PRIV: EN enables Scion and locks ADDR (R375). -/
def State.privWrite (s : State) (v : W64) : State :=
  if s.scnOn then s
  else
    let s1 := s.plainWrite .scnPriv [] false (setBit v 0 false)
    if bit v 0 then s1.scnEnable else s1

/-- GNT.KSBASE: EN enables the key store and locks ADDR (R439). -/
def State.ksbaseWrite (s : State) (v : W64) : State :=
  if s.rf .gntKsbase [] 0 0 = 1 then s
  else
    let s1 := s.plainWrite .gntKsbase [] false (setBit v 0 false)
    if bit v 0 then s1.ksEnable else s1

/-- PMC.GCTLg: PID stands while EN = 1 (R478). -/
def State.gctlWrite (s : State) (g : Nat) (v : W64) : State :=
  let old := s.reg .pmcGctl [g]
  s.plainWrite .pmcGctl [g] false (if bit old 63 then setFld v 57 52 (fld old 57 52) else v)

/-- BIND of a job context (R418, R419, R428). SET follows every write. DESIGN CHOICE: log 161. -/
def State.bindWrite (s : State) (e p c : Nat) (v : W64) : State :=
  if bit v 63 then s.bindOn e p c (fld v 42 32) (fld v 3 0)
  else (s.plainWrite (bindReg e) [p, c] false v).stopCtx e p c

/-- A write of a register, as its block applies it. -/
def State.regApply (s : State) (r : Reg) (ix : List Nat) (v : W64) : State :=
  let i := ix.headD 0
  let j := (ix.drop 1).headD 0
  match r with
  | .rstCmd => s.rstCmdWrite v
  | .rstBlkctl => s.blkctlWrite v
  | .rstWdog => s.wdogWrite v
  | .rstHbeat => { s with power := { s.power with wdog := 0 } }
  | .rstCsctl => s.csctlWrite v
  | .rstCsaddr => s.plainWrite r ix (s.rf .rstCsctl [] 1 1 == 1) v
  | .pwrCtl => if fld v 1 0 = 1 then s.enterDoze else if fld v 1 0 = 2 then s.enterSleep else s
  | .pwrLease0 => s.leaseWrite false v
  | .pwrLease1 => s.leaseWrite true v
  | .pwrGatereq => s.gatereqWrite v
  | .fltCtl => s.fltCtlWrite i v
  | .fltRoute => if bit (s.reg .rstCoresvc) (fld v 6 0 / 2) then s.plainWrite r ix false v else s
  | .pmcOwn => if 56 ≤ i ∧ fld v 5 0 ≠ 0 then s else s.plainWrite r ix false v
  | .pmcCnt => { s.plainWrite r ix false v with pmcBad := s.pmcBad.filter (· != 8 * i + j) }
  | .pmcGbuf => if s.rf .pmcGctl [i] 63 63 = 1 then s else s.plainWrite r ix false v
  | .pmcGmask0 => if s.rf .pmcGctl [i] 63 63 = 1 then s else s.plainWrite r ix false v
  | .pmcGmask1 => if s.rf .pmcGctl [i] 63 63 = 1 then s else s.plainWrite r ix false v
  | .pmcGctl => s.gctlWrite i v
  | .potBase => s.potbaseWrite v
  | .potCmd => s.potCommand v
  | .trlCtxbase => s.ctxbaseWrite v
  | .trlDtbase => s.plainWrite r ix s.trlOn v
  | .trlPcfg => s.pcfgWrite i v
  | .trlLbase => (s.plainWrite r ix false v).pinSync
  | .trlPlink => s.plinkWrite i v
  | .scnCtl => s.scnCtlWrite v
  | .scnPriv => s.privWrite v
  | .gntKsbase => s.ksbaseWrite v
  | .gntPslot => s.writePslot i v
  | .sveBind => s.bindWrite 0 i j v
  | .gntBind => s.bindWrite 1 i j v
  | .sveJring => if (s.ctx 0 i j).state = 0 then s.plainWrite r ix false v else s
  | .sveCring => if (s.ctx 0 i j).state = 0 then s.plainWrite r ix false v else s
  | .gntJring => if (s.ctx 1 i j).state = 0 then s.plainWrite r ix false v else s
  | .gntCring => if (s.ctx 1 i j).state = 0 then s.plainWrite r ix false v else s
  | _ => s.plainWrite r ix false v

/-- A Secure World store of epoch `ep` to the module register space (R9, R24), queued for the mirror while epochs run
(R155, R382). -/
def State.regStore (s : State) (a : Nat) (v : W64) (ep : Nat := s.scn.epoch) : State :=
  let s1 := if s.scn.running then s.scnRecord (.cfgw (s.recEp ep) a v) else s
  match regAt a with
  | some (r, ix) => s1.regApply r ix v
  | none => s1

/-- A register written by name. -/
def State.regPut (s : State) (r : Reg) (ix : List Nat) (v : W64) : State := s.regStore (r.addr ix) v

/-- A load of thread `m` from the module register space (R9, R24); CFM.STCS latches CFM.STCN for the thread
(R546). -/
def State.regLoad (s : State) (m a : Nat) : W64 × State :=
  match regAt a with
  | none => (0, s)
  | some (.cfmStcs, ix) => (s.regRead .cfmStcs ix, s.modThr m fun t => { t with stcn := s.stampNs })
  | some (.cfmStcn, _) => ((s.thr m).stcn, s)
  | some (r, ix) => (s.regRead r ix, s.afterRead r ix)

/-! ## Doorbell pages (R275, R276, R417, R444) -/

/-- Head and tail of the completion ring of a queue's number, and head of its submission ring. -/
def State.dbIndex (s : State) (q : QueueRef) (k : Nat) : Nat :=
  let sqHead := match s.ringOf q with
    | some (r, _, _) => r.skip.head
    | none => 0
  let cq : Nat × Nat := match q with
    | .sq p set n => match s.cq? p.val set.val n.toNat with
      | some c => (c.head, c.tail)
      | none => (0, 0)
    | .admin p => ((s.admin p.val).cqHead, (s.admin p.val).cqTail)
    | .sieve p c => ((s.ctx 0 p.val c.val).cqHead, (s.ctx 0 p.val c.val).cqTail)
    | .garnet p c => ((s.ctx 1 p.val c.val).cqHead, (s.ctx 1 p.val c.val).cqTail)
  if k = 1 then sqHead else if k = 2 then cq.1 else cq.2

/-- Is the page one of a set that is not enabled? -/
def State.dbOff (s : State) : DbPage → Bool
  | .set p set => !s.setOn p set
  | _ => false

/-- An 8-byte load of thread `m` from a doorbell page. DEDUCED: log 102. DEDUCED: log 103. -/
def State.dbLoad (s : State) (m a : Nat) : W64 × State :=
  let pg := dbPage a
  let off := a % 0x1000
  if s.dbOff pg then (pack [(62, 62, 1)], s)
  else match pg with
    | .control .. => s.regLoad m a
    | _ => match dbQueue pg off with
      | none => (0, s)
      | some q =>
        if off % 0x20 = 0 then s.reserve q (s.thr m).cur.lcore
        else (pack [(31, 0, s.dbIndex q (off % 0x20 / 8))], s)

/-- A store to the SQ doorbell of a queue (R276, R278). -/
def State.sqStore (s : State) (q : QueueRef) (v : W64) : State :=
  if fld v 61 32 ≠ 0 then s.dbIgnored q
  else if fld v 63 62 = 1 then s.markSlot q (fld v 31 0) .ready
  else if fld v 63 62 = 2 then s.markSlot q (fld v 31 0) .released
  else s

/-- An 8-byte store to a doorbell page. On a page of a set that is not enabled every store but one to an SQ doorbell is
discarded and counted (R275); a ready or release store is judged by its slot (R306). -/
def State.dbStore (s : State) (a : Nat) (v : W64) : State :=
  let pg := dbPage a
  let off := a % 0x1000
  match pg, dbQueue pg off with
  | .control .., _ => match regAt a with
    | some (r, ix) => s.regApply r ix v
    | none => s
  | _, none => if s.dbOff pg then s.modTrl fun t => { t with ignored := t.ignored + 1 } else s
  | _, some q =>
    if off % 0x20 = 0 then s.sqStore q v
    else if s.dbOff pg then s.dbIgnored q
    else if off % 0x20 = 0x10 then s.headStore q (fld v 31 0)
    else s

/-! ## Rows -/

/-- A Secure World store of an aligned doubleword reaches its register. -/
def execRegisterWrite (addr : BitVec 48) (value : W64) (s : State) : Host.Outcome State Fault Refusal :=
  .next (if isModReg addr.toNat && addr.toNat % 8 == 0 then s.regStore addr.toNat value else s)

/-- A device load of thread `t` performed ahead of its LOAD: the value is kept for it (R226). It waits for the thread's
earlier device stores to the page (R224). -/
def State.regLoadFor (s : State) (t : ThreadId) (a : Nat) : State :=
  if (s.thr t.val).run != .running || (s.thr t.val).cur.pl != 3 || !isModReg a || a % 8 != 0 || s.pageBusy t.val (a / 4096)
  then s
  else
    let r := (s.hardenThr t.val).regLoad t.val a
    r.2.modThr t.val fun x => { x with devVal := some (a, r.1.toNat) }

/-- A Secure World load of a register with read-side behaviour. -/
def execRegisterRead (t : ThreadId) (addr : BitVec 48) (s : State) : Host.Outcome State Fault Refusal :=
  .next (s.regLoadFor t addr.toNat)

def execCfmStcs (t : ThreadId) (s : State) : Host.Outcome State Fault Refusal :=
  .next (s.regLoadFor t (Reg.cfmStcs.addr []))

/-! ## Rootstock applies objects of effect S (R513, R516, R517) -/

/-- A field of a register that Rootstock copies an object to. -/
def State.copyField (s : State) (r : Reg) (ix : List Nat) (hi lo : Nat) (v : Nat) : State :=
  s.regPut r ix (setFld (s.reg r ix) hi lo v)

/-- Device-table entries that differ from the object's, with FAILED written as 0, once the table has a place; the ports'
FAILED bits follow (R311), and what a new path can send is sent (R301). DEDUCED: log 105. -/
def State.copyDevices (s : State) : State :=
  let base := s.rf .trlDtbase [] 47 16 * 0x10000
  let bs := toBytes 0x400000 (s.odv 0x220000)
  if base = 0 then s
  else ((List.range 12).foldl State.portWorks ((List.range 65536).foldl (fun s d =>
    let e := (bs.drop (64 * d)).take 64
    let clear := fun (b : List Byte) => dwords ((List.range 8).map fun k => setBit (dwordAt b (8 * k)) 62 false)
    if clear (s.homeRd (base + 64 * d) 64) = clear e then s else s.hubWrite (base + 64 * d) (clear e)) s)).sendWaiting

/-- Cores that a partition owns for the counters. -/
def State.ownedCores (s : State) (p : Nat) : List Nat := (List.range 56).filter fun c => s.rf .pmcOwn [c] 5 0 == p

/-- The counter objects of partition `p`. DEDUCED: log 104. -/
def State.applyCounters (s : State) (p item : Nat) : State :=
  let v := s.odv (partObj p item)
  let word := fun (n i : Nat) => BitVec.ofNat 64 (v / 2 ^ (64 * (n - 1 - i)))
  if item = 0x10 then
    (s.ownedCores p).foldl (fun s c => (List.range 8).foldl (fun s k =>
      s.regPut .pmcCtl [c, k] (setBit (setBit (word 8 k) 59 false) 62 false)) s) s
  else if item = 0x12 then
    (s.ownedCores p).foldl (fun s c => (s.regPut .pmcSbuf [c] (word 2 1)).regPut .pmcSctl [c] (word 2 0)) s
  else
    let on := (word 3 0).getLsbD 63
    let g := match s.gathererOf p with
      | some g => some g
      | none => if on then (List.range 15).find? fun g => s.rf .pmcGctl [g] 57 52 == 0 else none
    match g with
    | none => s
    | some g =>
      let s1 := s.copyField .pmcGctl [g] 63 63 0
      let s2 := ((s1.regPut .pmcGbuf [g] (word 3 1)).regPut .pmcGmask0 [g] (word 3 2)).regPut .pmcGmask1 [g] 0
      s2.regPut .pmcGctl [g] (setFld (word 3 0) 57 52 (if on then p else 0))

/-- The register copies of an object. -/
def State.applyS (s : State) (k : Nat) : State :=
  let v := s.odv k
  let g := k / 0x10000
  let item := k % 0x10000
  let port := item / 0x10
  if k = 0x080000 then s.copyField .fltFcfg [] 16 16 v
  else if k = 0x080001 then s.copyField .fltFcfg [] 9 0 v
  else if k = 0x100001 then (List.range 12).foldl (fun s n => s.copyField .mcScrub [n] 7 0 v) s
  else if k = 0x110001 then s.copyField .rstRtycfg [] 15 0 v
  else if k = 0x200000 then s.copyField .trlRdwin [] 19 0 v
  else if k = 0x200001 then s.copyField .trlAckto [] 16 0 v
  else if k = 0x200002 then s.copyField .trlAbto [] 9 0 v
  else if g = 0x21 ∧ item % 0x10 = 0 then s.copyField .trlPlink [port] 47 46 v
  else if g = 0x21 ∧ item % 0x10 = 3 then s.copyField .trlMmioto [port] 16 0 v
  else if g = 0x21 ∧ item % 0x10 = 4 then s.regPut .trlParb [port] (BitVec.ofNat 64 v)
  else if k = 0x220000 then s.copyDevices
  else if k = 0x310003 then s.copyField .scnEpcfg [] 18 0 v
  else if k = 0x310004 then s.copyField .scnEpcfg [] 42 32 v
  else if k = 0x310005 then s.copyField .scnJcfg [] 5 0 v
  else if g = 0x40 ∧ 1 ≤ item ∧ item ≤ 48 then
    s.regPut .gntPslot [item] (pack [(44, 32, fld (BitVec.ofNat 32 v) 28 16), (11, 0, fld (BitVec.ofNat 32 v) 11 0)])
  else if 0x61 ≤ g ∧ g ≤ 0x90 ∧ item = 7 then s.copyField .potPfdis [] (g - 0x60) (g - 0x60) v
  else if 0x61 ≤ g ∧ g ≤ 0x90 ∧ 0x10 ≤ item ∧ item ≤ 0x12 then s.applyCounters (g - 0x60) item
  else s

/-- Every object of effect S, in number order. -/
def objectsS : List Nat :=
  [0x080000, 0x080001, 0x100001, 0x100002, 0x110001, 0x200000, 0x200001, 0x200002] ++
  ((List.range 12).flatMap fun p => [0, 3, 4].map fun k => 0x210000 + 0x10 * p + k) ++
  [0x220000, 0x310003, 0x310004, 0x310005] ++ ((List.range 48).map fun p => 0x400001 + p) ++
  (List.range 48).flatMap fun p => [7, 0x10, 0x11, 0x12].map fun i => partObj (p + 1) i

/-- Rootstock, on thread `t`, reads CFM.CHG and applies the object that it names. -/
def execCfmChg (t : ThreadId) (s : State) : Host.Outcome State Fault Refusal :=
  .next (
    if (s.thr t.val).run != .running || (s.thr t.val).cur.pl != 3 || s.pageBusy t.val (Reg.cfmChg.addr [] / 4096) then s
    else
      let v := s.chgRead
      let s1 := s.regLoadFor t (Reg.cfmChg.addr [])
      let s2 := if bit v 62 then objectsS.foldl State.applyS s1 else s1
      if bit v 63 then s2.applyS (fld v 47 24) else s2)

end Sys2Proof.Machine
end

