-- ==== Sys2Proof/Machine/SrAccess.lean ====
section
/-! DEFINITION. What a state register reads and what a write of one does beyond the thread's own state: interrupts
pending, the time, inter-processor interrupts (02 R40-R50; 17 R469). -/

namespace Sys2Proof.Machine

/-! ## What is pending (R50, R469) -/

/-- Is the thread the one named by FLT.ROUTE? -/
def State.routed (s : State) (m : Nat) : Bool := s.rf .fltRoute [] 6 0 == m

/-- Is the thread the one named by FLT.PROUTE of its partition? -/
def State.partRouted (s : State) (m : Nat) : Bool :=
  let a := (s.thr m).cur
  s.rf .fltProute [a.pid] 21 16 == a.lcore && s.rf .fltProute [a.pid] 0 0 == m % 2

/-- Is a thread a Class 0 responder (SR.TID.C0R)? -/
def Arch.c0r (a : Arch) : Bool := bit (a.srv 4) 32

/-- Is a completion interrupt of level `n`, 1 to 7, pending on thread `m` (R292, R347, R417, R444)? -/
def State.completionIrq (s : State) (m n : Nat) : Bool :=
  let a := (s.thr m).cur
  let me := 2 * a.lcore + m % 2
  let p := a.pid
  let cq := s.trl.cqs.any fun c => c.pid == p && c.cls != 0 && c.level == n && c.live.any CqSlot.irq &&
    Config.irqTo (streamId c.pid c.set c.q) me
  let adm := s.rf .trlAq [p] 7 4 == n && decide ((s.admin p).cqHead < (s.admin p).cqTail) &&
    Config.irqTo (2 ^ 32 + 4096 + p) me
  let job := fun (e : Nat) (r : Reg) (k : Nat) => (List.range k).any fun c =>
    s.rf r [p, c] 3 0 == n && (s.ctx e p c).irqs.any id && Config.irqTo (2 ^ 32 + ctxKey e p c) me
  cq || adm || job 0 .sveBind 15 || job 1 .gntBind 8

/-- Is interrupt level `n` pending on thread `m` (R50)? No Secure level on a Class 0 responder (R51, R329). -/
def State.irqPending (s : State) (m n : Nat) : Bool :=
  let a := (s.thr m).cur
  if 12 ≤ n && a.c0r then false
  else if n = 15 then s.routed m && (s.rf .fltFatal [] 63 63 == 1 || s.scn.roleEvent)
  else if n = 14 then s.routed m && (List.range 0x73).any fun b => s.rf .fltRec [b] 61 60 == 1
  else if n = 13 then s.routed m && s.gateEvent
  else if n = 12 then decide ((a.srv 0x48).toNat ≤ s.srTime.toNat)
  else if n = 11 then a.c0r && s.trl.cqs.any fun c => c.pid == a.pid && c.cls == 0 && c.live.any CqSlot.irq
  else if n = 10 then
    a.pid != 0 && s.partRouted m && (List.range 128).any fun b => s.rf .fltPrec [a.pid, b] 61 60 == 1
  else if n = 9 then (s.thr m).ipi
  else if n = 8 then decide ((a.srv 6).toNat ≤ s.srTime.toNat)
  else if 1 ≤ n then s.completionIrq m n
  else false

/-- SR.IPEND as the thread reads it (R47). -/
def State.ipend (s : State) (m : Nat) : W64 :=
  let top := if (s.thr m).cur.pl = 3 then 15 else 11
  pack (((List.range top).map (· + 1)).map fun n => (n, n, (s.irqPending m n).toNat))

/-! ## State registers (R40-R49) -/

/-- The number in its own bank of a number of the current level's bank (R40). -/
def Arch.srNo (a : Arch) (n : Nat) : Nat := if 0x20 ≤ n ∧ n < 0x28 ∧ 1 ≤ a.pl then bankBase a.pl + n % 8 else n

/-- What an MFSR returns. -/
def State.srRead (s : State) (m : Nat) (a : Arch) (n : Nat) : W64 :=
  let k := a.srNo n
  if k = 5 then s.srTime
  else if k = 7 then s.ipend m
  else
    let v := match srRow k with
      | some r => fieldsRead r.fields (a.srv k)
      | none => 0
    if k = 4 ∧ a.pl ≠ 3 then setFld v 13 8 0 else v

/-- SR.WDEP: a Normal World write changes the fields of its own and of lower levels (R40). -/
def wdepWrite (pl : Nat) (v old : W64) : W64 := setFld old (16 * pl + 15) 0 (fld v (16 * pl + 15) 0)

/-- SR.IPISEND: level 9 becomes pending on the target, if it belongs to the sender's partition (R47). DEDUCED: log 23. -/
def State.ipiSend (s : State) (a : Arch) (v : W64) : State :=
  s.mapThr fun m x =>
    if x.cur.lcore == fld v 21 16 && m % 2 == fld v 0 0 && x.cur.pid == a.pid then { x with ipi := true } else x

/-- Does a write of the register act on what no checkpoint holds: SR.IPEND and SR.IPISEND (R47)? -/
def srOut (k : Nat) : Bool := k == 7 || k == 8

/-- A write of such a register. -/
def State.srOutWrite (s : State) (m k : Nat) (v : W64) (a : Arch) : State :=
  if k = 7 then (if bit v 9 then s.modThr m fun x => { x with ipi := false } else s) else s.ipiSend a v

end Sys2Proof.Machine
end

