-- ==== Sys2Proof/Machine/Routine.lean ====
section
/-! DEFINITION. The micro-routines that a patch puts in the place of the shipped ones (05 R121-R128). A shipped routine is
the meaning of its instruction; a routine that an override names runs here, word by word. -/

namespace Sys2Proof.Machine

/-! ## Queue slots (R87, R127) -/

/-- A slot for a routine: one that an earlier run kept and that is still reserved, else a new one; none where the
queue is full. -/
def State.postSlot (s : State) (m db : Nat) (q : QueueRef) : Option (Nat × State) :=
  let t := s.thr m
  let live := fun (i : Nat) => match s.ringOf q with
    | some (r, _, _) => r.slots.any fun x => x.idx == i && x.st == .reserved
    | none => false
  match t.kept.find? fun k => k.db == db && decide (t.seq < k.seq) && live k.slot with
  | some k => some (k.slot, s.modThr m fun t => { t with kept := t.kept.filter fun x => x ≠ k })
  | none =>
    let r := s.reserve q t.cur.lcore
    if bit r.1 63 then some (fld r.1 31 0, r.2) else none

/-! ## A routine that runs (R122-R128) -/

/-- What a routine has at hand: the shadow of the architected state, the micro-temporaries, the micro-flags, the outcome
of the last check, the queue slots it has reserved by doorbell address, the module with its stores, what its last
commit made architected, and where it goes on after a unit commit that ends its command. -/
structure Micro where
  a : Arch
  temps : Map W64
  flags : BitVec 4
  ok : Bool
  slots : List (Nat × Nat)
  s : State
  base : Arch × State
  committed : Bool

/-- Routine entry clears the micro-temporaries (R122); one that goes on after a unit commit finds them as it left them
(R126). -/
def Micro.start (a : Arch) (s : State) (mid : Option Midway := none) : Micro :=
  match mid with
  | none => ⟨a, [], 0, false, [], s, (a, s), false⟩
  | some d => ⟨a, d.temps, d.flags, d.ok, d.slots, s, (a, s), false⟩

/-- Where the routine stands. -/
def Micro.midway (x : Micro) (upc : Nat) : Midway := ⟨upc, x.temps, x.flags, x.ok, x.slots⟩

/-- The value that a selector names (R122). -/
def Micro.sel (x : Micro) (n : Nat) : W128 :=
  if n < 40 then (x.a.g n).setWidth 128
  else if n < 64 then (Map.get zero64 x.temps (n - 40)).setWidth 128
  else x.a.f (n - 64)

/-- The register is read as written from here on: a load delay that names it ends (R38). -/
def Arch.settled (a : Arch) (isF : Bool) (n : Nat) : Arch :=
  { a with delay := a.delay.filter fun d => !(d.isF == isF && d.reg == n) }

/-- A selector written; a write to selector 0 is discarded (R122). -/
def Micro.put (x : Micro) (n : Nat) (v : W128) : Micro :=
  if n < 40 then { x with a := (x.a.setG n (v.setWidth 64)).settled false n }
  else if n < 64 then { x with temps := Map.set zero64 x.temps (n - 40) (v.setWidth 64) }
  else { x with a := (x.a.setF (n - 64) v).settled true (n - 64) }

/-- Bytes of an access (R121). -/
def microSize (n : Nat) : Nat := if n < 5 then 2 ^ n else 256

/-- The selectors that the data of an access fill, in order, and how many bytes each: a line takes 32 of them. DESIGN
CHOICE: log 150. -/
def microParts (w : MicroWord) : List (Nat × Nat) :=
  if w.msize < 5 then [(w.mdata, microSize w.msize)] else (List.range 32).map fun i => ((w.mdata + i) % 128, 8)

/-- The physical address of an access in its space; `lvl` is the level that owns the frame being spilled or filled
(R121). A doorbell takes 8 bytes (R275). DESIGN CHOICE: log 150, log 176. -/
def microReach (m lvl : Nat) (w : MicroWord) (acs : Acs) (x : Micro) : R (Nat × State) :=
  let va := (x.sel w.maddr).toNat % 2 ^ 64
  let odd : R (Nat × State) := .error (.exc ⟨0x0D, va, 0, acs = .write, false, false⟩ x.s)
  if va % microSize w.msize ≠ 0 then odd
  else if w.mspace < 2 then accessAs m (if w.mspace = 0 then x.a.pl else lvl) acs x.s.isDram va x.s
  else if w.mspace = 2 then (if isDoorbell va && microSize w.msize == 8 then .ok (va, x.s) else odd)
  else if x.a.pl ≠ 3 then .error (.exc (mkExc 0x04 0) x.s)
  else if x.s.isDram va then .ok (va, x.s) else odd

/-- The queue of a doorbell address. -/
def Micro.queue (x : Micro) (w : MicroWord) : Option (Nat × QueueRef) :=
  let db := (x.sel w.maddr).toNat % 2 ^ 64
  if isDoorbell db then (dbQueue (dbPage db) (db % 4096)).map fun q => (db, q) else none

/-- A load of the doorbell range: one of a submission queue's doorbell reserves a slot, which the routine holds; it waits
for the thread's own device stores to the page (R121, R224, R278). -/
def microDoorbell (m pa : Nat) (w : MicroWord) (x : Micro) (s : State) : R Micro :=
  if s.pageBusy m (pa / 4096) then .error .wait
  else
    let plain := fun (r : W64 × State) => .ok (({ x with s := r.2 } : Micro).put w.mdata (r.1.setWidth 128))
    if pa % 0x20 ≠ 0 || s.dbOff (dbPage pa) then plain (s.dbLoad m pa)
    else match x.queue w with
      | none => plain (s.dbLoad m pa)
      | some (db, q) => match s.postSlot m db q with
        | none => plain (0, s)
        | some (i, s1) => .ok (({ x with s := s1, slots := x.slots ++ [(db, i)] } : Micro).put w.mdata ((pack [(63, 63, 1), (31, 0, i)] : W64).setWidth 128))

/-- MEMOP (R121). The number of a reserved slot goes into the MDATA selector; the release of a slot that the run has not
reserved does nothing. DESIGN CHOICE: log 176. -/
def microMem (m lvl : Nat) (w : MicroWord) (x : Micro) : R Micro :=
  let data := (microParts w).flatMap fun p => toBytes p.2 ((x.sel p.1).toNat % 2 ^ (8 * p.2))
  match w.memop with
  | 1 => do
    let (pa, s1) ← microReach m lvl w .read x
    if w.mspace = 2 then microDoorbell m pa w x s1
    else
    let (bs, s2) ← loadMem m pa (microSize w.msize) s1
    let put := fun (r : Micro × List Byte) (p : Nat × Nat) => (r.1.put p.1 (BitVec.ofNat 128 (ofBytes (r.2.take p.2))), r.2.drop p.2)
    .ok ((microParts w).foldl put ({ x with s := s2 }, bs)).1
  | 2 => do
    let (pa, s1) ← microReach m lvl w .write x
    let s2 ← storeMem m pa data (!s1.isDram pa) s1
    .ok { x with s := if isDoorbell pa then s2.modThr m Thread.fence else s2 }
  | 3 => do
    let (pa, s1) ← microReach m lvl w .write x
    let s2 ← ownLine m (lineOf pa) s1
    .ok { x with s := s2 }
  | 4 => match microReach m lvl w .write x with
    | .ok (_, s1) => .ok { x with s := s1, ok := true }
    | .error (.exc _ s1) => .ok { x with s := s1, ok := false }
    | .error h => .error h
  | 5 => match x.queue w with
    | none => .ok { x with ok := false }
    | some (db, q) => if x.s.pageBusy m (db / 4096) then .error .wait else match x.s.postSlot m db q with
      | none => .ok { x with ok := false }
      | some (i, s1) => .ok { ({ x with s := s1, ok := true, slots := x.slots ++ [(db, i)] } : Micro).put w.mdata (BitVec.ofNat 128 i) with
          ok := true }
  | 6 => match x.queue w with
    | none => .ok x
    | some (db, q) =>
      let i := (x.sel w.mdata).toNat % 2 ^ 32
      .ok { x with s := if x.slots.contains (db, i) then x.s.markSlot q i .released else x.s, slots := x.slots.erase (db, i) }
  | 7 => do
    let db := (x.sel w.maddr).toNat % 2 ^ 64
    let s1 ← if isDoorbell db ∧ db % 8 = 0 then storeMem m db (toBytes 8 ((x.sel w.mdata).toNat % 2 ^ 64)) true x.s
      else .error (.exc ⟨0x0D, db, 0, true, false, false⟩ x.s)
    .ok { x with s := s1.modThr m Thread.fence }
  | _ => .ok x

/-- The micro-flags N, Z, V, C of an integer micro-operation (R66). -/
def microFlags (v : W64) (vc : BitVec 2) : BitVec 4 := (pack [(3, 3, (bit v 63).toNat), (2, 2, (v == 0).toNat), (1, 0, vc.toNat)]).setWidth 4

/-- The operations of one word: on the values that its sources had before it, the integer or the floating-point result,
or the state register read, into DEST, the state register written, and the flags; then the memory operation. A write of
SREG writes its register whole. DESIGN CHOICE: log 150, log 176. -/
def microWordOps (m lvl : Nat) (ops : BitVec 18) (w : MicroWord) (x : Micro) : R Micro := do
  let a := (x.sel w.srcA)
  let b := (x.sel w.srcB)
  let u := Config.microUop w.uop w.imm ops (a.setWidth 64) (b.setWidth 64)
  let fl := microFlags u (Config.microVc w.uop w.imm ops (a.setWidth 64) (b.setWidth 64))
  let v : W128 :=
    if w.srctl = 1 then ((x.s.modThr m fun t => { t with cur := x.a }).srRead m x.a w.sreg).setWidth 128
    else if 64 ≤ w.dest then Config.microDop w.dop w.imm a b else u.setWidth 128
  let x1 := ({ x with flags := fl } : Micro).put w.dest v
  let k := x1.a.srNo w.sreg
  let x2 :=
    if w.srctl ≠ 2 then x1
    else if srOut k then { x1 with s := x1.s.srOutWrite m k u x1.a }
    else { x1 with a := x1.a.setSr k u }
  let f : W64 := if w.flg = 1 then fl.setWidth 64 else (Config.microDopCmp w.dop a b).setWidth 64
  let x3 := if w.flg = 0 then x2 else { x2 with a := x2.a.setSr 0 f }
  microMem m lvl w x3

/-- A commit: the shadow and the stores become architected; with a unit commit the unit's work is retired and hardened, the
pc still at the instruction, and the routine goes on from there (R126). With `units` the unit retires as the command ends. -/
def Micro.commit (m : Nat) (units : Bool) (w : MicroWord) (x : Micro) : Micro :=
  if w.commit = 1 then { x with base := (x.a, x.s), committed := true }
  else if w.commit = 2 then
    let a := { x.a with delay := none }
    if units then { x with a := a, base := (a, x.s) } else
    let s := (x.s.modThr m fun t => t.retire a).hardenThr m
    { x with a := a, s := s, base := (a, s) }
  else if x.committed then { x with base := (x.a, x.s) }
  else x

/-- The microaddress after a word, modulo 0x8000; none at the end of the routine. `k` is the branch of a multiway dispatch
(R123). DESIGN CHOICE: log 176. -/
def microNext (pc k : Nat) (w : MicroWord) (x : Micro) : Option Nat :=
  match w.next with
  | 0 => some ((pc + 1) % 0x8000)
  | 1 => some (if Config.microCond w.cond x.flags (x.a.flg.setWidth 4) x.ok then w.target else (pc + 1) % 0x8000)
  | 2 => some ((w.target + k) % 0x8000)
  | _ => none

/-- Slots that a routine has reserved and not posted are released. -/
def freeSlots (l : List (Nat × Nat)) (s : State) : State :=
  l.foldl (fun s k => match dbQueue (dbPage k.1) (k.1 % 4096) with
    | some q => s.markSlot q k.2 .released
    | none => s) s

/-- A routine abandoned at the state `s`: its reservations are released, and its stores since the last commit and what it
wrote outside the thread are as that commit left them (R126, R127). -/
def Micro.abandoned (m : Nat) (x : Micro) (s : State) : State :=
  let s1 := s.modThr m fun t => { t with sb := (x.base.2.thr m).sb }
  freeSlots x.slots (s1.mapThr fun i t => { t with ipi := (x.base.2.thr i).ipi })

/-- The routine from a microaddress on. Until a commit nothing of it is architected; after a routine commit nothing raises
an exception, so a word that would does nothing but lead to the next (R126-R128). With `units` a unit commit ends the
command, and the next one of the instruction goes on from there. A routine that ends without a commit has no effect; one
that never ends never retires. DESIGN CHOICE: log 176. -/
def microRun (m lvl k : Nat) (units : Bool) (ops : BitVec 18) : Nat → Nat → Micro → R (Arch × State)
  | 0, _, _ => .error .wait
  | n + 1, pc, x =>
    let w := MicroWord.ofBits (x.s.microWord (m / 2) pc)
    let go := fun (y : Micro) =>
      let z := y.commit m units w
      match microNext pc k w z with
      | some pc' =>
        if units && w.commit == 2 then .ok (z.base.1, z.base.2.modThr m fun t => { t with mid := some (z.midway pc') })
        else microRun m lvl k units ops n pc' z
      | none =>
        let t := z.base.2.thr m
        let keep := z.slots.map fun e => KeptSlot.mk e.1 e.2 (t.seq + 1)
        .ok (z.base.1, if z.committed then z.base.2.setThr m { t with kept := t.kept ++ keep } else freeSlots z.slots z.base.2)
    let raise := fun (e : Exc) (s : State) => if x.committed then go x else .error (.exc e (x.abandoned m s))
    if w.exc ≠ 0 then raise (mkExc w.exc 0) x.s
    else match microWordOps m lvl ops w x with
      | .ok y => go y
      | .error (.exc e s) => raise e s
      | .error (.poison l s) => if x.committed then go x else .error (.poison l (x.abandoned m s))
      | .error h => .error h

/-- Words that a routine may issue before it is taken never to end. -/
def microFuel : Nat := 0x10000

/-- The routine of a dispatch index: the one that the core's override names, else the one shipped (R124). DEDUCED: log 59. -/
def routine (idx k m lvl : Nat) (ops : BitVec 18) (shipped : Arch → State → R (Arch × State)) (a : Arch) (s : State) :
    R (Arch × State) :=
  match s.override (m / 2) idx with
  | none => shipped a s
  | some e =>
    if !bit e 15 then .error (.exc (mkExc 0x04 0) s)
    else microRun m lvl k false ops microFuel (fld e 14 0) (Micro.start a s)

/-- The routine of an instruction, which goes on to the next one, or after a unit commit of a patched routine stands where it
is (R126). `lvl`: the level that owns the frame it spills. -/
def routineOf (idx k m : Nat) (lvl : Arch → Nat) (ops : BitVec 18) (shipped : Arch → State → R (Arch × State)) (a : Arch) (s : State) :
    R (Arch × State) :=
  match s.override (m / 2) idx with
  | none => shipped a s
  | some e =>
    if !bit e 15 then .error (.exc (mkExc 0x04 0) s)
    else do
      let mid := (s.thr m).mid
      let s0 := s.modThr m fun t => { t with mid := none }
      let (a1, s1) ← microRun m (lvl a) k true ops microFuel ((mid.map Midway.upc).getD (fld e 14 0)) (Micro.start a s0 mid)
      .ok (if (s1.thr m).mid.isSome then a1 else a1.next, s1)

/-- The register fields of an instruction, as a routine has them. -/
def opFields (rd rs rt : BitVec 6) : BitVec 18 := rd ++ rs ++ rt

end Sys2Proof.Machine
end

