-- ==== Sys2Proof/Machine/Run.lean ====
section
/-! DEFINITION. How a thread runs one instruction: spills and fills, exception entry, what is pending, and retirement
(02 R26-R56; 03 R58-R63). -/

namespace Sys2Proof.Machine

/-! ## Spill and fill (R30-R35) -/

/-- Window of the oldest resident frame. -/
def Arch.oldest (a : Arch) : Nat := (a.cwp + 28 - (a.res - 1)) % 28

def winReg (w i : Nat) : Nat := 8 + 24 * w + i

/-- The l and c registers of the frame in window `w`, then the control doublewords (R34). -/
def Arch.record (a : Arch) (w lvl : Nat) : List W64 :=
  (List.range 16).map (fun k => Map.get zero64 a.regs (winReg w k)) ++
  (List.range 8).map (fun k => Map.get zero64 a.regs (winReg ((w + 27) % 28) (16 + k))) ++
  [pack [(63, 56, 0xA5), (9, 8, lvl), (4, 0, w)]] ++ List.replicate 7 0

/-- An exception of a spill or fill (R49). -/
def winExc (code addr : Nat) : Exc := { mkExc code addr with wf := true }

/-- A spill or fill address reached with the translation of level `b`: DRAM only (R33, R35). -/
def recordAccess (m b : Nat) (acs : Acs) (va : Nat) (s : State) : R (Nat × State) :=
  match accessAs m b acs s.isDram va s with
  | .error (.exc e s') => .error (.exc { e with wf := true } s')
  | r => r

/-- The shipped spill of the oldest resident frame (R33). -/
def spillShipped (m : Nat) (a : Arch) (s : State) : R (Arch × State) := do
  let w := a.oldest
  let b := Map.get lvlDefault a.lvls w
  let wsp := (a.srv (0x10 + b)).toNat
  let lim := (a.srv (0x14 + b)).toNat
  let dep := fld (a.srv 0x0A) (16 * b + 15) (16 * b)
  let va := (a.srv (0x10 + b) - 0x100).toNat
  if wsp < lim + 0x100 ∨ dep = 65535 then .error (.exc (winExc 0x0A va) s)
  else
    let (pa, s1) ← recordAccess m b .write va s
    let s2 ← storeMem m pa (dwords (a.record w b)) false s1
    let a1 := a.setSr (0x10 + b) (BitVec.ofNat 64 va)
    let a2 := a1.setSr 0x0A (setFld (a1.srv 0x0A) (16 * b + 15) (16 * b) (dep + 1))
    .ok (a2.setWin a2.cwp (a2.res - 1), s2)

/-- A spill of the oldest resident frame, by the routine of index 0x000 (R33, R124, R125). -/
def spill (m : Nat) (a : Arch) (s : State) : R (Arch × State) :=
  routine 0x000 0 m (Map.get lvlDefault a.lvls a.oldest) 0 (spillShipped m) a s

/-- The shipped fill of the frame below from the save stack of level `b` (R32, R33, R35). CWP and RES are left
to the caller. -/
def fillShipped (m b : Nat) (a : Arch) (s : State) : R (Arch × State) := do
  let wsp := a.srv (0x10 + b)
  let dep := fld (a.srv 0x0A) (16 * b + 15) (16 * b)
  if dep = 0 then .error (.exc (winExc 0x0B 0) s)
  else
    let (pa, s1) ← recordAccess m b .read wsp.toNat s
    let (bs, s2) ← loadMem m pa 256 s1
    let c := dwordAt bs 0xC0
    if fld c 63 56 ≠ 0xA5 ∨ fld c 9 8 ≠ b then .error (.exc (winExc 0x0C wsp.toNat) s2)
    else
      let w := (a.cwp + 27) % 28
      let put := fun (r : Map W64) (p : Nat × Nat) => Map.set zero64 r p.1 (dwordAt bs p.2)
      let ls := (List.range 16).map fun k => (winReg w k, 8 * k)
      let cs := (List.range 8).map fun k => (winReg ((w + 27) % 28) (16 + k), 0x80 + 8 * k)
      let a1 := { a with regs := (ls ++ cs).foldl put a.regs, lvls := Map.set lvlDefault a.lvls w b }
      let a2 := a1.setSr (0x10 + b) (wsp + 0x100)
      .ok (a2.setSr 0x0A (setFld (a2.srv 0x0A) (16 * b + 15) (16 * b) (dep - 1)), s2)

/-- A fill of the frame below from the save stack of level `b`; `idx` is the routine's dispatch index (R124, R125). -/
def fillFrame (idx m b : Nat) (a : Arch) (s : State) : R (Arch × State) := routine idx 0 m b 0 (fillShipped m b) a s

/-! ## Exception and interrupt entry (R51-R56) -/

/-- A double exception: the thread stops and the core records 0x010F (R56). -/
def State.doubleExc (s : State) (m bank code lvl : Nat) : State :=
  let info := pack [(17, 16, bank), (11, 8, lvl), (7, 0, code)]
  let pid := (s.thr m).cur.pid
  let s1 := (s.modThr m fun t => t.hardenAll.stop 0x010F).retryEnds m
  if bank = 3 then s1.coreFault (m / 2) clsFatal 0x010F 0 0 info (some m)
  else s1.coreFault (m / 2) clsContained 0x010F pid 0 info (some m)

/-- The bank an exception is taken in (R52, R53). -/
def excBank (a : Arch) (e : Exc) : Nat :=
  if a.pl = 3 then 3
  else if e.code = 0x13 then 3
  else if a.pl = 2 then 2
  else if e.code = 0x08 ∨ ((e.code = 0x02 ∨ e.code = 0x0E) ∧ e.stg = 2) then 2
  else if e.code < 32 ∧ bit (a.srv 9) e.code then 2
  else 1

/-- The saved SR.ESTAT (R39, R49, R54). -/
def Arch.estat (a : Arch) : W64 :=
  let d := match a.delay with
    | some d => [(45, 45, 1), (44, 44, d.isF.toNat), (43, 38, d.reg)]
    | none => []
  pack ([(63, 60, (a.flg).toNat % 16), (20, 16, a.cwp), (15, 14, a.pl), (13, 13, a.ie.toNat),
    (12, 12, a.fpe.toNat), (11, 8, a.ipl)] ++ d)

/-- The saved registers of steps 2 and 3 of R54; SR.EPC has no bits 1 and 0 (R48). -/
def Arch.enter (a : Arch) (bank : Nat) (epc : W64) (ecause : W64) (far : Nat) (ipl : Nat) : Arch :=
  let k := bankBase bank
  let a1 := (((a.setSr k (setFld epc 1 0 0)).setSr (k + 1) a.estat).setSr (k + 2) ecause).setSr (k + 3) (BitVec.ofNat 64 far)
  let a2 := match a.delay with
    | some d => (a1.setSr (k + 4) (d.old.setWidth 64)).setSr (k + 5)
        (if d.isF then (d.old >>> 64).setWidth 64 else 0)
    | none => a1
  let st := a2.srv 1
  { a2.setSr 1 (setFld (setFld (setFld st 15 14 bank) 13 13 0) 11 8 ipl) with delay := none, rsv := none }

/-- The window advances for an entry to a level (R31). -/
def Arch.advance (a : Arch) (lvl : Nat) : Arch :=
  let w := (a.cwp + 1) % 28
  { a.setWin w (a.res + 1) with lvls := Map.set lvlDefault a.lvls w lvl }

/-- A sample in flight of a thread that enters the Secure World is discarded (R181). -/
def State.dropSample (s : State) (m bank : Nat) : State :=
  if bank = 3 then s.modCore (m / 2) fun c => { c with sample := c.sample.filter fun x => x.thread != m } else s

/-- Slots that a retried XPOST or ECALL kept are released when the run that would use them again is not
made (R127). -/
def State.dropKept (s : State) (m : Nat) : State :=
  let t := s.thr m
  let old := t.kept.filter fun k => decide (t.seq < k.seq)
  let s1 := s.setThr m { t with kept := t.kept.filter fun k => decide (k.seq ≤ t.seq) }
  old.foldl (fun s k => match dbQueue (dbPage k.db) (k.db % 4096) with
    | some q => match s.ringOf q with
      | some (r, _, _) =>
        if r.slots.any fun x => x.idx == k.slot && x.st == .reserved then s.markSlot q k.slot .released else s
      | none => s
    | none => s) s1

/-- Entry to a bank (R54): `epc`, the cause fields, the fault address, the new IPL and the vector
offset. A spill that raises an exception, also one that finds its dispatch entry invalid, makes it a double exception
(R56), and so does one that meets a poisoned line. DEDUCED: log 151. DESIGN CHOICE: log 174. -/
def State.enterBank (s : State) (m bank : Nat) (epc : W64) (ecause : W64) (far ipl vec : Nat)
    (code lvl : Nat) : State :=
  let s := ((s.modThr m Thread.endMid).dropKept m).hardenThr m
  let t := s.thr m
  let a := t.cur
  if bit (a.srv (bankBase bank + 2)) 63 then s.doubleExc m bank code lvl
  else
    let a1 := a.enter bank epc ecause far ipl
    let go := fun (a : Arch) (s : State) =>
      let a2 := { a.advance bank with pc := a.srv (bankBase bank + 6) + BitVec.ofNat 64 vec }
      (s.modThr m fun t => { t.retire a2 with run := .running, hold := none, loop := none }).dropSample m bank
    let s0 := s.setThr m t
    if a1.res = 27 then
      match spill m a1 s0 with
      | .ok (a2, s1) => go a2 s1
      | .error (.exc _ s1) => s1.doubleExc m bank code lvl
      | .error (.poison _ s1) => s1.doubleExc m bank code lvl
      | .error (.evict c v) => s.wbData c v
      | .error _ => s
    else go a1 s0

/-- A fill fault of ERET rewrites the bank's cause, with BUSY = 1, and continues at its vector (R55). DESIGN CHOICE: log 173. -/
def Arch.eretFault (a : Arch) (e : Exc) : Arch :=
  let k := bankBase a.pl
  let c := pack [(63, 63, 1), (19, 18, e.stg), (17, 17, e.wr.toNat), (16, 16, 1), (15, 15, 1), (7, 0, e.code)]
  let a1 := (a.next.setSr (k + 2) c).setSr (k + 3) (BitVec.ofNat 64 e.addr)
  { a1 with pc := a.srv (k + 6) + BitVec.ofNat 64 (e.code * 0x100), rsv := none }

/-- An instruction takes an exception (R52-R55). The entry for a Store Loss hardens as it is made, so that the loss it
reports is not lost with it (R241); until it is made the loss stays pending. -/
def State.takeExc (s : State) (m : Nat) (e : Exc) : State :=
  let a := (s.thr m).cur
  let nextPc := e.code = 0x07 || e.code = 0x08 || e.code = 0x13
  let epc := if nextPc then a.pc + 4 else a.pc
  let bank := excBank a e
  let cause := pack [(63, 63, 1), (19, 18, e.stg), (17, 17, e.wr.toNat), (16, 16, e.wf.toNat), (7, 0, e.code)]
  let s1 := if nextPc then s.modThr m fun t => { t with cur := { t.cur with delay := none } } else s
  if e.rf then s.modThr m fun t => { t.retire (a.eretFault e) with loop := none, hold := none }
  else
    let s2 := s1.enterBank m bank epc cause e.addr (fld (a.srv 1) 11 8) (e.code * 0x100) e.code 0
    if e.code = 0x12 && (s2.thr m).seq != (s1.thr m).seq then
      (s2.modThr m fun t => { t with losses := [] }).hardenThr m
    else s2

/-- A poisoned line consumed: the thread stops at its last hardened checkpoint and the home slice
records 0x0203 (R215). -/
def State.consumePoison (s : State) (m line : Nat) : State :=
  let a := (s.thr m).cur
  let k := sliceOf line
  let s1 := (s.modThr m fun t => t.stop 0x0203).retryEnds m
  s1.faultAt (blkSlice k) (blkSlice k)
    ⟨if a.pl = 3 then clsFatal else clsContained, 0x0203, a.chkPid, line * 256, 0, some m⟩

/-- A retire group waits for the Scion backlog and is counted; a backlog at T has the epoch close, however it came there
(R377, R386). -/
def State.stallThread (s : State) (m : Nat) : State :=
  let s := s.budgetClose
  if s.scn.stalled.contains m then s
  else { s with scn := { s.scn with stalled := s.scn.stalled ++ [m], stalls := min (s.scn.stalls + 1) 0xFFFFFFFF } }

/-! ## What may be taken (R51) -/

/-- The bank in which thread state `a` takes a pending interrupt of level `n`; none where it does not. -/
def irqBank (a : Arch) (n : Nat) : Option Nat :=
  let on := a.ie && decide (a.ipl < n)
  if 12 ≤ n then if a.pl ≠ 3 ∨ on then some 3 else none
  else if a.pl = 3 ∨ !on then none
  else if bit (a.srv 9) (32 + n) then some 2
  else if a.pl = 2 then none
  else some 1

/-- The highest level from `n` down that is pending and may be taken, with its bank. -/
def State.takeable (s : State) (m : Nat) : Nat → Option (Nat × Nat)
  | 0 => none
  | n + 1 =>
    match if s.irqPending m (n + 1) then irqBank (s.thr m).cur (n + 1) else none with
    | some b => some (n + 1, b)
    | none => s.takeable m n

/-- Interrupt entry: SR.EPC names the next instruction to run. The spec states no SR.FAULTADDR for it. DESIGN CHOICE: log 128. -/
def State.takeIrq (s : State) (m n bank : Nat) : State :=
  let far := s.draw
  let cause := pack [(63, 63, 1), (23, 20, n), (8, 8, 1)]
  far.2.enterBank m bank (s.thr m).cur.pc cause far.1.toNat n (0x2000 + n * 0x100) 0 n

/-- The interrupt that thread `m` takes at this boundary, with its bank. Attempts 2 and 3 of a retry and an answered
device load that has not hardened defer it (R141, R226). -/
def State.irqAt (s : State) (m : Nat) : Option (Nat × Nat) :=
  let x := s.thr m
  if (decide (2 ≤ (s.core (m / 2)).attempts) && (s.core (m / 2)).alone == m % 2) || (x.devVal.isSome && x.groups.isEmpty) then none else s.takeable m 15

/-! ## One instruction -/

/-- An exception of a thread or the entry of an interrupt, `s1`, of the state `s`: a retire group, which waits
for the backlog like any other (R377). -/
def State.entryOr (s s1 : State) (m : Nat) : State :=
  let t := s.thr m
  let u := s1.thr m
  if s.stalled && u.run == .running && decide ((ckDelta t.snap t.cur).length < (ckDelta u.snap u.cur).length)
  then s.stallThread m else s1

/-- What the end of an instruction brings with it: it may stand in a constrained loop; it is the LDRV or STCD of one,
which keep it themselves; it writes SR.STAT, which acts at the next boundary (R85); or it is any other. Both last kinds
end a loop, unless they branch back to its LDRV (R78). -/
inductive InstrEnd where
  | inside
  | own
  | stat
  | other
  deriving DecidableEq, Repr

/-- The constrained loop after an instruction of thread `t` that leaves state `a`. -/
def Thread.loopAfter (t : Thread) (k : InstrEnd) (a : Arch) : Option Loop :=
  match k with
  | .own => t.loop
  | .inside => (t.loop.map fun l => { l with count := l.count + 1 }).filter fun l => decide (l.count < 16)
  | .stat | .other => t.loop.filter fun l => l.start == a.pc

/-- Thread `m` retires an instruction with the architected state `a`; a stall and the count of abandonments of
its address end (R63, R78, R130, R377), and a hold ends with its reservation (R214). A reservation that others' stores have
been ordered after ends with its loop. A unit of a patched routine ends with a hardened checkpoint (R126). -/
def State.retireTo (s : State) (m : Nat) (a : Arch) (k : InstrEnd := .other) : State :=
  let t0 := s.thr m
  let t := if a.pc = t0.cur.pc then t0 else t0.endMid
  let lp := t.loopAfter k a
  let a := if lp.isNone && t.loop.any (fun l => !l.late.isEmpty) then { a with rsv := none } else a
  let s1 := s.setThr m { t.retire a with
    abandons := t.abandons.filter fun p => p.1 != t.cur.pc, loop := lp, hold := if a.rsv.isNone then none else t.hold }
  let s2 := { s1 with scn := { s1.scn with stalled := s1.scn.stalled.filter (· != m) } }
  if t.mid.isSome then s2.hardenThr m else s2

/-- How often the routine at the pc has been abandoned for interrupts in succession (R130). -/
def Thread.abandoned (t : Thread) : Nat :=
  match t.abandons.find? fun p => p.1 == t.cur.pc with
  | some p => p.2
  | none => 0

/-- Does an exception come of a fault? TRAP, HCALL, BRK and SECALL raise theirs as their effect. -/
def Exc.isFault (e : Exc) : Bool := !(e.code == 0x07 || e.code == 0x08 || e.code == 0x09 || e.code == 0x13)

/-- The interrupt that an MTSR to SR.STAT enables is taken before the next instruction (R85). -/
def State.irqAfter (s : State) (m : Nat) : State :=
  match s.irqAt m with
  | some (n, bank) => s.entryOr (s.takeIrq m n bank) m
  | none => s

/-- Does a doorbell address name a submission queue of Class 0 (R274, R377)? -/
def State.c0Doorbell (s : State) (db : Nat) : Bool :=
  match dbQueue (dbPage db) (db % 0x1000) with
  | some (.sq p set q) => (s.sq? p.val set.val q.toNat).any fun x => x.cls == 0
  | _ => false

/-- Has the instruction that thread `m` is about to retire posted to a Class 0 queue (R377)? -/
def State.c0Post (s : State) (m : Nat) : Bool :=
  (s.thr m).kept.any fun k => k.seq == (s.thr m).seq + 1 && s.c0Doorbell k.db

/-- The instruction's own outcome applied to the module: retirement, an exception, a stop, or a
wait that leaves everything as it was but for a dirty line that begins to leave. Before a fault goes the interrupt that
is enabled and pending at the boundary before the instruction (R53), unless eight abandonments defer interrupts in this
run (R130). DEDUCED: log 133. -/
def State.settle (s : State) (m : Nat) (r : R (Arch × State)) (k : InstrEnd := .other) : State :=
  match r with
  | .ok (a, s') =>
    let t := s'.thr m
    if (if s'.c0Post m then s'.stalledC0 else s'.stalled) &&
        decide ((ckDelta t.snap t.cur).length < (ckDelta t.snap a).length) then s.stallThread m
    else
      let s1 := s'.retireTo m a k
      if k = .stat then s1.irqAfter m else s1
  | .error (.exc e s') =>
    match if e.isFault && decide ((s.thr m).abandoned < 8) then s.irqAt m else none with
    | some (n, bank) => s.entryOr (s.takeIrq m n bank) m
    | none => s.entryOr (s'.takeExc m e) m
  | .error (.poison line s') => s'.consumePoison m line
  | .error .wait => s
  | .error (.evict c v) => s.wbData c v
  | .error .stall => s.stallThread m

/-- The fetch of the instruction at the pc (R61, R171, R191, R215; DESIGN CHOICE, log 16). -/
def fetchAt (m : Nat) (s : State) : R State := do
  let a := (s.thr m).cur
  if fld a.pc 1 0 ≠ 0 then .error (.exc (mkExc 0x01 a.pc.toNat) s)
  else
    let (pa, s1) ← access m a.pl .fetch a.pc.toNat s
    match s1.acquire (m / 2) a.chkPid (lineOf pa) false with
    | none => .error (s1.waits (m / 2) (lineOf pa))
    | some s2 =>
      if s2.poisoned (lineOf pa) then .error (.poison (lineOf pa) s2) else .ok (s2.l1Read true (m / 2) (lineOf pa))

/-- Is every register field one that R28 allows? -/
def regsOk (rs : List (BitVec 6)) : Bool := rs.all fun r => decide (r.toNat < 40)

/-- Does a retry let thread `m` issue: on attempts 2 and 3 the thread whose group failed runs alone
(R141) while it runs at all, and a core that waits for its sparing runs nothing (R147)? -/
def State.retryLets (s : State) (m : Nat) : Bool :=
  let c := s.core (m / 2)
  c.due.isNone && (decide (c.attempts < 2) || c.alone == m % 2 || !(s.thr (m / 2 * 2 + c.alone)).active)

/-- Can the thread take an instruction: it runs, its core's island runs, the module is in Run, no planned
switch-over holds issue (R396), no device load of it is unanswered, and the pairing role executes partitions, if it is
in the Normal World (R20)? -/
def State.canRun (s : State) (m : Nat) : Bool :=
  (s.thr m).run == .running && (s.thr m).devLoad.isNone && s.islRuns (m / 2) && s.power.state == .run &&
  s.scn.switchOver.isNone && s.retryLets m && ((s.thr m).cur.pl == 3 || !(decide (2 ≤ s.scn.role) && decide (s.scn.role ≤ 4)))

/-- The state after the fetch of an instruction that thread `m` can take: it runs, the fetch passes its checks, and
no backlog holds its retirement; none otherwise. -/
def State.fetched (s : State) (m : Nat) : Option State :=
  if !s.canRun m then none
  else match fetchAt m s with
    | .ok s1 => if s1.stalled then none else some s1
    | .error _ => none

/-- One instruction of thread `t`: fetch, the checks of R52 in their priority, then its effect.
`legal` and `rs` decide Illegal Instruction (R60), `minLvl` Privileged Instruction, `fp` FP
Disabled (R37); `k` says what it does to a constrained loop. -/
def runInstr (t : ThreadId) (minLvl : Nat) (fp legal : Bool) (rs : List (BitVec 6))
    (body : Arch → State → R (Arch × State)) (s : State) (k : InstrEnd := .other) : State :=
  let m := t.val
  if !s.canRun m then s
  else s.settle m (do
    let s1 ← fetchAt m s
    let a := (s1.thr m).cur
    if !legal || !regsOk rs then .error (.exc (mkExc 0x04 0) s1)
    else if a.pl < minLvl then .error (.exc (mkExc 0x05 0) s1)
    else if fp && !a.fpe then .error (.exc (mkExc 0x06 0) s1)
    else body a s1) k

/-- An instruction that only changes its thread's architected state. -/
def runPure (t : ThreadId) (fp legal : Bool) (rs : List (BitVec 6)) (f : Arch → Arch) (s : State)
    (k : InstrEnd := .other) : State :=
  runInstr t 0 fp legal rs (fun a s => .ok (f a, s)) s k

end Sys2Proof.Machine
end

