-- ==== Sys2Proof/Machine/Float.lean ====
section
/-! DEFINITION. Floating-point instructions (03 R92, R93; 04 R101-R116). -/

namespace Sys2Proof.Machine

def fmtOf : FpFmt → Fmt
  | .b32 => Fmt.b32
  | .b64 => Fmt.b64
  | .b128 => Fmt.b128
  | .d64 => Fmt.d64
  | .d128 => Fmt.d128

/-- Register fields of the operation that name integer registers (R92). -/
def fpIntRegs (op : FpOp) (rd rs : BitVec 6) : List (BitVec 6) :=
  match op with
  | .cvti _ | .movfi | .movfih => [rd]
  | .cvtf _ | .movif | .movifh => [rs]
  | _ => []

/-- Is the format one of the group's? MOVFI and MOVFIH ignore it (R92). -/
def fpLegal (dec : Bool) (fmt : FpFmt) (op : FpOp) : Bool :=
  match op with
  | .movfi | .movfih => true
  | _ => (fmtOf fmt).dec == dec

/-- Flags raised: a trap if one is enabled, else ORed into SR.FPSR before the result is written
(R109, R110). -/
def fpFinish (a : Arch) (s : State) (fl : Fl) (k : Arch → Arch) : R (Arch × State) :=
  let fpsr := a.srv 3
  if fld fpsr 12 8 &&& fl.bits ≠ 0 then .error (.exc (mkExc 0x11 0) s)
  else .ok (k (a.next.setSr 3 (setFld fpsr 4 0 (fld fpsr 4 0 ||| fl.bits))), s)

/-- An operation of the FPB or FPD group (R92). -/
def fpBody (fmt : FpFmt) (op : FpOp) (rd rs rt : Nat) (a : Arch) (s : State) : R (Arch × State) :=
  let f := fmtOf fmt
  let v := Env.ofFpsr (a.srv 3)
  let x := f.operand v (a.f rs)
  let y := f.operand v (a.f rt)
  let out := fun (g : Fmt) (o : FpOut) => fpFinish a s o.fl fun a => a.setF rd (g.write o.val)
  let move := fun (k : Nat) => (.ok (a.next.setF rd (fpMove f k (a.f rs)), s) : R (Arch × State))
  match op with
  | .add => out f (fpAdd f v x y)
  | .sub => out f (fpSub f v x y)
  | .mul => out f (fpMul f v x y)
  | .div => out f (fpDiv f v x y)
  | .sqrt => out f (fpSqrt f v x)
  | .min => out f (fpMinMax f v false x y)
  | .max => out f (fpMinMax f v true x y)
  | .cmp =>
    let c := fpCmp f x y
    fpFinish a s c.2 fun a => a.setSr 0 (Nzvc.word ⟨c.1.1, c.1.2.1, c.1.2.2, false⟩)
  | .cvt g => out (fmtOf g) (fpConv f (fmtOf g) v x)
  | .cvti sg =>
    let r := fpToInt f v sg x
    fpFinish a s r.2 fun a => a.setG rd (BitVec.ofNat 64 r.1)
  | .cvtf sg => out f (fpOfInt f v sg (a.g rs))
  | .movfi => .ok (a.next.setG rd ((a.f rs).setWidth 64), s)
  | .movfih => .ok (a.next.setG rd ((a.f rs >>> 64).setWidth 64), s)
  | .movif => .ok (a.next.setF rd ((a.g rs).setWidth 128), s)
  | .movifh => .ok (a.next.setF rd (setFld (a.f rd) 127 64 (a.g rs).toNat), s)
  | .mov => move 0
  | .neg => move 1
  | .abs => move 2

def execFpb (t : ThreadId) (fmt : FpFmt) (op : FpOp) (rd rs rt : BitVec 6) (s : State) :
    Host.Outcome State Fault Refusal :=
  .next (runInstr t 0 true (fpLegal false fmt op) (fpIntRegs op rd rs)
    (fpBody fmt op rd.toNat rs.toNat rt.toNat) s)

/-- DDIV.128 and DSQRT.128 run in the control store (R124). -/
def fpdRoutine (fmt : FpFmt) (op : FpOp) : Bool := fmt == .d128 && (op == .div || op == .sqrt)

def execFpd (t : ThreadId) (fmt : FpFmt) (op : FpOp) (rd rs rt : BitVec 6) (s : State) :
    Host.Outcome State Fault Refusal :=
  .next (runInstr t 0 true
    (fpLegal true fmt op && (!fpdRoutine fmt op || s.csOk (t.val / 2) 0x334)) (fpIntRegs op rd rs)
    (if fpdRoutine fmt op then
      routineOf 0x334 (if op = .div then 3 else 4) t.val Arch.pl (opFields rd rs rt) (fpBody fmt op rd.toNat rs.toNat rt.toNat)
    else fpBody fmt op rd.toNat rs.toNat rt.toNat) s)

def execDquant (t : ThreadId) (fmt : FpFmt) (fd fs ft : BitVec 6) (s : State) :
    Host.Outcome State Fault Refusal :=
  .next (runInstr t 0 true (fmtOf fmt).dec [] (fun a s =>
    let f := fmtOf fmt
    let v := Env.ofFpsr (a.srv 3)
    let o := fpQuant f v (f.operand v (a.f fs.toNat)) (f.operand v (a.f ft.toNat))
    fpFinish a s o.fl fun a => a.setF fd.toNat (f.write o.val)) s)

/-- fs × ft + fa, or − fa for the FMS forms (R93). -/
def execFma (t : ThreadId) (fmt : FpFmt) (sub : Bool) (fd fs ft fa : BitVec 6) (s : State) :
    Host.Outcome State Fault Refusal :=
  .next (runInstr t 0 true true [] (fun a s =>
    let f := fmtOf fmt
    let v := Env.ofFpsr (a.srv 3)
    let c := f.operand v (a.f fa.toNat)
    let o := fpFma f v (f.operand v (a.f fs.toNat)) (f.operand v (a.f ft.toNat)) (if sub then c.negate else c)
    fpFinish a s o.fl fun a => a.setF fd.toNat (f.write o.val)) s)

end Sys2Proof.Machine
end

