-- ==== Sys2Proof/Machine/Control.lean ====
section
/-! DEFINITION. Branches, calls, returns, traps and the return from an exception (02 R31-R36, R55;
03 R80-R83, R86). -/

namespace Sys2Proof.Machine

/-- A signed word offset from the instruction's own address (R59). -/
def relTarget {w : Nat} (pc : W64) (disp : BitVec w) : W64 := pc + (disp.signExtend 64 <<< 2)

def Arch.goto (a : Arch) (pc : W64) : Arch := { a.next with pc := pc }

def execBcc (t : ThreadId) (cond : BitVec 4) (disp : BitVec 16) (s : State) :
    Host.Outcome State Fault Refusal :=
  .next (runPure t false (cond != 15) [] (fun a =>
    if bccTaken cond.toNat (Nzvc.ofWord a.flg) = some true then a.goto (relTarget a.pc disp) else a.next) s)

def execBrr (t : ThreadId) (cond : BitVec 4) (rs : BitVec 6) (disp : BitVec 16) (s : State) :
    Host.Outcome State Fault Refusal :=
  .next (runPure t false (decide (cond.toNat < 8)) [rs] (fun a =>
    if brrTaken cond.toNat (a.g rs.toNat) = some true then a.goto (relTarget a.pc disp) else a.next) s)

def execBr (t : ThreadId) (disp : BitVec 26) (s : State) : Host.Outcome State Fault Refusal :=
  .next (runPure t false true [] (fun a => a.goto (relTarget a.pc disp)) s)

/-- rd is written after rs is read (R82). -/
def execJr (t : ThreadId) (rd rs : BitVec 6) (imm : BitVec 14) (s : State) :
    Host.Outcome State Fault Refusal :=
  .next (runPure t false true [rd, rs] (fun a =>
    (a.goto (a.g rs.toNat + sext64 14 imm)).setG rd.toNat (a.pc + 4)) s)

/-- The spills of a CALL, which leaves RES at most 26: one at RES = 26, and two at RES = 27, where a handler entered at
RES = 26 calls. The pseudocode of R82 names RES = 26 alone. A spill that faults leaves the thread as it was. DESIGN
CHOICE: log 152. -/
def callSpills (m : Nat) (a : Arch) (s : State) : R (Arch × State) :=
  if a.res < 26 then .ok (a, s)
  else if a.res = 26 then spill m a s
  else match spill m a s with
    | .ok (a1, s1) =>
      match spill m a1 s1 with
      | .error (.exc e s2) => .error (.exc e (s2.setThr m (s.thr m)))
      | r => r
    | r => r

/-- CALL and CALLR (R31, R82). -/
def callBody (m : Nat) (target : CallTarget) (a : Arch) (s : State) : R (Arch × State) := do
  let dest := match target with
    | .rel d => relTarget a.pc d
    | .reg rs imm => a.g rs.toNat + sext64 14 imm
  let (a1, s1) ← callSpills m a s
  let a2 := (a1.next.advance a.pl).setG 15 (a.pc + 4)
  .ok ({ a2 with pc := dest }, s1)

def callRegs : CallTarget → List (BitVec 6)
  | .rel _ => []
  | .reg rs _ => [rs]

def execCall (t : ThreadId) (target : CallTarget) (s : State) : Host.Outcome State Fault Refusal :=
  .next (runInstr t 0 false true (callRegs target) (callBody t.val target) s)

/-- The window back to the frame below, filled from the save stack of level `b` if it is not
resident (R32). -/
def windowBack (idx m b : Nat) (a : Arch) (s : State) : R (Arch × State) := do
  let (a1, s1) ← if a.res = 1 then fillFrame idx m b a s else .ok (a, s)
  .ok (a1.setWin ((a.cwp + 27) % 28) (if a.res = 1 then 1 else a.res - 1), s1)

def execRet (t : ThreadId) (s : State) : Host.Outcome State Fault Refusal :=
  .next (runInstr t 0 false true [] (fun a s => do
    let dest := a.g 15
    let (a1, s1) ← windowBack 1 t.val a.pl a s
    .ok (a1.goto dest, s1)) s)

def execNop (t : ThreadId) (s : State) : Host.Outcome State Fault Refusal :=
  .next (runPure t false true [] Arch.next s)

/-- Windows that hold a resident Normal World frame, newest first (R36). -/
def Arch.normalWins (a : Arch) : List Nat :=
  ((List.range a.res).map fun i => (a.cwp + 28 - i) % 28).filter fun w => Map.get lvlDefault a.lvls w != 3

/-- The clearing of R36 on a transfer from the Secure to the Normal World. -/
def Arch.clearWins (a : Arch) : Arch :=
  let keep := a.normalWins
  let below := match keep.getLast? with
    | some w => [(w + 27) % 28]
    | none => []
  let ls := (List.range 28).filter fun w => !keep.contains w
  let ds := ls.filter fun w => !below.contains w
  let slots := ls.flatMap (fun w => (List.range 16).map (winReg w)) ++
    ds.flatMap (fun w => (List.range 8).map fun k => winReg w (16 + k))
  { a with regs := slots.foldl (fun r k => Map.erase r k) a.regs }

/-- What ERET restores from the bank of level `b` (R55), in the window already moved back. -/
def Arch.restore (a : Arch) (b : Nat) : Arch :=
  let k := bankBase b
  let es := a.srv (k + 1)
  let st := pack [(15, 14, fld es 15 14), (13, 13, fld es 13 13), (12, 12, fld es 12 12), (11, 8, fld es 11 8)]
  let dl := if bit es 45 then
      let lo := (a.srv (k + 4)).setWidth 128
      let hi := (a.srv (k + 5)).setWidth 128 <<< 64
      some (Delay.mk (bit es 44) (fld es 43 38) (if bit es 44 then hi ||| lo else lo))
    else none
  let a1 := ((a.setSr 1 st).setSr 0 (BitVec.ofNat 64 (fld es 63 60))).setSr (k + 2) (setBit (a.srv (k + 2)) 63 false)
  let a2 := { a1 with delay := dl, rsv := none, pc := a.srv k }
  if a.pl = 3 ∧ fld es 15 14 ≠ 3 then a2.clearWins else a2

/-- ERET. A fault of its fill is one that R55 describes, except that an invalid dispatch entry makes the instruction
illegal (R124). -/
def eretBody (m : Nat) (a : Arch) (s : State) : R (Arch × State) :=
  let dest := fld (a.srv (bankBase a.pl + 1)) 15 14
  if a.pl < dest then .error (.exc (mkExc 0x05 0) s)
  else match windowBack 2 m dest a s with
    | .ok (a1, s1) => .ok (a1.restore a.pl, s1)
    | .error (.exc e s1) => .error (.exc (if e.code = 0x04 then e else { e with wf := true, rf := true }) s1)
    | .error h => .error h

/-- A Secure World thread that returns to the Normal World after a FATAL stops there (R471). -/
def State.fatalReturn (s : State) (m : Nat) (before : Nat) : State :=
  let t := s.thr m
  if before = 3 ∧ t.cur.pl ≠ 3 ∧ s.rf .fltFatal [] 63 63 = 1 then s.modThr m fun t => t.hardenAll.stop 0 else s

def execEret (t : ThreadId) (s : State) : Host.Outcome State Fault Refusal :=
  .next ((runInstr t 1 false true [] (eretBody t.val) s).fatalReturn t.val (s.thr t.val).cur.pl)

/-- An instruction whose effect is to raise an exception. -/
def runRaise (t : ThreadId) (legal : Bool) (code : Nat) (s : State) : State :=
  runInstr t 0 false legal [] (fun _ s => .error (.exc (mkExc code 0) s)) s

/-- Illegal in the Secure World (R83, R86). -/
def State.normal (s : State) (t : ThreadId) : Bool := (s.thr t.val).cur.pl != 3

def execSecall (t : ThreadId) (s : State) : Host.Outcome State Fault Refusal :=
  .next (runInstr t 0 false (s.normal t && s.csOk (t.val / 2) 0x2F0) []
    (routineOf 0x2F0 8 t.val Arch.pl 0 fun _ s => .error (.exc (mkExc 0x13 0) s)) s)

def execHcall (t : ThreadId) (s : State) : Host.Outcome State Fault Refusal :=
  .next (runRaise t (s.normal t) 0x08 s)

/-- The argument is a number for software and has no effect of its own (R83). -/
def execTrap (t : ThreadId) (_n : BitVec 8) (s : State) : Host.Outcome State Fault Refusal :=
  .next (runRaise t true 0x07 s)

def execBrk (t : ThreadId) (s : State) : Host.Outcome State Fault Refusal :=
  .next (runRaise t true 0x09 s)

/-- One unit: the oldest frame spilled, unless only one is resident. The instruction goes on while more are (R36, R125,
R127). -/
def wflushBody (m : Nat) (a : Arch) (s : State) : R (Arch × State) :=
  if a.res ≤ 1 then .ok (a.next, s)
  else do
    let (a1, s1) ← spillShipped m a s
    .ok (if a1.res ≤ 1 then a1.next else { a1 with delay := none }, s1)

/-- The result of an instruction that is performed as it retires: its group hardens at once. -/
def State.hardenNew (s : State) (m : Nat) (s' : State) : State :=
  if (s'.thr m).seq = (s.thr m).seq then s' else s'.hardenThr m

/-- Each unit ends with a hardened checkpoint (R126). -/
def execWflush (t : ThreadId) (s : State) : Host.Outcome State Fault Refusal :=
  .next (s.hardenNew t.val (runInstr t 1 false (s.csOk (t.val / 2) 0x2F1) []
    (routineOf 0x2F1 8 t.val (fun a => Map.get lvlDefault a.lvls a.oldest) 0 (wflushBody t.val)) s))

/-- The thread stops issue once the WAIT has retired (R83). -/
def execWait (t : ThreadId) (s : State) : Host.Outcome State Fault Refusal :=
  .next (runInstr t 1 false true [] (fun a s =>
    .ok (a.next, s.modThr t.val fun x => { x with run := .waiting })) s)

end Sys2Proof.Machine
end

