-- ==== Sys2Proof/Machine/Illegal.lean ====
section
/-! DEFINITION. Words that are no instruction (03 R60, R62). -/

namespace Sys2Proof.Machine

/-- A word that is no instruction takes Illegal Instruction; any other word has a command of its own. -/
def execIllegalInstruction (t : ThreadId) (word : BitVec 32) (s : State) : Host.Outcome State Fault Refusal :=
  .next (if (decodeKza t word).isSome then s else runRaise t false 0x04 s)

end Sys2Proof.Machine
end

