-- ==== Sys2Proof/Machine/Integer.lean ====
section
/-! DEFINITION. Integer, logical, shift, bit and CRC instructions (03 R65-R71; 04 R94-R96). -/

namespace Sys2Proof.Machine

/-- A flag-setting result: the register, and SR.FLG for the F forms (R66). -/
def Arch.setGF (a : Arch) (rd : Nat) (v : W64) (f : Bool) (fl : Nzvc) : Arch :=
  let a1 := a.setG rd v
  if f then a1.setSr 0 fl.word else a1

def execAluGroup (t : ThreadId) (op : AluOp) (f : Bool) (rd rs rt : BitVec 6) (s : State) :
    Host.Outcome State Fault Refusal :=
  .next (runPure t false (!f || aluHasF op) [rd, rs, rt] (fun a =>
    let x := a.g rs.toNat
    let y := a.g rt.toNat
    let c := bit a.flg 0
    a.next.setGF rd.toNat (aluVal op x y c) f (aluFlags op x y c)) s .inside)

/-- imm14: sign-extended, but zero-extended for ANDI, ORI and XORI (R59). -/
def immVal (op : ImmOp) (imm : BitVec 14) : W64 :=
  match op with
  | .andi | .ori | .xori => zext64 imm
  | _ => sext64 14 imm

def immResult (op : ImmOp) (x y : W64) : W64 :=
  match op with
  | .addi | .addif => x + y
  | .subif => x - y
  | .andi => x &&& y
  | .ori => x ||| y
  | .xori => x ^^^ y
  | .muli => x * y

def execImmediate (t : ThreadId) (op : ImmOp) (rd rs : BitVec 6) (imm : BitVec 14) (s : State) :
    Host.Outcome State Fault Refusal :=
  .next (runPure t false true [rd, rs] (fun a =>
    let x := a.g rs.toNat
    let y := immVal op imm
    match op with
    | .addif => a.next.setGF rd.toNat (x + y) true (addFlags x y false)
    | .subif => a.next.setGF rd.toNat (x - y) true (subFlags x y false)
    | _ => a.next.setG rd.toNat (immResult op x y)) s .inside)

/-- The register form that a shift by an immediate stands for (R67). -/
def shiftAlu : ShiftOp → AluOp × Bool
  | .slli => (.sll, false)
  | .sllif => (.sll, true)
  | .srli => (.srl, false)
  | .srlif => (.srl, true)
  | .srai => (.sra, false)
  | .sraif => (.sra, true)
  | .roli => (.rol, false)
  | .rori => (.ror, false)

def execShifti (t : ThreadId) (op : ShiftOp) (rd rs : BitVec 6) (amount : BitVec 6) (s : State) :
    Host.Outcome State Fault Refusal :=
  .next (runPure t false true [rd, rs] (fun a =>
    let k := shiftAlu op
    let x := a.g rs.toNat
    let y := zext64 amount
    a.next.setGF rd.toNat (aluVal k.1 x y false) k.2 (aluFlags k.1 x y false)) s .inside)

def execLdi (t : ThreadId) (rd : BitVec 6) (imm : BitVec 20) (s : State) : Host.Outcome State Fault Refusal :=
  .next (runPure t false true [rd] (fun a => a.next.setG rd.toNat (sext64 20 imm)) s)

/-- imm20 × 2^12, sign-extended from bit 31 (R67). -/
def execLdu (t : ThreadId) (rd : BitVec 6) (imm : BitVec 20) (s : State) : Host.Outcome State Fault Refusal :=
  .next (runPure t false true [rd] (fun a =>
    a.next.setG rd.toNat (sext64 32 (imm.setWidth 32 <<< 12))) s)

def execAddpc (t : ThreadId) (rd : BitVec 6) (imm : BitVec 20) (s : State) : Host.Outcome State Fault Refusal :=
  .next (runPure t false true [rd] (fun a =>
    a.next.setG rd.toNat (a.pc + (sext64 20 imm <<< 12))) s)

/-- A divisor of zero takes Divide Check and writes nothing (R68, R95). -/
def execMuldiv (t : ThreadId) (op : MulOp) (f : Bool) (rd rs rt : BitVec 6) (s : State) :
    Host.Outcome State Fault Refusal :=
  .next (runInstr t 0 false (!f || mulHasF op) [rd, rs, rt] (fun a s =>
    match mulDiv op (a.g rs.toNat) (a.g rt.toNat) with
    | none => .error (.exc (mkExc 0x10 0) s)
    | some r => .ok (a.next.setGF rd.toNat r.1 f r.2, s)) s)

def execBitGroup (t : ThreadId) (op : BitOp) (rd rs : BitVec 6) (s : State) :
    Host.Outcome State Fault Refusal :=
  .next (runPure t false true [rd, rs] (fun a => a.next.setG rd.toNat (bitVal op (a.g rs.toNat))) s)

def execCrc (t : ThreadId) (poly : CrcPoly) (width : BitVec 2) (rd rs rt : BitVec 6) (s : State) :
    Host.Outcome State Fault Refusal :=
  .next (runPure t false true [rd, rs, rt] (fun a =>
    a.next.setG rd.toNat (crcVal (2 ^ width.toNat) poly (a.g rs.toNat) (a.g rt.toNat))) s)

end Sys2Proof.Machine
end

