-- ==== Sys2Proof/Machine/Memory.lean ====
section
/-! DEFINITION. Loads, stores, atomics and the posting routines, the drains of the store and combining
buffers, and the MMIO side of the ports (03 R72-R79, R87-R91; 09 R220-R245; 05 R126, R127). -/

namespace Sys2Proof.Machine

/-! ## Addresses and values (R59, R72) -/

/-- The address of format C or of the MEMX group. -/
def Arch.addr (a : Arch) : AddrMode → Nat
  | .disp rb d => (a.g rb.toNat + sext64 14 d).toNat
  | .index rs rt => (a.g rs.toNat + a.g rt.toNat).toNat

def modeRegs : AddrMode → List (BitVec 6)
  | .disp rb _ => [rb]
  | .index rs rt => [rs, rt]

def loadSize : LoadOp → Nat
  | .ldb | .ldbu => 1
  | .ldh | .ldhu => 2
  | .ldw | .ldwu | .ldfs => 4
  | .ldd | .ldfd => 8
  | .ldfq => 16

def loadIsF : LoadOp → Bool
  | .ldfs | .ldfd | .ldfq => true
  | _ => false

/-- The register value of the bytes read, as a number. -/
def loadVal (op : LoadOp) (n : Nat) : W128 :=
  let x := BitVec.ofNat 64 n
  match op with
  | .ldb => (sext64 8 x).setWidth 128
  | .ldh => (sext64 16 x).setWidth 128
  | .ldw => (sext64 32 x).setWidth 128
  | _ => BitVec.ofNat 128 n

def storeSize : StoreOp → Nat
  | .stb => 1
  | .sth => 2
  | .stw | .stfs => 4
  | .std | .stfd => 8
  | .stfq => 16

def storeIsF : StoreOp → Bool
  | .stfs | .stfd | .stfq => true
  | _ => false

/-- The low `k` bytes of a value. -/
def lowBytes {w : Nat} (k : Nat) (v : BitVec w) : List Byte := toBytes k v.toNat

/-- Alignment (data) at a virtual address (R72, R73). -/
def misaligned {α : Type} (va : Nat) (wr : Bool) (s : State) : R α := .error (.exc ⟨0x0D, va, 0, wr, false, false⟩ s)

/-- Does a physical address take a plain access of `n` bytes: a doorbell page and the module registers take 8 bytes
(R9, R73, R275)? -/
def State.takes (n : Nat) (s : State) (pa : Nat) : Bool := s.isDram pa || !(isDoorbell pa || isModReg pa) || n == 8

/-- A naturally aligned access of `n` bytes to what takes one of its size, translated and checked (R52, R72, R73). -/
def reach (m n : Nat) (acs : Acs) (va : Nat) (a : Arch) (s : State) : R (Nat × State) :=
  if va % n ≠ 0 then misaligned va (acs = .write) s else accessAs m a.pl acs (s.takes n) va s

/-- One that must reach DRAM (R73). -/
def reachDram (m n : Nat) (acs : Acs) (va : Nat) (a : Arch) (s : State) : R (Nat × State) :=
  if va % n ≠ 0 then misaligned va (acs = .write) s else accessAs m a.pl acs s.isDram va s

/-! ## Device loads (R221, R224, R226, R242, R389) -/

/-- Has a port held an earlier store of the thread to the page for a commit (R389)? -/
def State.pageHeld (s : State) (m pa : Nat) : Bool :=
  (s.mmioPort (Machine.mmioPort pa)).held.any fun h =>
    h.2.addr / 4096 == pa / 4096 && h.2.thread == 2 * (s.thr m).cur.lcore + m % 2

/-- A device load: its value, once the target has answered; an MMIO load is sent first and completes by its
own row. -/
def deviceLoad (m pa : Nat) (op : LoadOp) (rd : Nat) (s : State) : R (Option Nat × State) :=
  if s.pageBusy m (pa / 4096) then .error .wait
  else
    let s1 := s.hardenThr m
    match (s1.thr m).devVal with
    | some (k, v) => if k = pa then .ok (some v, s1) else go (s1.modThr m fun t => { t with devVal := none })
    | none => go s1
where
  go (s : State) : R (Option Nat × State) :=
    if isMmio pa then
      if s.pageHeld m pa then .ok (none, s.epochClose)
      else if !s.transmits then .error .wait
      else .ok (none, s.modThr m fun t => { t with devLoad := some ⟨Machine.mmioPort pa, pa, op, rd⟩ })
    else
      let r := if isDoorbell pa then s.dbLoad m pa else s.regLoad m pa
      .ok (some r.1.toNat, r.2.modThr m fun t => { t with devVal := some (pa, r.1.toNat) })

/-- The loaded value put into its register. -/
def Arch.loadTo (a : Arch) (op : LoadOp) (rd n : Nat) : Arch :=
  if loadIsF op then a.next.loadF (a.rawF rd) rd (loadVal op n)
  else a.next.loadG (a.raw rd) rd ((loadVal op n).setWidth 64)

/-- A load; none where an MMIO load has been sent and not answered. -/
def loadBody (m : Nat) (op : LoadOp) (rd : Nat) (mode : AddrMode) (a : Arch) (s : State) : R (Option Arch × State) := do
  let n := loadSize op
  let va := a.addr mode
  let (pa, s1) ← reach m n .read va a s
  if s1.isDram pa then
    let (bs, s2) ← loadMem m pa n s1
    .ok (some (a.loadTo op rd (ofBytes bs)), s2)
  else
    let (v, s2) ← deviceLoad m pa op rd s1
    .ok (v.map fun v => a.loadTo op rd v, s2)

/-- An instruction that may be left unanswered: it has not retired then, and the same command ends it later. -/
def State.settleOpen (s : State) (m : Nat) : R (Option Arch × State) → State
  | .ok (none, s') => s'
  | .ok (some a, s') => s.settle m (.ok (a, s'))
  | .error h => s.settle m (.error h)

def execLoad (t : ThreadId) (op : LoadOp) (rd : BitVec 6) (mode : AddrMode) (s : State) :
    Host.Outcome State Fault Refusal :=
  let m := t.val
  let f := loadIsF op
  .next (
    if !s.canRun m then s
    else s.settleOpen m (do
      let s1 ← fetchAt m s
      let a := (s1.thr m).cur
      if !regsOk ((if f then [] else [rd]) ++ modeRegs mode) then .error (.exc (mkExc 0x04 0) s1)
      else if f && !a.fpe then .error (.exc (mkExc 0x06 0) s1)
      else loadBody m op rd.toNat mode a s1))

/-- LDPC: the literal at a multiple of 8 from the instruction (R67). -/
def execLdpc (t : ThreadId) (rd : BitVec 6) (imm : BitVec 20) (s : State) : Host.Outcome State Fault Refusal :=
  let m := t.val
  .next (
    if !s.canRun m then s
    else s.settleOpen m (do
      let s1 ← fetchAt m s
      let a := (s1.thr m).cur
      let va := a.pc - BitVec.ofNat 64 (fld a.pc 2 0) + (sext64 20 imm <<< 3)
      if !regsOk [rd] then .error (.exc (mkExc 0x04 0) s1)
      else
        let (pa, s2) ← reach m 8 .read va.toNat a s1
        if s2.isDram pa then
          let (bs, s3) ← loadMem m pa 8 s2
          .ok (some (a.loadTo .ldd rd.toNat (ofBytes bs)), s3)
        else
          let (v, s3) ← deviceLoad m pa .ldd rd.toNat s2
          .ok (v.map fun v => a.loadTo .ldd rd.toNat v, s3)))

/-! ## Stores (R72, R74, R230, R231, R233) -/

/-- A store to the reserved line by the thread itself ends its reservation (R76). -/
def Arch.storeAt (a : Arch) (pa : Nat) : Arch := a.dropRsv (lineOf pa)

/-- A store of bytes to a translated address: to DRAM through the store buffer, or a device store; a doorbell
store lets nothing merge across it. -/
def storeTo (m pa : Nat) (bs : List Byte) (s : State) : R State :=
  if s.isDram pa then storeMem m pa bs false s
  else do
    let s1 ← storeMem m pa bs true s
    .ok (if isDoorbell pa then s1.modThr m Thread.fence else s1)

def storeBody (m : Nat) (op : StoreOp) (rd : Nat) (mode : AddrMode) (a : Arch) (s : State) : R (Arch × State) := do
  let n := storeSize op
  let va := a.addr mode
  let (pa, s1) ← reach m n .write va a s
  let bs := if storeIsF op then lowBytes n (a.f rd) else lowBytes n (a.g rd)
  let s2 ← storeTo m pa bs s1
  .ok (a.next.storeAt pa, s2)

def execStore (t : ThreadId) (op : StoreOp) (rd : BitVec 6) (mode : AddrMode) (s : State) :
    Host.Outcome State Fault Refusal :=
  .next (runInstr t 0 (storeIsF op) true ((if storeIsF op then [] else [rd]) ++ modeRegs mode)
    (storeBody t.val op rd.toNat mode) s)

/-- A non-temporal store into the combining buffer, merged in place with the line's earlier ones (R233). Earlier stores
of the thread to the line go first (R224); a ninth line needs the oldest to leave, and a line of a closed epoch its own
(R244). -/
def combStore (m pa : Nat) (bs : List Byte) (s : State) : R State :=
  let line := lineOf pa
  let t := s.thr m
  let add := fun (s : State) => s.modThr m fun t => { t with cb := t.cb ++ [⟨line, [s.newStore m pa bs]⟩] }
  let merge := fun (l : CbLine) => { l with stores := l.stores ++ [s.newStore m pa bs] }
  if t.sb.any fun e => !e.device && e.line == line then .error .wait
  else
    match s.inCb m line, t.cb with
    | some l, _ =>
      if l.ep = some s.scn.epoch then .ok (s.setThr m { t with cb := t.cb.map fun x => if x.line = line then merge x else x })
      else match s.combLeave m l with
        | some s1 => .ok (add s1)
        | none => .error .wait
    | none, l :: _ =>
      if t.cb.length < 8 then .ok (add s)
      else match s.combLeave m l with
        | some s1 => .ok (add s1)
        | none => .error .wait
    | none, [] => .ok (add s)

/-- STNT (8 bytes) and STNTF (16). -/
def execStnt (t : ThreadId) (f : Bool) (rd rb : BitVec 6) (disp : BitVec 14) (s : State) :
    Host.Outcome State Fault Refusal :=
  .next (runInstr t 0 f true ((if f then [] else [rd]) ++ [rb]) (fun a s => do
    let n := if f then 16 else 8
    let (pa, s1) ← reachDram t.val n .write (a.addr (.disp rb disp)) a s
    let s2 ← combStore t.val pa (if f then lowBytes 16 (a.f rd.toNat) else lowBytes 8 (a.g rd.toNat)) s1
    .ok (a.next.storeAt pa, s2)) s)

/-- PREF: a line requested for reading (hint 0) or with exclusive ownership (hint 1); what would fault, waits, or
is poisoned does nothing (R74, R215). DEDUCED: log 110. -/
def prefBody (m : Nat) (hint : Nat) (va : Nat) (a : Arch) (s : State) : State :=
  if 1 < hint then s
  else match access m a.pl .read va s with
    | .error _ => s
    | .ok (pa, s1) =>
      if !s1.isDram pa || s1.poisoned (lineOf pa) then s
      else match s1.gain (m / 2) (lineOf pa) (hint == 1) with
        | some s2 => s2
        | none => match s1.inTheWay (m / 2) (lineOf pa) with
          | some v => s1.wbData (m / 2) v
          | none => s

def execPref (t : ThreadId) (hint rb : BitVec 6) (disp : BitVec 14) (s : State) : Host.Outcome State Fault Refusal :=
  .next (runInstr t 0 false true [rb] (fun a s =>
    .ok (a.next, prefBody t.val hint.toNat (a.addr (.disp rb disp)) a s)) s)

/-! ## Reserved load, conditional store and atomics (R75-R79, R214) -/

/-- Ownership of a line, with the thread's own earlier stores to it performed (R224, R232): they harden first. -/
def ownAndDrain (m line : Nat) (s : State) : R State := do
  let s1 := s.hardenThr m
  let s2 ← ownLine m line s1
  s2.drainLine m line

/-- The doubleword or word read under ownership. -/
def ownedRead (m pa n : Nat) (s : State) : R (Nat × State) := do
  let s1 ← ownAndDrain m (lineOf pa) s
  if s1.poisoned (lineOf pa) then .error (.poison (lineOf pa) s1) else .ok (ofBytes (s1.rd pa n), s1)

/-- After an LDRV the L2 holds snoops for the line, unless a hold of it has run out since the last snoop; the iteration of a
constrained loop that completes has its hold (R78, R214). DEDUCED: log 147. -/
def Thread.takeHold (line : Nat) (t : Thread) : Thread :=
  { t with hold := if t.spentHold.contains line && !t.loopSure then none else some line }

/-- An LDRV begins a constrained loop, or an iteration of the one that runs (R78). -/
def Thread.loopStart (pc : W64) (line : Nat) (t : Thread) : Thread :=
  let fails := match t.loop with
    | some l => if l.start = pc ∧ l.line = line then l.fails else 0
    | none => 0
  { t with loop := some ⟨pc, line, 1, fails, []⟩ }

def execLdrv (t : ThreadId) (rd rb : BitVec 6) (disp : BitVec 14) (s : State) : Host.Outcome State Fault Refusal :=
  .next (runInstr t 0 false true [rd, rb] (fun a s => do
    let (pa, s1) ← reachDram t.val 8 .read (a.addr (.disp rb disp)) a s
    let (v, s2) ← ownedRead t.val pa 8 s1
    .ok ({ a.loadTo .ldd rd.toNat v with rsv := some (lineOf pa) },
      s2.modThr t.val fun x => (x.loopStart a.pc (lineOf pa)).takeHold (lineOf pa))) s .own)

/-- Is the STCD that of the constrained loop that runs (R78)? -/
def Thread.inLoop (line : Nat) (t : Thread) : Bool := t.loop.any fun l => l.line == line && decide (l.count < 16)

/-- What an STCD leaves of the constrained loop: none after a success, one failure more after a failure. -/
def Thread.loopEnd (line : Nat) (stored : Bool) (t : Thread) : Thread :=
  { t with loop := if stored || !t.inLoop line then none else t.loop.map fun l => { l with fails := l.fails + 1, late := [] } }

/-- An atomic or STCD, a store to line `line`, waits for the stores that a barrier puts before it (R235). -/
def storesFirst (m : Nat) (s : State) : R State :=
  let t := s.thr m
  if t.olderGen t.barGen then .error .wait else .ok s

/-- STCD; `fail`: the module fails it although the reservation is valid, which it does not in two iterations of a
constrained loop after each other; bytes that a store ordered after it has written keep their value (R77, R78). DESIGN
CHOICE: log 109. -/
def stcdBody (m : Nat) (fail : Bool) (rd rt rs : Nat) (a : Arch) (s : State) : R (Arch × State) := do
  let (pa, s1) ← reachDram m 8 .write (a.g rs).toNat a s
  let s1 ← storesFirst m s1
  let line := lineOf pa
  let off := fun (ok : Bool) (s : State) => s.modThr m fun t => { t.loopEnd line ok with hold := none }
  let bad : R (Arch × State) := .ok ({ a.next.setG rd 1 with rsv := none }, off false (s1.modThr m Thread.fence))
  let sure := (s1.thr m).loopSure && (s1.thr m).inLoop line
  if a.rsv ≠ some line ∨ (fail ∧ !sure) then bad
  else
    let s2 ← ownAndDrain m line s1
    if (s2.thr m).cur.rsv ≠ some (lineOf pa) then bad
    else if s2.storeStalls (m / 2) (lineOf pa) then .error .stall
    else
      let late := ((s2.thr m).loop.map Loop.late).getD []
      let bs := (lowBytes 8 (a.g rt)).mapIdx fun i b => if late.contains (pa + i) then s2.rdByte (pa + i) else b
      let s3 := (s2.modThr m Thread.fence).l2Write (m / 2) pa bs
      .ok ({ a.next.setG rd 0 with rsv := none }, off true s3)

def execStcd (t : ThreadId) (fail : Bool) (rd rt rs : BitVec 6) (s : State) : Host.Outcome State Fault Refusal :=
  .next (s.hardenNew t.val (runInstr t 0 false true [rd, rt, rs] (stcdBody t.val fail rd.toNat rt.toNat rs.toNat) s .own))

/-- The new memory value, of width `w` bits; none where CAS does not store (R79). -/
def atomNew (w : Nat) (op : AtomOp) (old rt rd : Nat) : Option Nat :=
  let y := rt % 2 ^ w
  match op with
  | .swap => some y
  | .cas => if old = rd % 2 ^ w then some y else none
  | .aadd => some ((old + y) % 2 ^ w)
  | .aand => some (old &&& y)
  | .aor => some (old ||| y)
  | .axor => some (old ^^^ y)

def atomBody (m : Nat) (op : AtomOp) (dbl : Bool) (rd rs rt : Nat) (a : Arch) (s : State) : R (Arch × State) := do
  let n := if dbl then 8 else 4
  let (pa, s1) ← reachDram m n .write (a.g rs).toNat a s
  let s1 ← storesFirst m s1
  let (old, s2) ← ownedRead m pa n s1
  if s2.storeStalls (m / 2) (lineOf pa) then .error .stall
  else
    let s3 := s2.modThr m Thread.fence
    let r := a.loadTo .ldd rd old
    match atomNew (8 * n) op old (a.g rt).toNat (a.g rd).toNat with
    | some v => .ok (r.storeAt pa, s3.l2Write (m / 2) pa (toBytes n v))
    | none => .ok (r, s3)

def execAtomGroup (t : ThreadId) (op : AtomOp) (dbl : Bool) (rd rs rt : BitVec 6) (s : State) :
    Host.Outcome State Fault Refusal :=
  .next (s.hardenNew t.val (runInstr t 0 false true [rd, rs, rt] (atomBody t.val op dbl rd.toNat rs.toNat rt.toNat) s))

/-! ## BMOV (R91) -/

/-- Physical addresses of `n` bytes of DRAM from a virtual address on, a piece for each 256 bytes. -/
def bytesAt (m : Nat) (acs : Acs) (a : Arch) : Nat → Nat → Nat → State → R (List Nat × State)
  | 0, _, _, s => .ok ([], s)
  | fuel + 1, va, n, s =>
    if n = 0 then .ok ([], s)
    else do
      let k := min n (256 - va % 256)
      let (pa, s1) ← reachDram m 1 acs va a s
      let (r, s2) ← bytesAt m acs a fuel ((va + k) % 2 ^ 64) (n - k) s1
      .ok ((List.range k).map (pa + ·) ++ r, s2)

/-- Bytes at physical addresses, read by lines. -/
def readAt (m : Nat) : List Nat → State → R (List Byte × State)
  | [], s => .ok ([], s)
  | p :: ps, s => do
    let (b, s1) ← loadMem m p 1 s
    let (bs, s2) ← readAt m ps s1
    .ok (b ++ bs, s2)

/-- What copying one byte at a time in ascending order leaves at each destination: a source byte that an earlier
byte of the unit was copied to is that copy. -/
def copyUp : List (Nat × Byte) → List (Nat × Nat × Byte) → List Byte
  | _, [] => []
  | done, (src, dst, b) :: rest =>
    let v := match done.find? fun d => d.1 == src with
      | some d => d.2
      | none => b
    v :: copyUp ((dst, v) :: done) rest

/-- One unit, up to a 256-byte boundary of the destination, ending at a commit point; the copy goes on at the
same instruction while bytes are left. DEDUCED: log 106. -/
def bmovBody (m : Nat) (rd rs rt : Nat) (a : Arch) (s : State) : R (Arch × State) := do
  let len := (a.g rt).toNat
  let dst := (a.g rd).toNat
  let src := (a.g rs).toNat
  if len = 0 then .ok (a.next, s)
  else
    let n := min len (256 - dst % 256)
    let (sp, s1) ← bytesAt m .read a 3 src n s
    let (dp, s2) ← bytesAt m .write a 3 dst n s1
    let (bs, s3) ← readAt m sp s2
    let out := copyUp [] (sp.zip (dp.zip bs))
    let s4 ← storeMem m (dp.headD 0) out false s3
    let k := BitVec.ofNat 64 n
    let a1 := (((a.next.setG rd (a.g rd + k)).setG rs (a.g rs + k)).setG rt (a.g rt - k)).storeAt (dp.headD 0)
    .ok (if n = len then a1 else { a1 with pc := a.pc }, s4)

def execBmov (t : ThreadId) (rd rs rt : BitVec 6) (s : State) : Host.Outcome State Fault Refusal :=
  let ok := rd != rs && rd != rt && rs != rt && rd != 0 && rs != 0 && rt != 0
  .next (s.hardenNew t.val (runInstr t 0 false (ok && s.csOk (t.val / 2) 0x3A0) [rd, rs, rt]
    (routineOf 0x3A0 0 t.val Arch.pl (opFields rd rs rt) (bmovBody t.val rd.toNat rs.toNat rt.toNat)) s))

/-! ## XPOST and ECALL (R87-R90, R127, R278, R280) -/

/-- What a posting routine needs of a queue: its reference, whether it takes reservations, and the address and
size of its ring. -/
structure PostQueue where
  ref : QueueRef
  on : Bool
  base : Nat
  size : Nat

/-- The queue that a doorbell address names for XPOST (`eng` none) or ECALL; none where there is none. -/
def State.postQueue (s : State) (eng : Option Nat) (pa : Nat) : Option PostQueue :=
  if !isDoorbell pa then none
  else match dbQueue (dbPage pa) (pa % 0x1000), eng with
    | some (.sq p set q), none =>
      if pa % 0x20 ≠ 0 then none
      else (s.sq? p.val set.val q.toNat).map fun x => ⟨.sq p set q, x.enabled && s.setOn p.val set.val, x.base, 2 ^ x.k⟩
    | some (.sieve p c), some 0 =>
      if pa % 0x1000 ≠ 0 then none
      else some ⟨.sieve p c, (s.ctx 0 p.val c.val).state == 1, s.rf .sveJring [p.val, c.val] 47 12 * 4096, s.jobSize 0 p.val c.val⟩
    | some (.garnet p c), some 1 =>
      if pa % 0x1000 ≠ 0 then none
      else some ⟨.garnet p c, (s.ctx 1 p.val c.val).state == 1, s.rf .gntJring [p.val, c.val] 47 12 * 4096, s.jobSize 1 p.val c.val⟩
    | _, _ => none

/-- The result of R89. -/
def postWord (status seg slot : Nat) : W64 := pack [(63, 56, status), (39, 32, seg), (31, 0, slot)]

/-- Where the DLIST doubleword lies, and the number of descriptors, NSEG as it stands, 17 to 31 too
(DESIGN CHOICE, log 158). DEDUCED: log 107. -/
def postShape (eng : Option Nat) (b : List Byte) : Nat × Nat :=
  match eng with
  | none => (0x38, ecbNseg b)
  | some e => (0x10, jobNseg e b)

/-- The physical start of the descriptor array: every page that it touches translated. None where its pages do
not follow one another or it leaves its granule. -/
def arrayAt (m va n : Nat) (a : Arch) (s : State) : R (Option Nat × State) := do
  let pages := (List.range ((va + n - 1) / 4096 - va / 4096 + 1)).map fun i => if i = 0 then va else (va / 4096 + i) * 4096
  let step := fun (r : R (List Nat × State)) (v : Nat) => do
    let (ps, s) ← r
    let (pa, s1) ← reachDram m 1 .read v a s
    (.ok (ps ++ [pa], s1) : R (List Nat × State))
  let (ps, s1) ← pages.foldl step (.ok ([], s))
  let p0 := ps.headD 0
  let run := (ps.mapIdx fun i p => (i, p)).all fun x => x.1 == 0 || x.2 == (p0 / 4096 + x.1) * 4096
  .ok (if run && oneGranule p0 n then some p0 else none, s1)

/-- Exclusive ownership of each descriptor's line in turn; the first one that the host does not own. -/
def flagsFree (m va pa : Nat) (a : Arch) : Nat → Nat → State → R (Option Nat × State)
  | 0, _, s => .ok (none, s)
  | n + 1, i, s => do
    let (_, s1) ← reachDram m 16 .write (va + 16 * i) a s
    let s2 ← ownLine m (lineOf (pa + 16 * i)) s1
    if s2.poisoned (lineOf (pa + 16 * i)) then .error (.poison (lineOf (pa + 16 * i)) s2)
    else if fld (dwordAt (s2.view m (pa + 16 * i) 8) 0) 63 62 ≠ 0 then .ok (some i, s2)
    else flagsFree m va pa a n (i + 1) s2

/-- The flag bytes after the commit point; the thread holds their lines until they are performed (R88). -/
def flagStores (m pa : Nat) (c0 : Bool) : Nat → Nat → State → R State
  | 0, _, s => .ok s
  | n + 1, i, s => do
    let b := (s.view m (pa + 16 * i) 1).headD 0
    let s1 ← storeMem m (pa + 16 * i) [b ||| 0x40] false s c0 true
    flagStores m pa c0 n (i + 1) s1

/-- The part after the commit point: the image into its slot, the flags, the doorbell. -/
def postCommit (m db slotPa arr nseg slot : Nat) (img : List Byte) (s : State) : R State := do
  let c0 := s.c0Doorbell db
  let s1 ← storeMem m slotPa img false s c0
  let s2 ← flagStores m arr c0 nseg 0 s1
  let s3 ← storeMem m db (toBytes 8 (2 ^ 62 + slot)) true s2
  .ok ((s3.modThr m Thread.fence).modThr m fun t => { t with kept := t.kept ++ [⟨db, slot, t.seq + 1⟩] })

/-- After the reservation: a routine that does not post releases its slot (R88, R127). It waits for the thread's stores from
before a barrier, so that the flags it writes wait for none while it holds their lines. -/
def postSlotted (m db va : Nat) (q : PostQueue) (slot : Nat) (off nseg : Nat) (img : List Byte) (a : Arch) (s : State) :
    R (W64 × State) := do
  let drop := fun (s : State) => s.markSlot q.ref slot .released
  let w := dwordAt img off
  let (arr, s1) ← if nseg = 0 then .ok (some 0, s) else arrayAt m va (16 * nseg) a s
  match arr with
  | none => .ok (postWord 4 0 0, drop s1)
  | some pa =>
    let (bad, s2) ← if nseg = 0 then .ok (none, s1) else storesFirst m s1 >>= flagsFree m va pa a nseg 0
    match bad with
    | some i => .ok (postWord 2 i 0, drop s2)
    | none =>
      let at_ := q.base + 128 * (slot % q.size)
      if !s2.isDram at_ then misaligned at_ true s2
      else if !s2.ownOk (some (m / 2)) (a.pl = 3) a.chkPid false at_ then
        .error (.exc ⟨0x0F, at_, 0, true, false, false⟩ (s2.ownRefuse (m / 2) at_))
      else
        let dl := if nseg = 0 then setBit w 0 false else setBit (setFld w 47 4 (pa / 16)) 0 false
        let b := img.take off ++ toBytes 8 dl.toNat ++ img.drop (off + 8)
        let s3 ← postCommit m db at_ pa nseg slot b s2
        .ok (postWord 0 0 slot, s3)

/-- An exception of a routine whose slot is reserved releases it. -/
def releasing (q : QueueRef) (slot : Nat) : R (W64 × State) → R (W64 × State)
  | .error (.exc e s) => .error (.exc e (s.markSlot q slot .released))
  | .error (.poison l s) => .error (.poison l (s.markSlot q slot .released))
  | r => r

/-- The reservation is a load of the doorbell page, so it waits for the thread's own device stores to that page (R224). -/
def postBody (m : Nat) (eng : Option Nat) (rd rs rt : Nat) (a : Arch) (s : State) : R (Arch × State) := do
  let (pa, s1) ← reachDram m 128 .read (a.g rs).toNat a s
  let (img, s2) ← loadMem m pa 128 s1
  let (db, s3) ← access m a.pl .write (a.g rt).toNat s2
  let give := fun (w : W64) (s : State) => (.ok (a.next.setG rd w, s) : R (Arch × State))
  match s3.postQueue eng db with
  | none => give (postWord 5 0 0) s3
  | some q =>
    if !q.on then give (postWord 3 0 0) s3
    else if s3.pageBusy m (db / 4096) then .error .wait
    else match s3.postSlot m db q.ref with
      | none => give (postWord 1 0 0) s3
      | some (slot, s5) =>
        let sh := postShape eng img
        let (w, s6) ← releasing q.ref slot
          (postSlotted m db (fld (dwordAt img sh.1) 47 4 * 16) q slot sh.1 sh.2 img a s5)
        give w s6

def execXpost (t : ThreadId) (rd rs rt : BitVec 6) (s : State) : Host.Outcome State Fault Refusal :=
  .next (runInstr t 0 false (s.normal t && s.csOk (t.val / 2) 0x380) [rd, rs, rt]
    (routineOf 0x380 0 t.val Arch.pl (opFields rd rs rt) (postBody t.val none rd.toNat rs.toNat rt.toNat)) s)

def execEcall (t : ThreadId) (e : Engine) (rd rs rt : BitVec 6) (s : State) : Host.Outcome State Fault Refusal :=
  .next (runInstr t 0 false (s.normal t && s.csOk (t.val / 2) 0x390) [rd, rs, rt]
    (routineOf 0x390 (engineNo e) t.val Arch.pl (opFields rd rs rt)
      (postBody t.val (some (engineNo e)) rd.toNat rs.toNat rt.toNat)) s)

/-! ## Drains (R231-R235, R227, R228) -/

/-- Has every store of an entry hardened? -/
def Thread.hardened (t : Thread) (e : SbEntry) : Bool := e.stores.all fun x => decide (x.seq ≤ t.hseq)

/-- The oldest entry of a line drains: no entry of an earlier barrier group is left, and the line's ownership is
gained, where a dirty line may have to leave first (R207, R232, R235); a line that the other thread holds for a descriptor's
flag is waited for (R88). -/
def execStoreDrain (t : ThreadId) (line : Line) (s : State) : Host.Outcome State Fault Refusal :=
  let m := t.val
  .next (
    let x := s.thr m
    match x.sb.find? fun e => !e.device && e.line == line.toNat with
    | none => s
    | some e =>
      if !x.hardened e || !s.drains m || x.olderGen e.gen || s.sibDesc m e.line then s
      else match s.acquire (m / 2) x.cur.chkPid e.line true with
        | none => match s.inTheWay (m / 2) e.line with
          | some v => s.wbData (m / 2) v
          | none => s
        | some s1 => s1.drainEntry m e)

/-- 1 µs without a store to a combining-buffer line. -/
def execCombiningTimeout (t : ThreadId) (line : Line) (s : State) : Host.Outcome State Fault Refusal :=
  .next (match s.inCb t.val line.toNat with
    | none => s
    | some l => (s.combLeave t.val l).getD s)

/-- May a posted MMIO store leave for its port: an Active's is held there, a Solo's needs one of the port's 256 places
(R238, R387)? -/
def State.mmioRoom (s : State) (port : Nat) : Bool :=
  let p := s.mmioPort port
  s.scn.role == 1 || p.lost || !s.transmits || (decide (p.tracked.length < 256) && p.held.isEmpty)

/-- A posted MMIO store reaches its port: held for its epoch's commit in the Active, with its record, else sent
(R238, R382, R387). -/
def State.mmioSend (s : State) (x : Store) : State :=
  let st : MmioStore := ⟨x.addr, x.bytes, x.who, x.pid⟩
  let port := Machine.mmioPort x.addr
  let ep := s.recEp x.ep
  let s1 := if s.scn.running then s.scnRecord (.mmio ep x.addr x.bytes st.pid st.thread) else s
  if s1.scn.role = 1 then s1.modMmio port fun p => { p with held := p.held ++ [(ep, st)] }
  else s1.mmioPost port st

/-- A device store performed by its target, or handed to its port. -/
def State.deviceStore (s : State) (x : Store) : State :=
  let v : W64 := BitVec.ofNat 64 (ofBytes x.bytes)
  if isMmio x.addr then s.mmioSend x
  else if isDoorbell x.addr then s.dbStore x.addr v
  else s.regStore x.addr v x.ep

/-- A device entry leaves the buffer of thread `m`; a Doze entry may wait for it. -/
def State.deviceEntry (s : State) (m : Nat) (e : SbEntry) : State :=
  (e.stores.foldl State.deviceStore (s.modThr m fun t => { t with sb := t.sb.erase e })).queueClose.dozeIfDue

/-- The oldest device store to a 4 KiB page leaves the store buffer; a doorbell store waits for every earlier
cacheable store and for the combining buffer (R227, R228). -/
def execDeviceStoreSend (t : ThreadId) (page : BitVec 36) (s : State) : Host.Outcome State Fault Refusal :=
  let m := t.val
  .next (
    let x := s.thr m
    match x.sb.find? fun e => e.device && e.line / 16 == page.toNat with
    | none => s
    | some e =>
      if !x.hardened e || !s.drains m || e.stores.any (fun st => isMmio st.addr && !s.mmioRoom (Machine.mmioPort st.addr)) then s
      else if (e.stores.any fun st => isDoorbell st.addr) then
        if (x.sb.takeWhile (· ≠ e)).any fun y => !y.device then s
        else match s.combLeaveAll m with
          | some s1 => s1.deviceEntry m e
          | none => s
      else s.deviceEntry m e)

/-! ## The MMIO side of a port (R238-R243) -/

/-- 10 µs after the oldest unflushed store. DEDUCED: log 22. -/
def execFlushReadTimer (port : PortId) (s : State) : Host.Outcome State Fault Refusal :=
  .next (
    let p := s.mmioPort port.val
    if p.tracked.isEmpty then s else s.modMmio port.val MmioPort.queueFlush)

/-- Any completion of the oldest flush read marks the stores before it as performed; a held store that waited for a
place follows (R238, R387). -/
def execFlushReadComplete (port : PortId) (s : State) : Host.Outcome State Fault Refusal :=
  .next (match (s.mmioPort port.val).flushes with
    | [] => s
    | n :: rest =>
      (s.modMmio port.val fun p => { p with
        tracked := p.tracked.drop n, flushes := rest.map (· - n),
        performed := p.performed + (min n p.tracked.length - p.skip), skip := p.skip - min n p.tracked.length }).releaseAt
          (fun e => s.scn.role != 1 || decide (e ≤ s.committed)) port.val)

/-- The oldest flush read has not completed within TIMEOUT: the port's tracked stores are lost and its paths fail. -/
def execMmioTimeout (port : PortId) (s : State) : Host.Outcome State Fault Refusal :=
  .next (if (s.mmioPort port.val).flushes.isEmpty then s else (s.mmioLose port.val).failPort true port.val)

/-- The answer of a device load; without good completion all bytes are 0xFF and the record is 0x0121. -/
def State.devAnswer (s : State) (m : Nat) (good : Option (List Byte)) : State :=
  let t := s.thr m
  match t.devLoad with
  | none => s
  | some d =>
    let n := loadSize d.op
    let bs := match good with
      | some b => fit n b
      | none => List.replicate n 0xFF
    let s1 := s.modThr m fun t => { t with devLoad := none, devVal := some (d.addr, ofBytes bs) }
    if good.isSome then s1 else s1.coreFault (m / 2) clsContained 0x0121 t.cur.chkPid d.addr 0 (some m)

def execDeviceLoadComplete (t : ThreadId) (good : Bool) (data : List Byte) (s : State) : Host.Outcome State Fault Refusal :=
  .next (s.devAnswer t.val (if good then some data else none))

def execMmioLoadTimeout (t : ThreadId) (s : State) : Host.Outcome State Fault Refusal :=
  .next (s.devAnswer t.val none)

/-- The stores that the buffers of a thread hold, each with the thread. -/
def State.buffered (s : State) (m : Nat) : List (Store × Nat) :=
  (((s.thr m).sb.flatMap SbEntry.stores) ++ (s.thr m).cb.flatMap CbLine.stores).map fun x => (x, m)

/-- Is a buffered store before another: by its time, and within one thread by the retire group (R245)? -/
def storeBefore (x y : Store × Nat) : Bool :=
  decide (x.1.born < y.1.born) || (x.1.born == y.1.born && x.2 == y.2 && decide (x.1.seq < y.1.seq))

/-- The oldest of several; of different threads' stores of one time the first. DESIGN CHOICE: log 153. -/
def oldestOf : List (Store × Nat) → Option (Store × Nat)
  | [] => none
  | x :: xs => match oldestOf xs with
    | some y => some (if storeBefore y x then y else x)
    | none => some x

/-- The buffers of a reset partition have not drained within 100 µs: what is left is discarded (R245). -/
def execPartitionDrainTimeout (p : Pid) (s : State) : Host.Outcome State Fault Refusal :=
  .next (match s.presets.find? fun x => x.pid == p.val with
    | none => s
    | some x =>
      match oldestOf (x.threads.flatMap s.buffered) with
      | none => s
      | some (x1, m) =>
        let s1 := x.threads.foldl (fun s m => s.modThr m fun t => { t with sb := [], cb := [] }) s
        (s1.coreFault (m / 2) clsContained 0x0122 p.val x1.addr 0 (some m)).queueClose)

end Sys2Proof.Machine
end

