-- ==== Sys2Proof/Machine/Interrupts.lean ====
section
/-! DEFINITION. Interrupt levels, interrupt entry and the end of a WAIT (02 R46, R47, R50, R51, R54; 03 R83;
05 R127, R130; 17 R469). -/

namespace Sys2Proof.Machine

/-- The routine at the pc is abandoned for an interrupt once more (R130). -/
def Thread.abandon (t : Thread) : Thread :=
  { t with abandons := (t.cur.pc, t.abandoned + 1) :: t.abandons.filter fun p => p.1 != t.cur.pc }

/-- A pending interrupt is taken at a retire-group boundary, or, where `mid` holds, within a micro-routine
before its commit point, which it abandons (R127); after eight abandonments the next run defers it (R130).
Attempts 2 and 3 of a retry and an answered device load that has not hardened defer it too (R141, R226). -/
def execInterruptEntry (t : ThreadId) (mid : Bool) (s : State) : Host.Outcome State Fault Refusal :=
  let m := t.val
  let x := s.thr m
  .next (
    if !s.canRun m || (mid && decide (8 ≤ x.abandoned)) then s
    else match s.irqAt m with
      | none => s
      | some (n, bank) =>
        s.entryOr ((if mid then s.modThr m Thread.abandon else s).takeIrq m n bank) m)

/-- SR.TIME has reached SR.TCMP or SR.TCMPX: level 8 or 12 is pending while it is so (R46), which
`State.irqPending` reads from the counter; nothing else changes. DEDUCED: log 129. -/
def execTimerInterrupt (_t : ThreadId) (s : State) : Host.Outcome State Fault Refusal := .next s

/-- A pending interrupt that the thread may take ends its WAIT (R83). -/
def execWaitWake (t : ThreadId) (s : State) : Host.Outcome State Fault Refusal :=
  let m := t.val
  .next (if (s.thr m).run == .waiting && s.islRuns (m / 2) && s.power.state == .run && (s.takeable m 15).isSome
    then s.modThr m fun x => { x with run := .running } else s)

end Sys2Proof.Machine
end

