-- ==== Sys2Proof/Machine/System.lean ====
section
/-! DEFINITION. State-register moves, inter-processor interrupts and barriers (02 R40-R49; 03 R84, R85;
09 R234-R241). -/

namespace Sys2Proof.Machine

/-! ## State registers -/

def execMfsr (t : ThreadId) (rd : BitVec 6) (sr : BitVec 12) (s : State) : Host.Outcome State Fault Refusal :=
  let n := sr.toNat
  let lvl := match srRow n with
    | some r => r.rd
    | none => 4
  .next (runInstr t lvl (n == 3) (decide (lvl < 4)) [rd]
    (fun a s => .ok (a.next.setG rd.toNat (s.srRead t.val a n), s)) s)

/-- An MTSR that has passed its checks. -/
def mtsrBody (m n : Nat) (v : W64) (a : Arch) (s : State) : Arch × State :=
  let k := a.srNo n
  if srOut k then (a.next, s.srOutWrite m k v a)
  else if k = 10 then (a.next.setSr 10 (wdepWrite a.pl v (a.srv 10)), s)
  else match srRow k with
    | some r => (a.next.setSr k (fieldsWrite r.fields false v (a.srv k)), s)
    | none => (a.next, s)

/-- MTSR to register `n`. One to SR.IPEND or SR.IPISEND acts on what no checkpoint holds, so the groups
before it have hardened and its own hardens with it. -/
def State.mtsr (s : State) (t : ThreadId) (rs : BitVec 6) (n : Nat) : State :=
  let lvl := match srRow n with
    | some r => r.wr
    | none => 4
  let out := srOut n
  let s1 := runInstr t lvl (n == 3) (decide (lvl < 4)) [rs]
    (fun a s => .ok (mtsrBody t.val n (a.g rs.toNat) a (if out then s.hardenThr t.val else s))) s
    (if n = 1 then .stat else .other)
  if out && (s1.thr t.val).seq != (s.thr t.val).seq then s1.hardenThr t.val else s1

def execMtsr (t : ThreadId) (rs : BitVec 6) (sr : BitVec 12) (s : State) : Host.Outcome State Fault Refusal :=
  .next (s.mtsr t rs sr.toNat)

/-- The MTSR to SR.IPISEND. -/
def execIpisend (t : ThreadId) (rs : BitVec 6) (s : State) : Host.Outcome State Fault Refusal :=
  .next (s.mtsr t rs 8)

/-! ## Barriers -/

/-- Does the mask of R84 name stores as earlier accesses? -/
def barStores (mask : BitVec 8) : Bool := bit mask 0 || bit mask 1

/-- No cacheable store of the thread stands before the barrier unperformed. -/
def State.cacheableDone (s : State) (m : Nat) : Bool := (s.thr m).sb.all SbEntry.device

/-- The barrier stands between the stores before and after it (R231, R235). -/
def Thread.barrier (mask : BitVec 8) (x : Thread) : Thread :=
  if bit mask 0 then { x with barGen := x.barGen + 1, bars := (x.seq + 1) :: x.bars.filter fun n => decide (x.hseq < n) } else x

/-- BAR.C: with SL set the cacheable stores before it are performed; SS orders the drains (R235, R237). -/
def barCBody (m : Nat) (mask : BitVec 8) (a : Arch) (s : State) : R (Arch × State) :=
  if bit mask 1 && !s.cacheableDone m then .error .wait
  else .ok (a.next, s.modThr m (Thread.barrier mask))

/-- What BAR.T adds: with SS or SL the combining buffer leaves and the cacheable stores are performed (R233). -/
def barTBody (m : Nat) (mask : BitVec 8) (a : Arch) (s : State) : R (Arch × State) :=
  if !barStores mask then .ok (a.next, s)
  else
    let s1 := s.hardenThr m
    match s1.combLeaveAll m with
    | none => .error .wait
    | some s2 => if s2.cacheableDone m then .ok (a.next, s2.modThr m (Thread.barrier mask)) else .error .wait

/-- Device stores of the thread that a port still holds or tracks (R221, R238). -/
def State.portStores (s : State) (m p : Nat) : Bool :=
  let me := 2 * (s.thr m).cur.lcore + m % 2
  let x := s.mmioPort p
  x.held.any (fun h => h.2.thread == me) || x.tracked.any fun h => h.thread == me

/-- The flush reads that a waiting BAR.S causes (R238). -/
def State.requestFlush (s : State) (m : Nat) : State :=
  (List.range 12).foldl (fun s p =>
    let x := s.mmioPort p
    let me := 2 * (s.thr m).cur.lcore + m % 2
    if x.tracked.any fun h => h.thread == me then s.modMmio p MmioPort.queueFlush else s) s

/-- BAR.S with SS or SL waits until every earlier device store is performed or lost, then takes a pending
Store Loss or completes (R241); none while it waits. -/
def barSBody (m : Nat) (mask : BitVec 8) (a : Arch) (s : State) : R (Option Arch × State) :=
  if !barStores mask then .ok (some a.next, s)
  else
    let s1 := s.hardenThr m
    match s1.combLeaveAll m with
    | none => .ok (none, s1.requestFlush m)
    | some s2 =>
      if !(s2.thr m).sb.isEmpty || (List.range 12).any (s2.portStores m) then .ok (none, s2.requestFlush m)
      else match (s2.thr m).losses with
        | x :: _ => .error (.exc (mkExc 0x12 x) s2)
        | [] => .ok (some a.next, s2.modThr m (Thread.barrier mask))

/-- A mask is legal (R84). -/
def barLegal (mask : BitVec 8) : Bool := mask != 0 && fld mask 7 4 == 0

def execBarC (t : ThreadId) (mask : BitVec 8) (s : State) : Host.Outcome State Fault Refusal :=
  .next (runInstr t 0 false (barLegal mask) [] (barCBody t.val mask) s)

def execBarT (t : ThreadId) (mask : BitVec 8) (s : State) : Host.Outcome State Fault Refusal :=
  .next (runInstr t 0 false (barLegal mask) [] (barTBody t.val mask) s)

def execBarS (t : ThreadId) (mask : BitVec 8) (s : State) : Host.Outcome State Fault Refusal :=
  let m := t.val
  .next (
    if !s.canRun m then s
    else s.settleOpen m (do
      let s1 ← fetchAt m s
      let a := (s1.thr m).cur
      if !barLegal mask then .error (.exc (mkExc 0x04 0) s1) else barSBody m mask a s1))

end Sys2Proof.Machine
end

