-- ==== Sys2Proof/Machine/Services.lean ====
section
/-! DEFINITION. Rootstock's service calls, each from the entry that SECALL made to the ERET that returns
(07 R168, R178, R187-R190, R566; 11 R282; 17 R468; 20 R531). -/

namespace Sys2Proof.Machine

/-! ## The call and its return -/

/-- Does thread `m` stand at Rootstock's SECALL entry, able to go on (R86)? -/
def State.called (s : State) (m : Nat) : Bool :=
  let a := (s.thr m).cur
  s.canRun m && !s.stalled && a.pl == 3 && fld (a.srv 0x42) 7 0 == 0x13 && bit (a.srv 0x42) 63 && !bit (a.srv 0x42) 8 &&
    a.pc == a.srv 0x46 + 0x1300

/-- The caller's level (R187). -/
def State.callerLvl (s : State) (m : Nat) : Nat := fld ((s.thr m).cur.srv 0x41) 15 14

/-- What a service answers: its status, its results from g2 on, the state it leaves; none while it waits. -/
abbrev Served := Option (Nat × List W64 × State)

def served (s : State) (status : Nat) (res : List W64 := []) : Served := some (status, res, s)

/-- The results in g1 to g7, the others cleared (R36, R86). -/
def Arch.results (a : Arch) (status : Nat) (res : List W64) : Arch :=
  (List.range 6).foldl (fun a i => a.setG (i + 2) (res.getD i 0)) (a.setG 1 (BitVec.ofNat 64 status))

/-- Rootstock's ERET with the results; the original state `s` where its fill must wait. -/
def State.serviceReturn (s s1 : State) (m status : Nat) (res : List W64) : State :=
  let a := (s1.thr m).cur.results status res
  match eretBody m a s1 with
  | .ok (a2, s2) => ((s2.modThr m fun t => t.retire a2).hardenThr m).fatalReturn m 3
  | .error (.poison l s2) => s2.consumePoison m l
  | .error _ => s

/-- Service `n` of lowest level `lvl`: thread `m` and its PID, and g2, g3, g4 (R187, R190). DEDUCED: log 117. -/
def State.service (s : State) (m n lvl : Nat) (f : Nat → W64 → W64 → W64 → State → Served) : State :=
  let s1 := s.hardenThr m
  let a := (s1.thr m).cur
  if !s.called m || a.g 1 != BitVec.ofNat 64 n then s
  else if s1.callerLvl m < lvl then s.serviceReturn s1 m 2 []
  else match f a.pid (a.g 2) (a.g 3) (a.g 4) s1 with
    | none => s
    | some (st, res, s2) => s.serviceReturn s2 m st res

/-- The service numbers of R190. -/
def serviceNumbers : List Nat :=
  [0x00, 0x01, 0x10, 0x11, 0x12, 0x13, 0x20, 0x21, 0x22, 0x23, 0x24, 0x25, 0x30, 0x31, 0x40, 0x50, 0x51, 0x60, 0x61, 0x70]

/-- A number that is no service is answered with 0x01 here too (R188). DEDUCED: log 116. -/
def execVersion (t : ThreadId) (s : State) : Host.Outcome State Fault Refusal :=
  let m := t.val
  .next (
    if s.called m && !serviceNumbers.contains ((s.thr m).cur.g 1).toNat then s.serviceReturn (s.hardenThr m) m 1 []
    else s.service m 0 0 fun _ _ _ _ s => served s 0 [Config.rootstockVersion, s.regRead .rstCsver []])

/-! ## Granules and runs (R189) -/

def granules (first n : Nat) : List Nat := (List.range n).map (first + ·)

/-- The entry of granule `g`. -/
def State.granule (s : State) (g : Nat) : W64 := s.potEntry (g * 0x10000)

/-- Granules whose OWNER is the partition. -/
def State.granulesOwned (s : State) (p : Nat) : Nat :=
  ((List.range (s.dram / 0x10000)).filter fun g => fld (s.granule g) 63 58 == p).length

/-- The physical cores of a partition, and the one of its logical core `l`. -/
def State.coresOf (s : State) (p : Nat) : List Nat := (List.range 56).filter fun c => (s.thr (2 * c)).cur.pid == p
def State.coreFor (s : State) (p l : Nat) : Option Nat := (s.coresOf p).find? fun c => s.lcoreOf c == l

/-- "Logical cores" and "granules owned" are read as counts. DEDUCED: log 118. -/
def execPartitionInformation (t : ThreadId) (s : State) : Host.Outcome State Fault Refusal :=
  .next (s.service t.val 0x01 1 fun p _ _ _ s =>
    served s 0 [BitVec.ofNat 64 p, BitVec.ofNat 64 (s.coresOf p).length, BitVec.ofNat 64 (s.granulesOwned p)])

/-- Owner, then state, of one granule as the Normal World may use it (R171, R189). DEDUCED: log 120. -/
def State.granuleStatus (s : State) (p a : Nat) : Nat :=
  let e := s.potEntry a
  let st := fld e 56 54
  if !s.isDram a then 3
  else if !(fld e 63 58 == p || (st == potShared && fld e 53 48 == p)) || bit e 57 then 4
  else if st == potOwned || st == potWindow || st == potShared then 0 else 5

def execGranuleQuery (t : ThreadId) (s : State) : Host.Outcome State Fault Refusal :=
  .next (s.service t.val 0x20 1 fun p a _ _ s =>
    match s.granuleStatus p a.toNat with
    | 0 => served s 0 [s.potEntry a.toNat]
    | k => served s k)

/-- A run's form (R190). -/
def State.runForm (s : State) (a n : W64) : Bool :=
  a.toNat % 0x10000 == 0 && decide (1 ≤ n.toNat) && decide (n.toNat ≤ 0x10000) && decide (a.toNat + n.toNat * 0x10000 ≤ s.dram)

/-- Every granule of a run checked for its owner and world, then for its state (R189). -/
def State.runStatus (s : State) (p first n : Nat) (states : List Nat) : Nat :=
  let gs := granules first n
  if gs.any fun g => fld (s.granule g) 63 58 != p || bit (s.granule g) 57 then 4
  else if gs.any fun g => !states.contains (fld (s.granule g) 56 54) then 5
  else 0

/-- Rootstock's POT command over a run and its completion with every holder's acknowledgement (R174-R176);
none while the POT unit is busy or a store checked under the old entries is not home yet. DEDUCED: log 124. -/
def State.potSet (s : State) (owner st owner2 first n : Nat) : Option State :=
  let v := pack [(63, 58, owner), (56, 54, st), (53, 48, owner2), (47, 16, first), (15, 0, n - 1)]
  if s.rf .potCmdstat [] 1 0 = 1 ∨ !s.potDrained v then none
  else
    let s1 := (s.cfgw .potCmd [] v).potCommand v
    if s1.rf .potCmdstat [] 1 0 = 1 then some (s1.potAcked v) else some s1

/-- The generation that the first granule of a run has (R282). -/
def State.runGen (s : State) (first : Nat) : Nat := fld (s.granule first) 47 32

/-- A run leaves a partition's registered runs; what lies outside it stays registered (R282). DEDUCED: log 121. -/
def unrun (p first n : Nat) (rs : List WinRun) : List WinRun :=
  rs.flatMap fun r =>
    if r.pid ≠ p ∨ r.first + r.num ≤ first ∨ first + n ≤ r.first then [r]
    else (if r.first < first then [{ r with num := first - r.first }] else []) ++
      (if first + n < r.first + r.num then [{ r with first := first + n, num := r.first + r.num - (first + n) }] else [])

def State.dropRun (s : State) (p first n : Nat) : State := s.modTrl fun t => { t with runs := unrun p first n t.runs }

/-- The run recorded with Trellis for a partition, with its new GEN. -/
def State.addRun (s : State) (p first n : Nat) : State :=
  (s.dropRun p first n).modTrl fun t => { t with runs := t.runs ++ [⟨p, first, n, s.runGen first⟩] }

/-- Does a partition have more runs than the 256 that Trellis holds (R282)? Asked of what a service would leave, split
runs counted. DEDUCED: log 123. -/
def State.runsFull (s : State) (p : Nat) : Bool := decide (256 < (s.trl.runs.filter fun r => r.pid == p).length)

def execRegisterExchangeWindow (t : ThreadId) (s : State) : Host.Outcome State Fault Refusal :=
  .next (s.service t.val 0x21 1 fun p a n _ s =>
    let g := a.toNat / 0x10000
    if !s.runForm a n then served s 3
    else match s.runStatus p g n.toNat [potOwned] with
      | 0 =>
        if (s.addRun p g n.toNat).runsFull p then served s 6
        else match s.potSet p potWindow 63 g n.toNat with
          | none => none
          | some s1 => served (s1.addRun p g n.toNat) 0 [BitVec.ofNat 64 (s1.runGen g)]
      | k => served s k)

def execDeregisterExchangeWindow (t : ThreadId) (s : State) : Host.Outcome State Fault Refusal :=
  .next (s.service t.val 0x22 1 fun p a n _ s =>
    let g := a.toNat / 0x10000
    if !s.runForm a n then served s 3
    else match s.runStatus p g n.toNat [potWindow] with
      | 0 =>
        if (s.dropRun p g n.toNat).runsFull p then served s 6
        else match s.potSet p potOwned 63 g n.toNat with
          | none => none
          | some s1 => served (s1.dropRun p g n.toNat) 0 [BitVec.ofNat 64 (s1.runGen g)]
      | k => served s k)

/-! ## Shared-Windows (R178) -/

def execOfferSharedWindow (t : ThreadId) (s : State) : Host.Outcome State Fault Refusal :=
  .next (s.service t.val 0x23 1 fun p a n d s =>
    let g := a.toNat / 0x10000
    if d.toNat = 0 ∨ 48 < d.toNat ∨ d.toNat = p ∨ !s.runForm a n then served s 3
    else match s.runStatus p g n.toNat [potOwned, potWindow] with
      | 0 => served { s with
          offers := (s.offers.filter fun o => !(o.by_ == p && o.first == g && o.num == n.toNat)) ++
            [⟨p, d.toNat, g, n.toNat⟩] } 0
      | k => served s k)

def execAcceptSharedWindow (t : ThreadId) (s : State) : Host.Outcome State Fault Refusal :=
  .next (s.service t.val 0x24 1 fun p a n d s =>
    let g := a.toNat / 0x10000
    let o : Offer := ⟨d.toNat, p, g, n.toNat⟩
    if !s.runForm a n ∨ !s.offers.contains o then served s 3
    else match s.runStatus d.toNat g n.toNat [potOwned, potWindow] with
      | 0 =>
        if (s.addRun p g n.toNat).runsFull p || (s.addRun d.toNat g n.toNat).runsFull d.toNat then served s 6
        else match s.potSet d.toNat potShared p g n.toNat with
          | none => none
          | some s1 =>
            let s2 := (s1.addRun d.toNat g n.toNat).addRun p g n.toNat
            served { s2 with offers := s2.offers.filter (· ≠ o) } 0 [BitVec.ofNat 64 (s1.runGen g)]
      | k => served s k)

/-- DEDUCED: log 122. -/
def execWithdrawSharedWindow (t : ThreadId) (s : State) : Host.Outcome State Fault Refusal :=
  .next (s.service t.val 0x25 1 fun p a n _ s =>
    let g := a.toNat / 0x10000
    let gs := granules g n.toNat
    let own := fun (k : Nat) => fld (s.granule k) 63 58
    let own2 := fun (k : Nat) => fld (s.granule k) 53 48
    if !s.runForm a n then served s 3
    else if gs.any fun k => (own k != p && own2 k != p) || bit (s.granule k) 57 then served s 4
    else if gs.any fun k => fld (s.granule k) 56 54 != potShared || own k != own g || own2 k != own2 g then served s 5
    else if (s.dropRun (own g) g n.toNat).runsFull (own g) || (s.dropRun (own2 g) g n.toNat).runsFull (own2 g) then served s 6
    else match s.potSet (own g) potWindow 63 g n.toNat with
      | none => none
      | some s1 =>
        served ((s1.dropRun (own g) g n.toNat).dropRun (own2 g) g n.toNat) 0 [BitVec.ofNat 64 (s1.runGen g)])

/-! ## Translation roots and translation caches (R165, R168, R566) -/

/-- A root written for the thread, once the granule that it names by physical address is checked. DEDUCED: log 119. -/
def State.setRoot (s : State) (m p : Nat) (r : Reg) (physical : Bool) (v : W64) : Served :=
  let st := if bit v 0 && physical then s.granuleStatus p (fld v 47 11 * 2048) else 0
  if st = 0 then served (s.regPut r [m] v) 0 else served s st

/-- The stage 1 root lies at an intermediate address, which is physical while stage 2 is off. -/
def execSetStage1Root (t : ThreadId) (s : State) : Host.Outcome State Fault Refusal :=
  .next (s.service t.val 0x10 1 fun p v _ _ s => s.setRoot t.val p .potTs1 (s.rf .potTs2 [t.val] 0 0 == 0) v)

def execSetStage2Root (t : ThreadId) (s : State) : Host.Outcome State Fault Refusal :=
  .next (s.service t.val 0x11 2 fun p v _ _ s => s.setRoot t.val p .potTs2 true v)

def execSetHypervisorRoot (t : ThreadId) (s : State) : Host.Outcome State Fault Refusal :=
  .next (s.service t.val 0x12 2 fun p v _ _ s => s.setRoot t.val p .potTh true v)

def inPage (p : Nat × Nat) (addr : Nat) : Bool := decide (p.1 ≤ addr) && decide (addr < p.1 + p.2)

/-- Does a scope drop a TLB entry of the partition? `vm`: the VMID of scopes 0 and 1. Scope 0 drops every piece of the
page that holds the address, where the entries are smaller than the page (R167, R566). -/
def tlbDrop (scope : Nat) (vm : Option Nat) (addr tag : Nat) (e : TlbEntry) : Bool :=
  let norm := e.regime == .user
  if scope = 0 then norm && e.vmid == vm && inPage e.page addr && (e.glob || e.asid == some tag)
  else if scope = 1 then norm && e.vmid == vm && e.asid == some tag && !e.glob
  else if scope = 2 then norm && e.vmid == some tag && e.used.any fun u => inPage u addr
  else if scope = 3 then norm && e.vmid == some tag
  else e.regime != .secure

/-- Does a scope drop a walk-cache entry of the partition? Scope 2 drops a stage 1 entry too where reading it used the
stage 2 page named (R566). -/
def walkDrop (scope : Nat) (vm : Option Nat) (addr tag : Nat) (e : WalkEntry) : Bool :=
  let norm := e.regime == .user
  if scope = 0 then
    norm && !e.stage2 && e.vmid == vm &&
      walkLevels.any fun l => l.1 == e.level && addr % 2 ^ 56 / 2 ^ l.2.1 == e.pre
  else if scope = 1 then norm && e.vmid == vm && e.asid == some tag
  else if scope = 2 then norm && e.vmid == some tag && (e.stage2 || e.used.any fun u => inPage u addr)
  else if scope = 3 then norm && e.vmid == some tag
  else e.regime != .secure

/-- The entries of a scope dropped on every core that runs the partition, in the L1 ITLB, the L1 DTLB, the L2 TLB and the
walk cache (R566). -/
def State.tlbInvalidate (s : State) (p scope : Nat) (vm : Option Nat) (addr tag : Nat) : State :=
  let keep := fun (e : TlbEntry) => !(e.pid == p && tlbDrop scope vm addr tag e)
  (s.coresOf p).foldl (fun s c => s.modCore c fun x => { x with
    itlb := x.itlb.filter keep, dtlb := x.dtlb.filter keep, tlb := x.tlb.filter keep,
    walk := x.walk.filter fun e => !(e.pid == p && walkDrop scope vm addr tag e) }) s

def execTlbInvalidate (t : ThreadId) (s : State) : Host.Outcome State Fault Refusal :=
  .next (s.service t.val 0x13 1 fun p scope addr tag s =>
    let vm := if s.rf .potTs2 [t.val] 0 0 = 1 then some (s.rf .potTs2 [t.val] 59 48) else none
    if 4 < scope.toNat then served s 3
    else if 2 ≤ scope.toNat ∧ s.callerLvl t.val < 2 then served s 2
    else served (s.tlbInvalidate p scope.toNat vm addr.toNat tag.toNat) 0)

/-! ## Gate requests (R184-R186, R190) -/

/-- The gate request has its outcome; the spec gives no status for a refused one. -/
def State.gateServed (s : State) (m : Nat) : Served :=
  let s1 := s.modThr m fun t => { t with svcWait := false }
  let st := s.rf .pwrGatereq [] 2 0
  if st = 2 then served s1 7
  else if st = 3 then let d := s1.draw; served d.2 d.1.toNat
  else served s1 0

/-- Rootstock's write of PWR.GATEREQ for a call. -/
def State.gateWrite (s : State) (c act : Nat) : State :=
  (s.cfgw .pwrGatereq [] (pack [(54, 48, c), (39, 38, act)])).gateRequest 1 c act

/-- The request to gate the island of a logical core; the call returns once the island has been gated, the
request is PENDING or it is refused. DESIGN CHOICE: log 54. -/
def State.gateCall (s : State) (m p : Nat) (l act : W64) : Served :=
  if (s.thr m).svcWait then if s.power.gateWait then none else s.gateServed m
  else match s.coreFor p l.toNat with
    | none => served s 3
    | some c =>
      if 2 < act.toNat then served s 3
      else if s.rf .pwrGatereq [] 2 0 = 2 ∧ s.rf .pwrGatereq [] 54 48 ≠ c then served s 6
      else
        let s1 := s.gateWrite c act.toNat
        if act = 0 then served s1 0
        else if s1.power.gateWait then none
        else s1.gateServed m

/-- The posted request of a call that waits for its island. -/
def State.gatePosted (s : State) (m : Nat) : State :=
  let s1 := s.hardenThr m
  let a := (s1.thr m).cur
  match s.coreFor a.pid (a.g 2).toNat with
  | none => s
  | some c =>
    let s2 := s1.gateWrite c (a.g 3).toNat
    if s2.power.gateWait then s2.modThr m fun t => { t with svcWait := true } else s

def execGateRequest (t : ThreadId) (s : State) : Host.Outcome State Fault Refusal :=
  let m := t.val
  let a := (s.thr m).cur
  .next (
    let s1 := s.service m 0x30 2 fun p l act _ s => s.gateCall m p l act
    let waits := s.called m && a.g 1 == 0x30 && decide (2 ≤ s.callerLvl m) && !(s.thr m).svcWait && a.g 3 != 0 &&
      decide ((a.g 3).toNat ≤ 2) && !(s.rf .pwrGatereq [] 2 0 == 2)
    if waits && (s1.thr m).seq == (s.thr m).seq then s.gatePosted m else s1)

/-- DEDUCED: log 125. -/
def execGateStatus (t : ThreadId) (s : State) : Host.Outcome State Fault Refusal :=
  .next (s.service t.val 0x31 2 fun _ _ _ _ s => served (s.afterRead .pwrGatereq []) 0 [s.regRead .pwrGatereq []])

/-! ## Responders, records, the dictionary, partition reset -/

/-- SR.TID.C0R of a thread, in its checkpoints as well. -/
def Thread.setC0r (b : Bool) (t : Thread) : Thread :=
  let f := fun (a : Arch) => a.setSr 4 (setBit (a.srv 4) 32 b)
  { t with cur := f t.cur, hard := f t.hard, groups := t.groups.map f }

def execClass0Responder (t : ThreadId) (s : State) : Host.Outcome State Fault Refusal :=
  .next (s.service t.val 0x40 1 fun p l thr on s =>
    match s.coreFor p l.toNat with
    | none => served s 3
    | some c =>
      if 1 < thr.toNat ∨ 1 < on.toNat then served s 3
      else served (s.modThr (2 * c + thr.toNat) (Thread.setC0r (on == 1))) 0)

/-- DEDUCED: log 126. -/
def execReadFaultRecord (t : ThreadId) (s : State) : Host.Outcome State Fault Refusal :=
  .next (s.service t.val 0x50 1 fun p b _ _ s =>
    if 0x72 < b.toNat then served s 3
    else
      let ix := [p, b.toNat]
      served s 0 [s.reg .fltPrec ix, s.reg .fltPaddr ix, s.reg .fltPtsec ix, s.reg .fltPtns ix, s.reg .fltPinfo ix, 0])

def execClearFaultRecord (t : ThreadId) (s : State) : Host.Outcome State Fault Refusal :=
  .next (s.service t.val 0x51 1 fun p b _ _ s =>
    if 0x72 < b.toNat then served s 3
    else
      let r := s.partClear p b.toNat
      served r.2 (if r.1 then 0 else 5))

/-- A buffer of R531: 2 KiB, aligned, Owned by the caller. -/
def State.bufferStatus (s : State) (p a : Nat) : Nat :=
  let e := s.potEntry a
  if a % 2048 ≠ 0 ∨ !s.isDram a then 3
  else if fld e 63 58 ≠ p ∨ bit e 57 then 4
  else if fld e 56 54 ≠ potOwned then 5 else 0

/-- DEDUCED: log 127. -/
def execDictionaryPost (t : ThreadId) (s : State) : Host.Outcome State Fault Refusal :=
  .next (s.service t.val 0x60 1 fun p a _ _ s =>
    match s.bufferStatus p a.toNat with
    | 0 =>
      let b := s.rd a.toNat 2048
      let good := match parsePdu b with
        | some (d, _) => d.kind == 1 && d.session == 0
        | none => false
      if !good then served s 3
      else if s.cold.inband.any fun x => x.1 == p then served s 6
      else served (s.modCold fun c => { c with inband := c.inband ++ [(p, ⟨b, none⟩)] }) 0
    | k => served s k)

/-- Bytes that Rootstock stores within one granule, line by line; none while a line's ownership must wait. -/
def State.rootWrite (s : State) (m a : Nat) : List (List Byte) → Option State
  | [] => some s
  | b :: bs => match s.acquire (m / 2) 0 (lineOf a) true with
    | none => none
    | some s1 => (s1.l2Write (m / 2) a b).rootWrite m (a + 256) bs

/-- A response cut into lines. -/
def lineChunks (b : List Byte) : List (List Byte) :=
  ((List.range 8).map fun i => (b.drop (256 * i)).take 256).filter fun x => !x.isEmpty

def execDictionaryPoll (t : ThreadId) (s : State) : Host.Outcome State Fault Refusal :=
  .next (s.service t.val 0x61 1 fun p a _ _ s =>
    match s.bufferStatus p a.toNat with
    | 0 => match (s.cold.inband.find? fun x => x.1 == p).bind fun x => x.2.resp with
      | none => served s 7
      | some r => match s.rootWrite t.val a.toNat (lineChunks r) with
        | none => none
        | some s1 => served (s1.modCold fun c => { c with inband := c.inband.filter fun x => x.1 != p }) 0
    | k => served s k)

/-- The call does not return. -/
def execPartitionReset (t : ThreadId) (s : State) : Host.Outcome State Fault Refusal :=
  let m := t.val
  .next (
    let a := (s.thr m).cur
    if s.called m && a.g 1 == 0x70 && decide (2 ≤ s.callerLvl m) then s.partReset a.pid false
    else s.service m 0x70 2 fun _ _ _ _ _ => none)

end Sys2Proof.Machine
end

