-- ==== Sys2Proof/Machine/Time.lean ====
section
/-! DEFINITION. The System Time Counter, PTP, PPS and the alarm (20 R538-R545). -/

namespace Sys2Proof.Machine

def State.modPtp (s : State) (f : Ptp → Ptp) : State := { s with cold := { s.cold with ptp := f s.cold.ptp } }

/-! ## The counter (R538, R539) -/

/-- The STC in nanoseconds. -/
def Stc.nanos (t : Stc) : Nat := t.sec * 10 ^ 9 + t.ns

/-- The STC moved forward by `n` units of 2^-40 ns. -/
def Stc.add (t : Stc) (n : Nat) : Stc :=
  let frac := t.frac + n
  let ns := t.ns + frac / 2 ^ 40
  ⟨t.sec + ns / 10 ^ 9, ns % 10 ^ 9, frac % 2 ^ 40⟩

/-- The increment kept for the mean of the last 64 s (R542). -/
def Ptp.keep (p : Ptp) : Ptp := { p with hist := (p.hist ++ [p.inc]).drop (p.hist.length + 1 - 64) }

/-- One cycle of Coldframe's 200 MHz clock. -/
def State.stcTick (s : State) : State :=
  let t := s.stc.add s.cold.ptp.inc
  let s1 : State := { s with stc := t, pins := { s.pins with ppsOut := s.pins.ppsOut - (t.nanos - s.stc.nanos) } }
  let s2 := if t.sec = s.stc.sec || s.cold.ptp.sync == 3 then s1 else s1.modPtp Ptp.keep
  if s.rf .rstWdog [] 63 63 = 1 && s.power.state == .run then { s2 with power := { s2.power with wdog := s2.power.wdog + 1 } } else s2

def execStcAdvance (s : State) : Host.Outcome State Fault Refusal := .next (if s.power.aux then s.stcTick else s)

/-! ## The servo (R539, R542) -/

/-- The servo's increment: within 500 ppm of nominal; the spec does not give the servo (DESIGN CHOICE, log 8). DESIGN CHOICE: log 92. -/
def State.servo (s : State) : State :=
  let d := incNominal / 2000
  let r := s.draw
  r.2.modPtp fun p => { p with inc := incNominal - d + r.1.toNat % (2 * d + 1) }

/-- A measured offset, own time less the source's: STC stepped forward when it is more than 1 ms late, slewed
otherwise; 16 good ones in a row lock it. -/
def State.steer (s : State) (o : Int) : State :=
  let good := if o.natAbs ≤ 100 then s.cold.ptp.good + 1 else 0
  let st := if s.cold.ptp.sync = 2 ∨ 16 ≤ good then 2 else 1
  let s1 := s.modPtp fun p => { p with offset := o, good := good, sync := st }
  if o < -1000000 then { s1 with stc := s1.stc.add (o.natAbs * 2 ^ 40) } else s1.servo

/-- A new Time Source takes effect at a sync event, with LOCKING (R544). -/
def State.newSource (s : State) : State :=
  if s.odv 0x040001 = s.cold.ptp.source then s
  else s.modPtp fun p => { p with source := s.odv 0x040001, sync := 1, good := 0, ppsMiss := 0 }

/-- HOLDOVER entered, with its record (R542). -/
def State.toHoldover (s : State) : State :=
  if s.cold.ptp.sync = 1 ∨ s.cold.ptp.sync = 2 then
    (s.modPtp Ptp.holdover).fault blkColdframe clsCorrected 0x0D02 0 0
  else s

/-! ## PTP (R541) -/

/-- A PTP timestamp, seconds and nanoseconds, in nanoseconds. -/
def ptpNanos (t : BitVec 80) : Int := fld t 79 32 * 10 ^ 9 + fld t 31 0

/-- Does a message come from the chosen master, in the configured domain? -/
def State.fromMaster (s : State) (port : Bool) (source : BitVec 80) (domain : BitVec 8) : Bool :=
  s.power.aux && decide (domain.toNat = s.odv 0x040002) &&
  match s.cold.ptp.best with
  | some m => m.port == port.toNat && m.source == source.toNat
  | none => false

/-- A Sync, with its Follow_Up and correction; `t1` is the master's time of sending. -/
def execSync (port : Bool) (source : BitVec 80) (domain : BitVec 8) (t1 : BitVec 80) (s : State) :
    Host.Outcome State Fault Refusal :=
  .next (
    if !s.fromMaster port source domain then s
    else
      let now : Int := s.stc.nanos
      let s1 := s.newSource.modPtp fun p => { p with t1 := ptpNanos t1, t2 := now }
      if s1.cold.ptp.source = 1 then s1.steer (now - ptpNanos t1 - s1.cold.ptp.delay) else s1)

/-- DEDUCED: log 96. -/
def execAnnounce (port : Bool) (source : BitVec 80) (domain prio1 cls acc : BitVec 8) (var : BitVec 16)
    (prio2 : BitVec 8) (gm : W64) (steps utc : BitVec 16) (s : State) : Host.Outcome State Fault Refusal :=
  .next (
    if !s.power.aux || decide (domain.toNat ≠ s.odv 0x040002) then s
    else
      let m := Master.mk port.toNat source.toNat prio1.toNat cls.toNat acc.toNat var.toNat prio2.toNat gm.toNat steps.toNat
        utc.toNat
      s.modPtp fun p => { p with
        masters := (p.masters.filter fun x => !(x.port == m.port && x.source == m.source)) ++ [m] })

/-- A Delay_Req goes to the chosen master and is timestamped. -/
def execDelayRequest (s : State) : Host.Outcome State Fault Refusal :=
  .next (match s.cold.ptp.best with
    | none => s
    | some m =>
      if !s.power.aux || s.cold.ptp.source != 1 then s
      else
        let n := (s.cold.ptp.seq + 1) % 2 ^ 16
        let s1 := s.modPtp fun p => { p with seq := n, t3 := some (n, (s.stc.nanos : Int)) }
        s1.modCold fun c => { c with sent := c.sent ++ [.delayReq m.port n] })

/-- The Delay_Resp of the outstanding Delay_Req; `t4` is the master's time of receipt. -/
def execDelayResp (port : Bool) (source : BitVec 80) (domain : BitVec 8) (seq : BitVec 16) (t4 : BitVec 80) (s : State) :
    Host.Outcome State Fault Refusal :=
  .next (match s.cold.ptp.t3 with
    | none => s
    | some (n, t3) =>
      if !s.fromMaster port source domain || n != seq.toNat then s
      else s.modPtp fun p => { p with delay := ((p.t2 - p.t1) + (ptpNanos t4 - t3)) / 2, t3 := none })

/-- No Announce for 3 intervals, or no Sync for 3 s: a master not announced is not visible any more. DEDUCED: log 94. -/
def execAnnounceReceiptTimeout (announce : Bool) (s : State) : Host.Outcome State Fault Refusal :=
  .next (
    let best := s.cold.ptp.best
    let s1 := if announce then s.modPtp fun p => { p with masters := p.masters.filter fun m => some m != best } else s
    if s.power.aux && s.cold.ptp.source == 1 then s1.toHoldover else s1)

/-- The Holdover Limit has passed in HOLDOVER. -/
def execHoldoverLimitExpiry (s : State) : Host.Outcome State Fault Refusal :=
  .next (if s.cold.ptp.sync = 3 then s.modPtp fun p => { p with sync := 0, good := 0 } else s)

/-! ## PPS (R543) -/

/-- PPS In Delay in ns, a signed object. -/
def State.ppsDelay (s : State) : Int :=
  let n : Int := s.odv 0x040008
  if 2 ^ 31 ≤ n then n - 2 ^ 32 else n

/-- How far the STC is past the nearest second boundary plus PPS In Delay. -/
def State.ppsPhase (s : State) : Int :=
  let r := (s.stc.ns - s.ppsDelay) % 10 ^ 9
  if 5 * 10 ^ 8 < r then r - 10 ^ 9 else r

/-- The seconds that a visible master's time is ahead of the STC: the STC follows them forward. -/
def State.ppsSeconds (s : State) : State :=
  let p := s.cold.ptp
  let late := p.t1 + p.delay - p.t2 + 5 * 10 ^ 8
  if p.best.isSome && decide (10 ^ 9 ≤ late) then { s with stc := { s.stc with sec := s.stc.sec + late.toNat / 10 ^ 9 } } else s

/-- PPS_IN at a level; its rising edge marks a second boundary. DEDUCED: log 93. -/
def execPpsIn (high : Bool) (s : State) : Host.Outcome State Fault Refusal :=
  .next (
    let s0 : State := { s with pins := { s.pins with ppsIn := high } }
    if !high || s.pins.ppsIn || !s.power.aux then s0
    else
      let s1 := s0.newSource
      let e := s1.ppsPhase
      if s1.cold.ptp.source != 2 then s1
      else if 2 ≤ s1.cold.ptp.sync ∧ 100000 < e.natAbs then
        s1.modPtp fun p => { p with ppsIgnored := p.ppsIgnored + 1 }
      else (s1.modPtp fun p => { p with ppsMiss := 0 }).ppsSeconds.steer e)

/-- An edge of PPS_IN stayed away: the third in a row leads to HOLDOVER. -/
def execPpsInMissing (s : State) : Host.Outcome State Fault Refusal :=
  .next (
    if s.cold.ptp.source != 2 || !s.power.aux then s
    else
      let s1 := s.modPtp fun p => { p with ppsMiss := p.ppsMiss + 1 }
      if 3 ≤ s1.cold.ptp.ppsMiss then s1.toHoldover else s1)

/-- At an STC second boundary PPS_OUT rises for 100 ms; it stays low in reset and while MAIN is off (R503). DEDUCED: log 95. -/
def execPpsOut (s : State) : Host.Outcome State Fault Refusal :=
  .next (
    if s.odv 0x040007 = 1 && s.power.main && !s.power.heldReset && decide (s.stc.ns * 2 ^ 40 + s.stc.frac < s.cold.ptp.inc) then
      { s with pins := { s.pins with ppsOut := 10 ^ 8 } }
    else s)

/-! ## The alarm (R545) -/

/-- STC Alarm as nothing has set it: all ones. -/
def alarmOff : Nat := 2 ^ 96 - 1

def execStcAlarm (s : State) : Host.Outcome State Fault Refusal :=
  .next (
    let a := s.odv 0x04000A
    if a = alarmOff || decide (s.now96 < a) then s
    else
      let s1 := (s.setOdv 0x04000A alarmOff).touch 0x04000A
      if s.power.state = .sleep then s1.wake 5 else s1)

end Sys2Proof.Machine
end

