-- ==== Sys2Proof/Machine/Dispatch.lean ====
section
/-! DEFINITION. The meaning of every command: one arm per constructor. -/

namespace Sys2Proof.Machine

def exec (i : Instr) (s : State) : Host.Outcome State Fault Refusal :=
  match i with
  | .aluGroup t op f rd rs rt => Sys2Proof.Machine.execAluGroup t op f rd rs rt s
  | .immediate t op rd rs imm => Sys2Proof.Machine.execImmediate t op rd rs imm s
  | .shifti t op rd rs amount => Sys2Proof.Machine.execShifti t op rd rs amount s
  | .ldi t rd imm => Sys2Proof.Machine.execLdi t rd imm s
  | .ldu t rd imm => Sys2Proof.Machine.execLdu t rd imm s
  | .addpc t rd imm => Sys2Proof.Machine.execAddpc t rd imm s
  | .ldpc t rd imm => Sys2Proof.Machine.execLdpc t rd imm s
  | .muldiv t op f rd rs rt => Sys2Proof.Machine.execMuldiv t op f rd rs rt s
  | .bitGroup t op rd rs => Sys2Proof.Machine.execBitGroup t op rd rs s
  | .crc t poly width rd rs rt => Sys2Proof.Machine.execCrc t poly width rd rs rt s
  | .load t op rd mode => Sys2Proof.Machine.execLoad t op rd mode s
  | .store t op rd mode => Sys2Proof.Machine.execStore t op rd mode s
  | .stnt t f rd rb disp => Sys2Proof.Machine.execStnt t f rd rb disp s
  | .pref t hint rb disp => Sys2Proof.Machine.execPref t hint rb disp s
  | .ldrv t rd rb disp => Sys2Proof.Machine.execLdrv t rd rb disp s
  | .stcd t fail rd rt rs => Sys2Proof.Machine.execStcd t fail rd rt rs s
  | .atomGroup t op dbl rd rs rt => Sys2Proof.Machine.execAtomGroup t op dbl rd rs rt s
  | .bcc t cond disp => Sys2Proof.Machine.execBcc t cond disp s
  | .brr t cond rs disp => Sys2Proof.Machine.execBrr t cond rs disp s
  | .br t disp => Sys2Proof.Machine.execBr t disp s
  | .jr t rd rs imm => Sys2Proof.Machine.execJr t rd rs imm s
  | .call t target => Sys2Proof.Machine.execCall t target s
  | .ret t => Sys2Proof.Machine.execRet t s
  | .nop t => Sys2Proof.Machine.execNop t s
  | .eret t => Sys2Proof.Machine.execEret t s
  | .secall t => Sys2Proof.Machine.execSecall t s
  | .hcall t => Sys2Proof.Machine.execHcall t s
  | .trap t n => Sys2Proof.Machine.execTrap t n s
  | .brk t => Sys2Proof.Machine.execBrk t s
  | .wflush t => Sys2Proof.Machine.execWflush t s
  | .barC t mask => Sys2Proof.Machine.execBarC t mask s
  | .barT t mask => Sys2Proof.Machine.execBarT t mask s
  | .barS t mask => Sys2Proof.Machine.execBarS t mask s
  | .wait t => Sys2Proof.Machine.execWait t s
  | .waitWake t => Sys2Proof.Machine.execWaitWake t s
  | .mfsr t rd sr => Sys2Proof.Machine.execMfsr t rd sr s
  | .mtsr t rs sr => Sys2Proof.Machine.execMtsr t rs sr s
  | .ipisend t rs => Sys2Proof.Machine.execIpisend t rs s
  | .xpost t rd rs rt => Sys2Proof.Machine.execXpost t rd rs rt s
  | .ecall t e rd rs rt => Sys2Proof.Machine.execEcall t e rd rs rt s
  | .bmov t rd rs rt => Sys2Proof.Machine.execBmov t rd rs rt s
  | .fpb t fmt op rd rs rt => Sys2Proof.Machine.execFpb t fmt op rd rs rt s
  | .fpd t fmt op rd rs rt => Sys2Proof.Machine.execFpd t fmt op rd rs rt s
  | .dquant t fmt fd fs ft => Sys2Proof.Machine.execDquant t fmt fd fs ft s
  | .fma t fmt sub fd fs ft fa => Sys2Proof.Machine.execFma t fmt sub fd fs ft fa s
  | .interruptEntry t mid => Sys2Proof.Machine.execInterruptEntry t mid s
  | .timerInterrupt t => Sys2Proof.Machine.execTimerInterrupt t s
  | .checkpointHarden t => Sys2Proof.Machine.execCheckpointHarden t s
  | .storeDrain t line => Sys2Proof.Machine.execStoreDrain t line s
  | .backlogStallRelease => Sys2Proof.Machine.execBacklogStallRelease s
  | .combiningTimeout t line => Sys2Proof.Machine.execCombiningTimeout t line s
  | .checkFires c thr chk => Sys2Proof.Machine.execCheckFires c thr chk s
  | .sparingStart c readOut => Sys2Proof.Machine.execSparingStart c readOut s
  | .sparingDrainEnd => Sys2Proof.Machine.execSparingDrainEnd s
  | .patchLoad => Sys2Proof.Machine.execPatchLoad s
  | .patchLoadComplete => Sys2Proof.Machine.execPatchLoadComplete s
  | .patchLock => Sys2Proof.Machine.execPatchLock s
  | .potEnable => Sys2Proof.Machine.execPotEnable s
  | .potCmd v => Sys2Proof.Machine.execPotCmd v s
  | .potCmdComplete => Sys2Proof.Machine.execPotCmdComplete s
  | .granuleScrubComplete gran => Sys2Proof.Machine.execGranuleScrubComplete gran s
  | .version t => Sys2Proof.Machine.execVersion t s
  | .partitionInformation t => Sys2Proof.Machine.execPartitionInformation t s
  | .setStage1Root t => Sys2Proof.Machine.execSetStage1Root t s
  | .setStage2Root t => Sys2Proof.Machine.execSetStage2Root t s
  | .setHypervisorRoot t => Sys2Proof.Machine.execSetHypervisorRoot t s
  | .tlbInvalidate t => Sys2Proof.Machine.execTlbInvalidate t s
  | .granuleQuery t => Sys2Proof.Machine.execGranuleQuery t s
  | .registerExchangeWindow t => Sys2Proof.Machine.execRegisterExchangeWindow t s
  | .deregisterExchangeWindow t => Sys2Proof.Machine.execDeregisterExchangeWindow t s
  | .offerSharedWindow t => Sys2Proof.Machine.execOfferSharedWindow t s
  | .offerLapse by_ taker gran num => Sys2Proof.Machine.execOfferLapse by_ taker gran num s
  | .acceptSharedWindow t => Sys2Proof.Machine.execAcceptSharedWindow t s
  | .withdrawSharedWindow t => Sys2Proof.Machine.execWithdrawSharedWindow t s
  | .gateRequest t => Sys2Proof.Machine.execGateRequest t s
  | .gateStatus t => Sys2Proof.Machine.execGateStatus t s
  | .class0Responder t => Sys2Proof.Machine.execClass0Responder t s
  | .readFaultRecord t => Sys2Proof.Machine.execReadFaultRecord t s
  | .clearFaultRecord t => Sys2Proof.Machine.execClearFaultRecord t s
  | .dictionaryPost t => Sys2Proof.Machine.execDictionaryPost t s
  | .dictionaryPoll t => Sys2Proof.Machine.execDictionaryPoll t s
  | .partitionReset t => Sys2Proof.Machine.execPartitionReset t s
  | .leaseWrite hi v => Sys2Proof.Machine.execLeaseWrite hi v s
  | .gatereq dictionary island action => Sys2Proof.Machine.execGatereq dictionary island action s
  | .islandIdle => Sys2Proof.Machine.execIslandIdle s
  | .gateIdleTimeout => Sys2Proof.Machine.execGateIdleTimeout s
  | .rdshared c thr line => Sys2Proof.Machine.execRdshared c thr line s
  | .prefrd c thr line => Sys2Proof.Machine.execPrefrd c thr line s
  | .rdown c thr line => Sys2Proof.Machine.execRdown c thr line s
  | .upgrade c line => Sys2Proof.Machine.execUpgrade c line s
  | .rdonce stop line => Sys2Proof.Machine.execRdonce stop line s
  | .wrinv src line data => Sys2Proof.Machine.execWrinv src line data s
  | .wrinvpart src line data => Sys2Proof.Machine.execWrinvpart src line data s
  | .wbdata c line => Sys2Proof.Machine.execWbdata c line s
  | .snpshared c line => Sys2Proof.Machine.execSnpshared c line s
  | .snpown c line => Sys2Proof.Machine.execSnpown c line s
  | .snpinv c line => Sys2Proof.Machine.execSnpinv c line s
  | .snponce c line => Sys2Proof.Machine.execSnponce c line s
  | .snoopHoldExpiry t => Sys2Proof.Machine.execSnoopHoldExpiry t s
  | .rspi c line => Sys2Proof.Machine.execRspi c line s
  | .rsps c line => Sys2Proof.Machine.execRsps c line s
  | .rspdata c line => Sys2Proof.Machine.execRspdata c line s
  | .rspdatawb c line => Sys2Proof.Machine.execRspdatawb c line s
  | .rspgonewb c line => Sys2Proof.Machine.execRspgonewb c line s
  | .data line => Sys2Proof.Machine.execData line s
  | .grant line => Sys2Proof.Machine.execGrant line s
  | .wback c line => Sys2Proof.Machine.execWback c line s
  | .cmp line => Sys2Proof.Machine.execCmp line s
  | .grantack line => Sys2Proof.Machine.execGrantack line s
  | .deviceStoreSend t page => Sys2Proof.Machine.execDeviceStoreSend t page s
  | .flushReadTimer port => Sys2Proof.Machine.execFlushReadTimer port s
  | .flushReadComplete port => Sys2Proof.Machine.execFlushReadComplete port s
  | .mmioTimeout port => Sys2Proof.Machine.execMmioTimeout port s
  | .deviceLoadComplete t good data => Sys2Proof.Machine.execDeviceLoadComplete t good data s
  | .mmioLoadTimeout t => Sys2Proof.Machine.execMmioLoadTimeout t s
  | .partitionDrainTimeout p => Sys2Proof.Machine.execPartitionDrainTimeout p s
  | .mcRead n line bad => Sys2Proof.Machine.execMcRead n line bad s
  | .mcWrite n => Sys2Proof.Machine.execMcWrite n s
  | .patrolRead n bad => Sys2Proof.Machine.execPatrolRead n bad s
  | .scrubWriteback n line => Sys2Proof.Machine.execScrubWriteback n line s
  | .ecsRead n rank count row => Sys2Proof.Machine.execEcsRead n rank count row s
  | .refresh n rank => Sys2Proof.Machine.execRefresh n rank s
  | .rfm n rank bank => Sys2Proof.Machine.execRfm n rank bank s
  | .temperaturePoll n dimm reading => Sys2Proof.Machine.execTemperaturePoll n dimm reading s
  | .dqsIntervalOscillator n rank => Sys2Proof.Machine.execDqsIntervalOscillator n rank s
  | .readCentring n rank => Sys2Proof.Machine.execReadCentring n rank s
  | .fullRetraining n rank => Sys2Proof.Machine.execFullRetraining n rank s
  | .retrainingSlice n held last margin => Sys2Proof.Machine.execRetrainingSlice n held last margin s
  | .channelTrainingComplete n ok narrow => Sys2Proof.Machine.execChannelTrainingComplete n ok narrow s
  | .alertN n failedReplays => Sys2Proof.Machine.execAlertN n failedReplays s
  | .sqDoorbellReserve t q => Sys2Proof.Machine.execSqDoorbellReserve t q s
  | .sqReady q slot => Sys2Proof.Machine.execSqReady q slot s
  | .sqRelease q slot => Sys2Proof.Machine.execSqRelease q slot s
  | .cqHead q head => Sys2Proof.Machine.execCqHead q head s
  | .slotVoid q slot => Sys2Proof.Machine.execSlotVoid q slot s
  | .acceptance p set q lidx => Sys2Proof.Machine.execAcceptance p set q lidx s
  | .transformComplete p lidx => Sys2Proof.Machine.execTransformComplete p lidx s
  | .exchangeSend p lidx handle => Sys2Proof.Machine.execExchangeSend p lidx handle s
  | .firstTlp port cls => Sys2Proof.Machine.execFirstTlp port cls s
  | .ack port m => Sys2Proof.Machine.execAck port m s
  | .cmpl port m result => Sys2Proof.Machine.execCmpl port m result s
  | .abtcfm port m => Sys2Proof.Machine.execAbtcfm port m s
  | .probersp port m => Sys2Proof.Machine.execProbersp port m s
  | .patherr port m => Sys2Proof.Machine.execPatherr port m s
  | .stale port m => Sys2Proof.Machine.execStale port m s
  | .adapterDmaRead port rid tag addr len => Sys2Proof.Machine.execAdapterDmaRead port rid tag addr len s
  | .adapterDmaWrite port rid tag addr data => Sys2Proof.Machine.execAdapterDmaWrite port rid tag addr data s
  | .inboundTransform p lidx => Sys2Proof.Machine.execInboundTransform p lidx s
  | .msi port => Sys2Proof.Machine.execMsi port s
  | .ackTimeout p lidx => Sys2Proof.Machine.execAckTimeout p lidx s
  | .trellisLinkDown port => Sys2Proof.Machine.execTrellisLinkDown port s
  | .trellisLinkUp port speed width => Sys2Proof.Machine.execTrellisLinkUp port speed width s
  | .pathProbe => Sys2Proof.Machine.execPathProbe s
  | .redriveWindowExpiry p lidx => Sys2Proof.Machine.execRedriveWindowExpiry p lidx s
  | .abortTimeout p sc => Sys2Proof.Machine.execAbortTimeout p sc s
  | .trellisPartitionReset p => Sys2Proof.Machine.execTrellisPartitionReset p s
  | .ledgerWriteRetry p => Sys2Proof.Machine.execLedgerWriteRetry p s
  | .trellisEnable => Sys2Proof.Machine.execTrellisEnable s
  | .withdraw port => Sys2Proof.Machine.execWithdraw port s
  | .withdrawWaitEnd port => Sys2Proof.Machine.execWithdrawWaitEnd port s
  | .termProbeTimeout => Sys2Proof.Machine.execTermProbeTimeout s
  | .createCq p => Sys2Proof.Machine.execCreateCq p s
  | .createSq p => Sys2Proof.Machine.execCreateSq p s
  | .enableQ p => Sys2Proof.Machine.execEnableQ p s
  | .disableQ p => Sys2Proof.Machine.execDisableQ p s
  | .deleteQ p => Sys2Proof.Machine.execDeleteQ p s
  | .createVcs p => Sys2Proof.Machine.execCreateVcs p s
  | .enableVcs p => Sys2Proof.Machine.execEnableVcs p s
  | .disableVcs p => Sys2Proof.Machine.execDisableVcs p s
  | .resetVcs p => Sys2Proof.Machine.execResetVcs p s
  | .removeVcs p => Sys2Proof.Machine.execRemoveVcs p s
  | .resizeVcs p => Sys2Proof.Machine.execResizeVcs p s
  | .queryVcs p => Sys2Proof.Machine.execQueryVcs p s
  | .dlogStart p => Sys2Proof.Machine.execDlogStart p s
  | .dlogSwap p => Sys2Proof.Machine.execDlogSwap p s
  | .dlogStop p => Sys2Proof.Machine.execDlogStop p s
  | .scionEnable => Sys2Proof.Machine.execScionEnable s
  | .startRule pairId fence peer => Sys2Proof.Machine.execStartRule pairId fence peer s
  | .startRuleConfirm fence peer => Sys2Proof.Machine.execStartRuleConfirm fence peer s
  | .startTimeout fence => Sys2Proof.Machine.execStartTimeout fence s
  | .fenceIn high => Sys2Proof.Machine.execFenceIn high s
  | .fatalHoldExpiry => Sys2Proof.Machine.execFatalHoldExpiry s
  | .laneGroupUp b => Sys2Proof.Machine.execLaneGroupUp b s
  | .laneGroupDown b => Sys2Proof.Machine.execLaneGroupDown b s
  | .laneGroupRetrain b => Sys2Proof.Machine.execLaneGroupRetrain b s
  | .linkControlUnit good nak => Sys2Proof.Machine.execLinkControlUnit good nak s
  | .hello pairId serial nonce => Sys2Proof.Machine.execHello pairId serial nonce s
  | .scionAuth mac => Sys2Proof.Machine.execScionAuth mac s
  | .scionAuthRetry => Sys2Proof.Machine.execScionAuthRetry s
  | .hbSend => Sys2Proof.Machine.execHbSend s
  | .hb role term ep => Sys2Proof.Machine.execHb role term ep s
  | .partnerLost peer => Sys2Proof.Machine.execPartnerLost peer s
  | .undoLogApplied peer => Sys2Proof.Machine.execUndoLogApplied peer s
  | .activePartnerLost fence peer => Sys2Proof.Machine.execActivePartnerLost fence peer s
  | .epochTimer => Sys2Proof.Machine.execEpochTimer s
  | .shipRequest => Sys2Proof.Machine.execShipRequest s
  | .line ep line poison data => Sys2Proof.Machine.execLine ep line poison data s
  | .regd ep thr entries => Sys2Proof.Machine.execRegd ep thr entries s
  | .cfgw ep addr value => Sys2Proof.Machine.execCfgw ep addr value s
  | .out ep handle stream abort path xsn => Sys2Proof.Machine.execOut ep handle stream abort path xsn s
  | .mmio ep addr data pid thr => Sys2Proof.Machine.execMmio ep addr data pid thr s
  | .mmiop ep port count => Sys2Proof.Machine.execMmiop ep port count s
  | .comp ep frame => Sys2Proof.Machine.execComp ep frame s
  | .img page data => Sys2Proof.Machine.execImg page data s
  | .scionClose ep count bytes => Sys2Proof.Machine.execScionClose ep count bytes s
  | .switch ep count bytes => Sys2Proof.Machine.execSwitch ep count bytes s
  | .scionAck ep => Sys2Proof.Machine.execScionAck ep s
  | .fail reason => Sys2Proof.Machine.execFail reason s
  | .switchOver => Sys2Proof.Machine.execSwitchOver s
  | .switchOverTimeout => Sys2Proof.Machine.execSwitchOverTimeout s
  | .join source peer => Sys2Proof.Machine.execJoin source peer s
  | .joinWritebackEnd => Sys2Proof.Machine.execJoinWritebackEnd s
  | .imgSend => Sys2Proof.Machine.execImgSend s
  | .joinImageComplete => Sys2Proof.Machine.execJoinImageComplete s
  | .joinEnd => Sys2Proof.Machine.execJoinEnd s
  | .sieveBlockStart comp => Sys2Proof.Machine.execSieveBlockStart comp s
  | .sieveBlockComplete src k glitches => Sys2Proof.Machine.execSieveBlockComplete src k glitches s
  | .compress p c => Sys2Proof.Machine.execCompress p c s
  | .decompress p c => Sys2Proof.Machine.execDecompress p c s
  | .decompressARange p c => Sys2Proof.Machine.execDecompressARange p c s
  | .bindEnable e p c set level => Sys2Proof.Machine.execBindEnable e p c set level s
  | .bindDisable e p c => Sys2Proof.Machine.execBindDisable e p c s
  | .aesCbcEncrypt p c => Sys2Proof.Machine.execAesCbcEncrypt p c s
  | .aesCbcDecrypt p c => Sys2Proof.Machine.execAesCbcDecrypt p c s
  | .aesCtrEncrypt p c => Sys2Proof.Machine.execAesCtrEncrypt p c s
  | .aesCtrDecrypt p c => Sys2Proof.Machine.execAesCtrDecrypt p c s
  | .aesGcmEncrypt p c => Sys2Proof.Machine.execAesGcmEncrypt p c s
  | .aesGcmDecrypt p c => Sys2Proof.Machine.execAesGcmDecrypt p c s
  | .aesXtsEncrypt p c => Sys2Proof.Machine.execAesXtsEncrypt p c s
  | .aesXtsDecrypt p c => Sys2Proof.Machine.execAesXtsDecrypt p c s
  | .keyExport p c => Sys2Proof.Machine.execKeyExport p c s
  | .keyImport p c => Sys2Proof.Machine.execKeyImport p c s
  | .keyGenerate p c => Sys2Proof.Machine.execKeyGenerate p c s
  | .keyZero p c => Sys2Proof.Machine.execKeyZero p c s
  | .keyQuery p c => Sys2Proof.Machine.execKeyQuery p c s
  | .sha p c => Sys2Proof.Machine.execSha p c s
  | .hmacGenerate p c => Sys2Proof.Machine.execHmacGenerate p c s
  | .hmacVerify p c => Sys2Proof.Machine.execHmacVerify p c s
  | .ecdsaP384Verify p c => Sys2Proof.Machine.execEcdsaP384Verify p c s
  | .garnetUnitComplete lane agree => Sys2Proof.Machine.execGarnetUnitComplete lane agree s
  | .keyStoreEnable => Sys2Proof.Machine.execKeyStoreEnable s
  | .pslotWrite p v => Sys2Proof.Machine.execPslotWrite p v s
  | .faultAck b => Sys2Proof.Machine.execFaultAck b s
  | .faultClear b => Sys2Proof.Machine.execFaultClear b s
  | .counterEvent b event thr => Sys2Proof.Machine.execCounterEvent b event thr s
  | .snapshot g late => Sys2Proof.Machine.execSnapshot g late s
  | .sampleTag c thr => Sys2Proof.Machine.execSampleTag c thr s
  | .sampleRecord c outcome exc src daddr fd di ic cr => Sys2Proof.Machine.execSampleRecord c outcome exc src daddr fd di ic cr s
  | .clockValidRise isl => Sys2Proof.Machine.execClockValidRise isl s
  | .clockValidDrop isl => Sys2Proof.Machine.execClockValidDrop isl s
  | .refclkLoss ref => Sys2Proof.Machine.execRefclkLoss ref s
  | .auxPowerOn errs => Sys2Proof.Machine.execAuxPowerOn errs s
  | .auxColdReset => Sys2Proof.Machine.execAuxColdReset s
  | .mainPowerGood errs => Sys2Proof.Machine.execMainPowerGood errs s
  | .mainPowerGoodLoss => Sys2Proof.Machine.execMainPowerGoodLoss s
  | .resetN => Sys2Proof.Machine.execResetN s
  | .warmN low => Sys2Proof.Machine.execWarmN low s
  | .moduleColdReset src => Sys2Proof.Machine.execModuleColdReset src s
  | .moduleWarmReset src => Sys2Proof.Machine.execModuleWarmReset src s
  | .rstCmdModuleCold key => Sys2Proof.Machine.execRstCmdModuleCold key s
  | .rstCmdModuleWarm key => Sys2Proof.Machine.execRstCmdModuleWarm key s
  | .rstCmdPartition p key => Sys2Proof.Machine.execRstCmdPartition p key s
  | .rstCmdCore c key => Sys2Proof.Machine.execRstCmdCore c key s
  | .partitionThreadStart t p lcore c0r => Sys2Proof.Machine.execPartitionThreadStart t p lcore c0r s
  | .watchdogEnable => Sys2Proof.Machine.execWatchdogEnable s
  | .hbeat => Sys2Proof.Machine.execHbeat s
  | .watchdogExpiry => Sys2Proof.Machine.execWatchdogExpiry s
  | .blockResetAndRelease isl => Sys2Proof.Machine.execBlockResetAndRelease isl s
  | .blockResetAndHold isl => Sys2Proof.Machine.execBlockResetAndHold isl s
  | .blockRelease isl => Sys2Proof.Machine.execBlockRelease isl s
  | .blockIdle isl => Sys2Proof.Machine.execBlockIdle isl s
  | .blockIdleTimeout isl => Sys2Proof.Machine.execBlockIdleTimeout isl s
  | .rootstockImageVerified failing a b image record entry start => Sys2Proof.Machine.execRootstockImageVerified failing a b image record entry start s
  | .enterDoze => Sys2Proof.Machine.execEnterDoze s
  | .enterSleep => Sys2Proof.Machine.execEnterSleep s
  | .wake src => Sys2Proof.Machine.execWake src s
  | .issueLimit tile celsius => Sys2Proof.Machine.execIssueLimit tile celsius s
  | .thermalTrip => Sys2Proof.Machine.execThermalTrip s
  | .hardwareBackstop => Sys2Proof.Machine.execHardwareBackstop s
  | .openSession port mac pdu n => Sys2Proof.Machine.execOpenSession port mac pdu n s
  | .auth port mac pdu durable => Sys2Proof.Machine.execAuth port mac pdu durable s
  | .authTimeout session => Sys2Proof.Machine.execAuthTimeout session s
  | .lockoutEnd role => Sys2Proof.Machine.execLockoutEnd role s
  | .close port mac pdu => Sys2Proof.Machine.execClose port mac pdu s
  | .sessionIdleTimeout session => Sys2Proof.Machine.execSessionIdleTimeout session s
  | .read req => Sys2Proof.Machine.execRead req s
  | .write req durable => Sys2Proof.Machine.execWrite req durable s
  | .readseg req => Sys2Proof.Machine.execReadseg req s
  | .writeseg req durable => Sys2Proof.Machine.execWriteseg req durable s
  | .segmentExpiry session obj write => Sys2Proof.Machine.execSegmentExpiry session obj write s
  | .describe req => Sys2Proof.Machine.execDescribe req s
  | .subscribe req => Sys2Proof.Machine.execSubscribe req s
  | .unsubscribe req => Sys2Proof.Machine.execUnsubscribe req s
  | .notification session obj => Sys2Proof.Machine.execNotification session obj s
  | .otherFrame => Sys2Proof.Machine.execOtherFrame s
  | .powerCommand req durable => Sys2Proof.Machine.execPowerCommand req durable s
  | .moduleResetObject req durable => Sys2Proof.Machine.execModuleResetObject req durable s
  | .gateRequestObject req durable => Sys2Proof.Machine.execGateRequestObject req durable s
  | .kekLoad req durable => Sys2Proof.Machine.execKekLoad req durable s
  | .partitionStart req durable => Sys2Proof.Machine.execPartitionStart req durable s
  | .partitionStop req durable => Sys2Proof.Machine.execPartitionStop req durable s
  | .controlReset req durable => Sys2Proof.Machine.execControlReset req durable s
  | .cfmChg t => Sys2Proof.Machine.execCfmChg t s
  | .cfmStcs t => Sys2Proof.Machine.execCfmStcs t s
  | .makerDebug req durable high => Sys2Proof.Machine.execMakerDebug req durable high s
  | .zeroisationComplete high => Sys2Proof.Machine.execZeroisationComplete high s
  | .stcAdvance => Sys2Proof.Machine.execStcAdvance s
  | .sync port source domain t1 => Sys2Proof.Machine.execSync port source domain t1 s
  | .announce port source domain prio1 cls acc var prio2 gm steps utc => Sys2Proof.Machine.execAnnounce port source domain prio1 cls acc var prio2 gm steps utc s
  | .delayResp port source domain seq t4 => Sys2Proof.Machine.execDelayResp port source domain seq t4 s
  | .announceReceiptTimeout announce => Sys2Proof.Machine.execAnnounceReceiptTimeout announce s
  | .holdoverLimitExpiry => Sys2Proof.Machine.execHoldoverLimitExpiry s
  | .ppsIn high => Sys2Proof.Machine.execPpsIn high s
  | .ppsInMissing => Sys2Proof.Machine.execPpsInMissing s
  | .ppsOut => Sys2Proof.Machine.execPpsOut s
  | .stcAlarm => Sys2Proof.Machine.execStcAlarm s
  | .registerWrite addr value => Sys2Proof.Machine.execRegisterWrite addr value s
  | .illegalInstruction t word => Sys2Proof.Machine.execIllegalInstruction t word s
  | .mainReturn => Sys2Proof.Machine.execMainReturn s
  | .resetNRelease => Sys2Proof.Machine.execResetNRelease s
  | .managementPortLinkDown port => Sys2Proof.Machine.execManagementPortLinkDown port s
  | .managementPortLinkUp port => Sys2Proof.Machine.execManagementPortLinkUp port s
  | .registerRead t addr => Sys2Proof.Machine.execRegisterRead t addr s
  | .delayRequest => Sys2Proof.Machine.execDelayRequest s
  | .dmaCeilingInterval p set => Sys2Proof.Machine.execDmaCeilingInterval p set s
  | .ecdsaVerifyComplete p c agree => Sys2Proof.Machine.execEcdsaVerifyComplete p c agree s

end Sys2Proof.Machine
end

