-- ==== Sys2Proof/Machine/Step.lean ====
section
/-! DEFINITION. One step: the command at the front of the queue, or idling on an empty queue (DESIGN CHOICE, log 21). -/

namespace Sys2Proof.Machine

/-- The state with command `i` put at the front of its queue. -/
def State.withFront (s : State) (i : Instr) : State := { s with pending := i :: s.pending }

/-- The command at the front is taken out and has its effect on the rest; an empty queue idles. DEDUCED: log 132. -/
def step (s : State) : Host.Outcome State Fault Refusal :=
  match s.pending with
  | [] => .next s
  | i :: rest => exec i { s with pending := rest }

/-- The state with the command that a word spells at the front; no word spells one. -/
def State.withFetchWord (s : State) (nbits w : Nat) : State :=
  match decodeTableWord nbits w with
  | some i => s.withFront i
  | none => s

end Sys2Proof.Machine
end

