-- ==== Sys2Proof/Safety.lean ====
section
/-! DEFINITION. What a run that goes on is, and the words in which the statements speak of it. -/

namespace Sys2Proof.Machine

/-- A command completes in a state: it answers a next state. -/
def Completes (i : Instr) (s : State) : Prop := ∃ t, exec i s = .next t

/-- A state whose step goes on. -/
def Safe (s : State) : Prop := ∃ t, step s = .next t

/-- The architected state of a thread. -/
def State.arch (s : State) (t : ThreadId) : Arch := (s.thr t.val).cur

/-- Thread `t` issues an instruction whose integer register fields are `rs`: its fetch passes and gives `s1`, no
backlog stalls the commit, and every field names a register (R28, R61, R377). -/
def Issues (t : ThreadId) (rs : List (BitVec 6)) (s s1 : State) : Prop :=
  s.fetched t.val = some s1 ∧ s.stalled = false ∧ regsOk rs = true

/-- No interrupt that the thread may take is pending at the boundary before its instruction, so that a fault of it is
taken (R53). -/
def Calm (t : ThreadId) (s : State) : Prop := s.irqAt t.val = none

/-- The instruction retires with the architected state `a` and changes nothing else after its fetch, but for what it
means to a constrained loop (R78). -/
def Retires (i : Instr) (t : ThreadId) (a : Arch) (s s1 : State) (k : InstrEnd := .other) : Prop :=
  exec i s = .next (s1.retireTo t.val a k)

/-- In `u` thread `t` of `s1` has retired with the architected state `a`; a reservation that other agents' stores have been
ordered after has ended with its loop (R78; DEDUCED, log 147). -/
def Reached (u s1 : State) (t : ThreadId) (a : Arch) : Prop :=
  u.arch t = a ∨ ((s1.thr t.val).loop.any (fun l => !l.late.isEmpty) = true ∧ u.arch t = { a with rsv := none })

/-- No request for a line is under way and no routine holds one for a descriptor's flag, so that a hub block's access finds
nothing to wait for. -/
def State.hubIdle (s : State) : Bool :=
  s.txns.isEmpty && s.ingress.isEmpty && s.atRing.isEmpty &&
  s.threads.all fun p => p.2.sb.all fun e => e.stores.all fun x => !x.desc

/-- The instruction writes `v` into rd, no flag, and goes on at the next address. -/
def WritesG (i : Instr) (t : ThreadId) (rd : BitVec 6) (v : W64) (s s1 : State) (k : InstrEnd := .other) : Prop :=
  Retires i t ((s1.arch t).next.setG rd.toNat v) s s1 k

/-- The instruction writes `v` into rd, sets SR.FLG to the four flags, and goes on at the next address. -/
def WritesGF (i : Instr) (t : ThreadId) (rd : BitVec 6) (v : W64) (n z vf c : Bool) (s s1 : State)
    (k : InstrEnd := .other) : Prop :=
  Retires i t (((s1.arch t).next.setG rd.toNat v).setSr 0 (Nzvc.mk n z vf c).word) s s1 k

/-- In `u` thread `t` has entered bank `b` for the exception of a code, from the state `a`, with the address
`epc` to come back to and no fault address (R54). -/
def Entered (u : State) (t : ThreadId) (a : Arch) (b code : Nat) (epc : W64) : Prop :=
  let e := u.arch t
  let k := bankBase b
  let es := e.srv (k + 1)
  e.srv k = setFld epc 1 0 0 ∧ e.srv (k + 2) = pack [(63, 63, 1), (7, 0, code)] ∧ e.srv (k + 3) = 0 ∧
  fld es 63 60 = a.flg.toNat % 16 ∧ fld es 20 16 = a.cwp ∧ fld es 15 14 = a.pl ∧ bit es 13 = a.ie ∧
  bit es 12 = a.fpe ∧ fld es 11 8 = a.ipl ∧
  e.pl = b ∧ e.ie = false ∧ e.fpe = a.fpe ∧ e.ipl = a.ipl ∧ e.cwp = (a.cwp + 1) % 28 ∧ e.res = a.res + 1 ∧
  e.rsv = none ∧ e.delay = none ∧ e.pc = a.srv (k + 6) + BitVec.ofNat 64 (code * 0x100) ∧ e.regs = a.regs ∧
  e.fregs = a.fregs

end Sys2Proof.Machine
end

