-- ==== Sys2Proof/Certificates/Slice0/Obligations.lean ====
section
/-! DEFINITION. The statements for the provers. -/

open Sys2Proof Sys2Proof.Machine

/-- A step takes the command at the front of the queue and runs it on the rest; an empty queue idles, which is the model's choice (log 21). -/
def Obligations.StepRunsFront : Prop :=
  (∀ (c : Instr) (s : State), step (s.withFront c) = exec c s) ∧
  (∀ s : State, s.pending = [] → step s = .next s)

/-- Every command completes in every state: the model has no stop. -/
def Obligations.EveryCommandCompletes : Prop :=
  ∀ (c : Instr) (s : State), Completes c s

/-- Memory stays in its canonical form through every step. -/
def Obligations.MemoryStaysCanonical : Prop :=
  ∀ s t : State, Memory.wf s.mem = true → step s = .next t → Memory.wf t.mem = true

/-- The state after reset meets the premises of the invariants. -/
def Obligations.ResetIsCanonical : Prop :=
  Memory.wf State.reset.mem = true ∧ State.reset.mem = [] ∧ Map.wf regDefault State.reset.regs = true ∧
  Map.wf Thread.reset State.reset.threads = true ∧ State.reset.pending = []

/-- Decode of encode, for every KZA instruction. -/
def Obligations.KzaDecodeOfEncode : Prop :=
  ∀ (i : Instr) (t : ThreadId) (w : BitVec 32), encodeKza i = some (t, w) → decodeKza t w = some i

/-- Whatever the decoder reads, the encoder can write. -/
def Obligations.KzaDecodedIsEncodable : Prop :=
  ∀ (i : Instr) (t : ThreadId) (w : BitVec 32), decodeKza t w = some i → ∃ v, encodeKza i = some (t, v)

/-- Words written out from the encodings of the spec. -/
def Obligations.KzaWordsDecode : Prop :=
  ∀ t : ThreadId,
    decodeKza t 0x5D344018 = some (.load t .ldd 19 (.disp 17 0x18)) ∧
    decodeKza t 0xA040FFFD = some (.bcc t 1 (-3)) ∧
    decodeKza t 0x00000000 = none ∧
    decodeKza t 0xBC000A03 = some (.barS t 3) ∧
    decodeKza t 0xBC000A00 = none

/-- The ALU group writes rd with the value of R65's table. -/
def Obligations.AluResults : Prop :=
  ∀ (t : ThreadId) (rd rs rt : BitVec 6) (s s1 : State), Issues t [rd, rs, rt] s s1 →
    let a := s1.arch t
    let x := a.g rs.toNat
    let y := a.g rt.toNat
    let c : W64 := if bit a.flg 0 then 1 else 0
    let k := y.toNat % 64
    WritesG (.aluGroup t .add false rd rs rt) t rd (x + y) s s1 .inside ∧
    WritesG (.aluGroup t .sub false rd rs rt) t rd (x - y) s s1 .inside ∧
    WritesG (.aluGroup t .adc false rd rs rt) t rd (x + y + c) s s1 .inside ∧
    WritesG (.aluGroup t .sbc false rd rs rt) t rd (x - y - (1 - c)) s s1 .inside ∧
    WritesG (.aluGroup t .and false rd rs rt) t rd (x &&& y) s s1 .inside ∧
    WritesG (.aluGroup t .or false rd rs rt) t rd (x ||| y) s s1 .inside ∧
    WritesG (.aluGroup t .xor false rd rs rt) t rd (x ^^^ y) s s1 .inside ∧
    WritesG (.aluGroup t .andn false rd rs rt) t rd (x &&& ~~~y) s s1 .inside ∧
    WritesG (.aluGroup t .sll false rd rs rt) t rd (x <<< k) s s1 .inside ∧
    WritesG (.aluGroup t .srl false rd rs rt) t rd (x >>> k) s s1 .inside ∧
    WritesG (.aluGroup t .sra false rd rs rt) t rd (x.sshiftRight k) s s1 .inside ∧
    WritesG (.aluGroup t .rol false rd rs rt) t rd (x <<< k ||| x >>> ((64 - k) % 64)) s s1 .inside ∧
    WritesG (.aluGroup t .ror false rd rs rt) t rd (x >>> k ||| x <<< ((64 - k) % 64)) s s1 .inside ∧
    WritesG (.aluGroup t .min false rd rs rt) t rd (if x.toInt ≤ y.toInt then x else y) s s1 .inside ∧
    WritesG (.aluGroup t .max false rd rs rt) t rd (if x.toInt ≤ y.toInt then y else x) s s1 .inside ∧
    WritesG (.aluGroup t .minu false rd rs rt) t rd (if x.toNat ≤ y.toNat then x else y) s s1 .inside ∧
    WritesG (.aluGroup t .maxu false rd rs rt) t rd (if x.toNat ≤ y.toNat then y else x) s s1 .inside

/-- The flags of R66. -/
def Obligations.FlagsOfFForms : Prop :=
  ∀ (t : ThreadId) (rd rs rt : BitVec 6) (imm : BitVec 14) (s s1 : State), Issues t [rd, rs, rt] s s1 →
    let a := s1.arch t
    let x := a.g rs.toNat
    let y := a.g rt.toNat
    let c := (bit a.flg 0).toNat
    let k := y.toNat % 64
    let fl := fun (op : AluOp) (r : W64) (v cc : Bool) => WritesGF (.aluGroup t op true rd rs rt) t rd r r.msb (r == 0) v cc s s1 .inside
    let add := x + y
    let adc := x + y + BitVec.ofNat 64 c
    let sub := x - y
    let sbc := x - y - BitVec.ofNat 64 (1 - c)
    let i := imm.signExtend 64
    fl .add add (decide (x.toInt + y.toInt ≠ add.toInt)) (decide (2 ^ 64 ≤ x.toNat + y.toNat)) ∧
    fl .adc adc (decide (x.toInt + y.toInt + c ≠ adc.toInt)) (decide (2 ^ 64 ≤ x.toNat + y.toNat + c)) ∧
    fl .sub sub (decide (x.toInt - y.toInt ≠ sub.toInt)) (decide (y.toNat ≤ x.toNat)) ∧
    fl .sbc sbc (decide (x.toInt - y.toInt - (1 - (c : Int)) ≠ sbc.toInt)) (decide (y.toNat + (1 - c) ≤ x.toNat)) ∧
    fl .and (x &&& y) false false ∧ fl .or (x ||| y) false false ∧
    fl .xor (x ^^^ y) false false ∧ fl .andn (x &&& ~~~y) false false ∧
    fl .sll (x <<< k) false (k != 0 && x.getLsbD (64 - k)) ∧
    fl .srl (x >>> k) false (k != 0 && x.getLsbD (k - 1)) ∧
    fl .sra (x.sshiftRight k) false (k != 0 && x.getLsbD (k - 1)) ∧
    WritesGF (.immediate t .addif rd rs imm) t rd (x + i) (x + i).msb (x + i == 0)
      (decide (x.toInt + i.toInt ≠ (x + i).toInt)) (decide (2 ^ 64 ≤ x.toNat + i.toNat)) s s1 .inside ∧
    WritesGF (.immediate t .subif rd rs imm) t rd (x - i) (x - i).msb (x - i == 0)
      (decide (x.toInt - i.toInt ≠ (x - i).toInt)) (decide (i.toNat ≤ x.toNat)) s s1 .inside ∧
    WritesGF (.shifti t .sllif rd rs rt) t rd (x <<< rt.toNat) (x <<< rt.toNat).msb (x <<< rt.toNat == 0) false
      (rt != 0 && x.getLsbD (64 - rt.toNat)) s s1 .inside ∧
    WritesGF (.shifti t .srlif rd rs rt) t rd (x >>> rt.toNat) (x >>> rt.toNat).msb (x >>> rt.toNat == 0) false
      (rt != 0 && x.getLsbD (rt.toNat - 1)) s s1 .inside ∧
    WritesGF (.shifti t .sraif rd rs rt) t rd (x.sshiftRight rt.toNat) (x.sshiftRight rt.toNat).msb
      (x.sshiftRight rt.toNat == 0) false (rt != 0 && x.getLsbD (rt.toNat - 1)) s s1 .inside ∧
    WritesGF (.muldiv t .mul true rd rs rt) t rd (x * y) (x * y).msb (x * y == 0)
      (decide (x.toInt * y.toInt ≠ (x * y).toInt)) (decide (2 ^ 64 ≤ x.toNat * y.toNat)) s s1 ∧
    (y ≠ 0 → WritesGF (.muldiv t .div true rd rs rt) t rd (x.sdiv y) (x.sdiv y).msb (x.sdiv y == 0)
      (x == BitVec.intMin 64 && y == -1) false s s1) ∧
    (y ≠ 0 → WritesGF (.muldiv t .divu true rd rs rt) t rd (x / y) (x / y).msb (x / y == 0) false false s s1) ∧
    (Map.wf Thread.reset s1.threads = true →
      (∀ (op : AluOp) (u : State), exec (.aluGroup t op false rd rs rt) s = .next u → (u.arch t).flg = a.flg) ∧
      (∀ (op : MulOp) (u : State), y ≠ 0 → exec (.muldiv t op false rd rs rt) s = .next u → (u.arch t).flg = a.flg) ∧
      (∀ (op : ImmOp) (u : State), op ≠ .addif → op ≠ .subif →
        exec (.immediate t op rd rs imm) s = .next u → (u.arch t).flg = a.flg) ∧
      (∀ (op : ShiftOp) (u : State), op ≠ .sllif → op ≠ .srlif → op ≠ .sraif →
        exec (.shifti t op rd rs rt) s = .next u → (u.arch t).flg = a.flg))

/-- The immediate forms write rd with the value of R67's table. -/
def Obligations.ImmediateResults : Prop :=
  ∀ (t : ThreadId) (rd rs amount : BitVec 6) (imm : BitVec 14) (imm20 : BitVec 20) (s s1 : State), Issues t [rd, rs] s s1 →
    let a := s1.arch t
    let x := a.g rs.toNat
    let i := imm.signExtend 64
    let z := imm.setWidth 64
    let k := amount.toNat
    WritesG (.immediate t .addi rd rs imm) t rd (x + i) s s1 .inside ∧
    WritesG (.immediate t .andi rd rs imm) t rd (x &&& z) s s1 .inside ∧
    WritesG (.immediate t .ori rd rs imm) t rd (x ||| z) s s1 .inside ∧
    WritesG (.immediate t .xori rd rs imm) t rd (x ^^^ z) s s1 .inside ∧
    WritesG (.immediate t .muli rd rs imm) t rd (x * i) s s1 .inside ∧
    WritesG (.shifti t .slli rd rs amount) t rd (x <<< k) s s1 .inside ∧
    WritesG (.shifti t .srli rd rs amount) t rd (x >>> k) s s1 .inside ∧
    WritesG (.shifti t .srai rd rs amount) t rd (x.sshiftRight k) s s1 .inside ∧
    WritesG (.shifti t .roli rd rs amount) t rd (x.rotateLeft k) s s1 .inside ∧
    WritesG (.shifti t .rori rd rs amount) t rd (x.rotateRight k) s s1 .inside ∧
    WritesG (.ldi t rd imm20) t rd (imm20.signExtend 64) s s1 ∧
    WritesG (.ldu t rd imm20) t rd ((imm20 ++ 0#12).signExtend 64) s s1 ∧
    WritesG (.addpc t rd imm20) t rd (a.pc + (imm20 ++ 0#12).signExtend 64) s s1

/-- MULDIV and BIT, bit by bit. -/
def Obligations.MulDivBitResults : Prop :=
  ∀ (t : ThreadId) (rd rs rt : BitVec 6) (s s1 : State), Issues t [rd, rs, rt] s s1 →
    let x := (s1.arch t).g rs.toNat
    let y := (s1.arch t).g rt.toNat
    WritesG (.muldiv t .mul false rd rs rt) t rd (x * y) s s1 ∧
    WritesG (.muldiv t .mulh false rd rs rt) t rd ((x.signExtend 128 * y.signExtend 128) >>> 64 |>.setWidth 64) s s1 ∧
    WritesG (.muldiv t .mulhu false rd rs rt) t rd ((x.setWidth 128 * y.setWidth 128) >>> 64 |>.setWidth 64) s s1 ∧
    (y ≠ 0 → WritesG (.muldiv t .div false rd rs rt) t rd (x.sdiv y) s s1 ∧
      WritesG (.muldiv t .divu false rd rs rt) t rd (x / y) s s1 ∧
      WritesG (.muldiv t .rem false rd rs rt) t rd (x.srem y) s s1 ∧
      WritesG (.muldiv t .remu false rd rs rt) t rd (x % y) s s1) ∧
    (∀ op : BitOp, ∃ r, WritesG (.bitGroup t op rd rs) t rd r s s1 ∧
      match op with
      | .parD => r.toNat = ((List.range 64).countP fun i => x.getLsbD i) % 2
      | .parB => ∀ k, k < 64 → r.getLsbD k = (decide (k < 8) && decide (((List.range 8).countP fun i => x.getLsbD (8 * k + i)) % 2 = 1))
      | .brevD => ∀ k, k < 64 → r.getLsbD k = x.getLsbD (63 - k)
      | .brevW => ∀ k, k < 64 → r.getLsbD k = (decide (k < 32) && x.getLsbD (31 - k))
      | .brevB => ∀ k, k < 64 → r.getLsbD k = x.getLsbD (k / 8 * 8 + (7 - k % 8))
      | .bswapD => ∀ k, k < 64 → r.getLsbD k = x.getLsbD (8 * (7 - k / 8) + k % 8)
      | .bswapW => ∀ k, k < 64 → r.getLsbD k = (decide (k < 32) && x.getLsbD (8 * (3 - k / 8) + k % 8))
      | .bswapH => ∀ k, k < 64 → r.getLsbD k = (decide (k < 16) && x.getLsbD (8 * (1 - k / 8) + k % 8))
      | .clz => r.toNat ≤ 64 ∧ (∀ k, k < 64 → 64 - r.toNat ≤ k → x.getLsbD k = false) ∧ (if x = 0 then r = 64 else x.getLsbD (63 - r.toNat) = true)
      | .ctz => r.toNat ≤ 64 ∧ (∀ k, k < r.toNat → x.getLsbD k = false) ∧ (if x = 0 then r = 64 else x.getLsbD r.toNat = true)
      | .popc => r.toNat = (List.range 64).countP fun i => x.getLsbD i
      | .sextB => r = (x.setWidth 8).signExtend 64
      | .sextH => r = (x.setWidth 16).signExtend 64
      | .sextW => r = (x.setWidth 32).signExtend 64
      | .zextW => r = (x.setWidth 32).setWidth 64)

/-- CRC by R71's pseudocode. -/
def Obligations.CrcResult : Prop :=
  ∀ (t : ThreadId) (poly : CrcPoly) (width : BitVec 2) (rd rs rt : BitVec 6) (s s1 : State), Issues t [rd, rs, rt] s s1 →
    let x := (s1.arch t).g rs.toNat
    let y := (s1.arch t).g rt.toNat
    let absorb := fun (w : Nat) (step : Nat → Nat) (c b : Nat) => (List.range 8).foldl (fun c _ => step c) (c ^^^ (b * 2 ^ w))
    let run := fun (W w : Nat) (step : Nat → Nat) =>
      (List.range (2 ^ width.toNat)).reverse.foldl (fun c j => absorb w step c (y.toNat / 256 ^ j % 256)) (x.toNat % 2 ^ W)
    let refl := fun (P c : Nat) => if c % 2 = 1 then (c / 2) ^^^ P else c / 2
    let norm := fun (W P c : Nat) => if c / 2 ^ (W - 1) % 2 = 1 then ((c * 2) ^^^ P) % 2 ^ W else c * 2 % 2 ^ W
    WritesG (.crc t poly width rd rs rt) t rd (BitVec.ofNat 64 (match poly with
      | .crc32 => run 32 0 (refl 0xEDB88320)
      | .crc32c => run 32 0 (refl 0x82F63B78)
      | .crc16 => run 16 8 (norm 16 0x1021)
      | .crc64 => run 64 56 (norm 64 0x42F0E1EBA9EA3693))) s s1

/-- The frame of every instruction whose only result is an integer register. -/
def Obligations.RegisterWriteFrame : Prop :=
  ∀ (t : ThreadId) (rd : BitVec 6) (v : W64) (s : State) (k : InstrEnd),
    Map.wf Thread.reset s.threads = true → Map.wf zero64 (s.arch t).regs = true → (s.arch t).cwp < 28 → rd.toNat < 40 →
    let u := s.retireTo t.val ((s.arch t).next.setG rd.toNat v) k
    (u.arch t).g rd.toNat = (if rd = 0 then 0 else v) ∧
    (∀ n, n < 40 → n ≠ rd.toNat → (u.arch t).g n = (s.arch t).raw n) ∧
    (u.arch t).fregs = (s.arch t).fregs ∧ (u.arch t).sr = (s.arch t).sr ∧ (u.arch t).lvls = (s.arch t).lvls ∧
    ((u.arch t).rsv = (s.arch t).rsv ∨
      ((u.arch t).rsv = none ∧ (s.thr t.val).loop.any (fun l => !l.late.isEmpty) = true)) ∧ (u.arch t).delay = none ∧ (u.arch t).pc = (s.arch t).pc + 4 ∧
    (∀ m, m ≠ t.val → u.thr m = s.thr m) ∧ (u.thr t.val).sb = (s.thr t.val).sb ∧ (u.thr t.val).hard = (s.thr t.val).hard ∧
    (∀ a, u.rdByte a = s.rdByte a) ∧ u.regs = s.regs ∧ u.trl = s.trl ∧ u.l2 = s.l2

/-- The conditions of R80 and R81. -/
def Obligations.ConditionalBranches : Prop :=
  ∀ (t : ThreadId) (cond : BitVec 4) (rs : BitVec 6) (disp : BitVec 16) (s s1 : State), Issues t [rs] s s1 →
    let a := s1.arch t
    let n := bit a.flg 3
    let z := bit a.flg 2
    let v := bit a.flg 1
    let c := bit a.flg 0
    let x := (a.g rs.toNat).toInt
    let dest := fun (b : Bool) => { a.next with pc := if b then a.pc + disp.signExtend 64 * 4 else a.pc + 4 }
    let on := [z, !z, c, !c, n, !n, v, !v, c && !z, !c || z, n == v, n != v, !z && (n == v), z || (n != v), true]
    let tests := [x == 0, x != 0, decide (x < 0), decide (0 ≤ x), decide (x ≤ 0), decide (0 < x), decide (x % 2 = 1), decide (x % 2 = 0)]
    (∀ b, on[cond.toNat]? = some b → Retires (.bcc t cond disp) t (dest b) s s1) ∧
    (∀ b, tests[cond.toNat]? = some b → Retires (.brr t cond rs disp) t (dest b) s s1) ∧
    (cond = 15 → Calm t s → exec (.bcc t cond disp) s = .next (s1.takeExc t.val (mkExc 0x04 0))) ∧
    (8 ≤ cond.toNat → Calm t s → exec (.brr t cond rs disp) s = .next (s1.takeExc t.val (mkExc 0x04 0)))

/-- The transfers, with their window. -/
def Obligations.TransfersWithinWindows : Prop :=
  ∀ (t : ThreadId) (rd rs : BitVec 6) (imm : BitVec 14) (disp : BitVec 26) (s s1 : State), Issues t [rd, rs] s s1 →
    let a := s1.arch t
    let x := a.g rs.toNat
    let called := fun (a1 : Arch) => { ((a1.next.setWin ((a1.cwp + 1) % 28) (a1.res + 1)).setG 15 (a.pc + 4)) with
      lvls := Map.set lvlDefault a1.lvls ((a1.cwp + 1) % 28) a.pl }
    exec (.nop t) s = .next (s1.retireTo t.val a.next) ∧
    exec (.br t disp) s = .next (s1.retireTo t.val { a.next with pc := a.pc + disp.signExtend 64 * 4 }) ∧
    exec (.jr t rd rs imm) s =
      .next (s1.retireTo t.val ({ a.next with pc := x + imm.signExtend 64 }.setG rd.toNat (a.pc + 4))) ∧
    (a.res < 26 →
      exec (.call t (.rel disp)) s = .next (s1.retireTo t.val { called a with pc := a.pc + disp.signExtend 64 * 4 }) ∧
      exec (.call t (.reg rs imm)) s = .next (s1.retireTo t.val { called a with pc := x + imm.signExtend 64 })) ∧
    (∀ a1 s2, a.res = 26 → spill t.val a s1 = .ok (a1, s2) → s2.stalled = false →
      exec (.call t (.rel disp)) s = .next (s2.retireTo t.val { called a1 with pc := a.pc + disp.signExtend 64 * 4 }) ∧
      exec (.call t (.reg rs imm)) s = .next (s2.retireTo t.val { called a1 with pc := x + imm.signExtend 64 })) ∧
    (∀ a1 a2 s2 s3, a.res = 27 → spill t.val a s1 = .ok (a1, s2) → spill t.val a1 s2 = .ok (a2, s3) → s3.stalled = false →
      exec (.call t (.rel disp)) s = .next (s3.retireTo t.val { called a2 with pc := a.pc + disp.signExtend 64 * 4 }) ∧
      exec (.call t (.reg rs imm)) s = .next (s3.retireTo t.val { called a2 with pc := x + imm.signExtend 64 })) ∧
    (a.res ≠ 1 → exec (.ret t) s = .next (s1.retireTo t.val
      { (a.setWin ((a.cwp + 27) % 28) (a.res - 1)).next with pc := a.g 15 })) ∧
    (∀ a1 s2, a.res = 1 → fillFrame 1 t.val a.pl a s1 = .ok (a1, s2) → s2.stalled = false →
      exec (.ret t) s = .next (s2.retireTo t.val { (a1.setWin ((a.cwp + 27) % 28) 1).next with pc := a.g 15 }))

/-- Exception entry by an instruction whose effect it is (R54). -/
def Obligations.ExceptionsAreEntered : Prop :=
  ∀ (t : ThreadId) (n : BitVec 8) (w : BitVec 32) (s s1 : State), Issues t [] s s1 →
    Map.wf Thread.reset s1.threads = true → Map.wf srDefault (s1.arch t).sr = true →
    (s1.core (t.val / 2)).attempts = 0 → (s1.thr t.val).kept = [] → (s1.arch t).res < 27 →
    let a := s1.arch t
    let bank := fun (code : Nat) => if a.pl = 3 then 3 else if a.pl = 2 ∨ bit (a.srv 9) code = true then 2 else 1
    let free := fun (b : Nat) => bit (a.srv (bankBase b + 2)) 63 = false
    let done := fun (i : Instr) (b code : Nat) (epc : W64) => ∃ u, exec i s = .next u ∧ Entered u t a b code epc
    (free (bank 7) → done (.trap t n) (bank 7) 7 (a.pc + 4)) ∧
    (free (bank 9) → done (.brk t) (bank 9) 9 a.pc) ∧
    (free (bank 4) → Calm t s → decodeKza t w = none → done (.illegalInstruction t w) (bank 4) 4 a.pc) ∧
    ((s.arch t).pl ≠ 3 → a.pl ≠ 3 → free 2 → done (.hcall t) 2 8 (a.pc + 4)) ∧
    ((s.arch t).pl ≠ 3 → a.pl ≠ 3 → s.csOk (t.val / 2) 0x2F0 = true → s1.override (t.val / 2) 0x2F0 = none → free 3 → done (.secall t) 3 0x13 (a.pc + 4))

/-- A double exception (R56). -/
def Obligations.DoubleExceptionStops : Prop :=
  ∀ (s : State) (m bank code lvl far ipl vec : Nat) (epc cause : W64),
    bit ((s.thr m).cur.srv (bankBase bank + 2)) 63 = true → (s.thr m).kept = [] → (s.thr m).mid = none →
    Map.wf Thread.reset s.threads = true →
    s.enterBank m bank epc cause far ipl vec code lvl =
      (((s.hardenThr m).modThr m fun t => t.hardenAll.stop 0x010F).retryEnds m).coreFault (m / 2)
        (if bank = 3 then clsFatal else clsContained) 0x010F (if bank = 3 then 0 else (s.thr m).cur.pid) 0
        (pack [(17, 16, bank), (11, 8, lvl), (7, 0, code)]) (some m)

/-- The return from an exception. -/
def Obligations.EretRestores : Prop :=
  ∀ (t : ThreadId) (s s1 : State), Issues t [] s s1 → Map.wf Thread.reset s1.threads = true →
    Map.wf srDefault (s1.arch t).sr = true → (s1.thr t.val).mid = none →
    let a := s1.arch t
    let k := bankBase a.pl
    let es := a.srv (k + 1)
    1 ≤ a.pl → fld es 15 14 ≤ a.pl → a.res ≠ 1 → a.res < 32 → a.cwp < 28 →
    ((s.arch t).pl = 3 → fld es 15 14 ≠ 3 → s1.rf .fltFatal [] 63 63 ≠ 1) →
    ∃ u, exec (.eret t) s = .next u ∧
      let e := u.arch t
      e.pc = a.srv k ∧ e.pl = fld es 15 14 ∧ e.ie = bit es 13 ∧ e.fpe = bit es 12 ∧ e.ipl = fld es 11 8 ∧
      e.flg.toNat = fld es 63 60 ∧ bit (e.srv (k + 2)) 63 = false ∧ e.cwp = (a.cwp + 27) % 28 ∧ e.res = a.res - 1 ∧
      e.rsv = none ∧ e.delay.isSome = bit es 45 ∧ (∀ d, e.delay = some d → d.isF = bit es 44 ∧ d.reg = fld es 43 38) ∧
      (a.pl ≠ 3 ∨ fld es 15 14 = 3 → e.regs = a.regs) ∧ e.fregs = a.fregs ∧ e.lvls = a.lvls ∧
      (u.thr t.val).run = (s1.thr t.val).run ∧ u.mem = s1.mem ∧ u.regs = s1.regs

/-- State registers (R40, R85) and the Privileged Instruction exception (R52). -/
def Obligations.StateRegisterMoves : Prop :=
  (∀ (t : ThreadId) (r : BitVec 6) (n : BitVec 12) (s s1 : State), Issues t [r] s s1 →
    let a := s1.arch t
    let priv := .next (s1.takeExc t.val (mkExc 0x05 0))
    let ill := .next (s1.takeExc t.val (mkExc 0x04 0))
    (Calm t s → a.pl = 0 → (s.arch t).pl = 0 → exec (.eret t) s = priv ∧ (s.csOk (t.val / 2) 0x2F1 = true → exec (.wflush t) s = priv) ∧
      exec (.wait t) s = priv) ∧
    (∀ row, Calm t s → srRow n.toNat = some row →
      (row.rd < 4 → a.pl < row.rd → exec (.mfsr t r n) s = priv) ∧ (row.rd = 4 → exec (.mfsr t r n) s = ill) ∧
      (row.wr < 4 → a.pl < row.wr → exec (.mtsr t r n) s = priv) ∧ (row.wr = 4 → n ≠ 7 → n ≠ 8 → exec (.mtsr t r n) s = ill)) ∧
    (srRow n.toNat = none → Calm t s → exec (.mfsr t r n) s = ill ∧ exec (.mtsr t r n) s = ill)) ∧
  (∀ (t : ThreadId) (r : BitVec 6) (n : BitVec 12) (row : SrRow) (s s1 : State), Issues t [r] s s1 →
    let a := s1.arch t
    let k := if 0x20 ≤ n.toNat ∧ n.toNat < 0x28 ∧ 1 ≤ a.pl then bankBase a.pl + n.toNat % 8 else n.toNat
    srRow n.toNat = some row → (n = 3 → a.fpe = true) →
    (row.rd < 4 → row.rd ≤ a.pl →
      WritesG (.mfsr t r n) t r (if k = 5 then s1.srTime else if k = 7 then s1.ipend t.val
        else match srRow k with
          | some q => if k = 4 ∧ a.pl ≠ 3 then setFld (fieldsRead q.fields (a.srv k)) 13 8 0 else fieldsRead q.fields (a.srv k)
          | none => 0) s s1) ∧
    (row.wr < 4 → row.wr ≤ a.pl → k ≠ 7 → k ≠ 8 → k ≠ 10 → n ≠ 7 → n ≠ 8 → ∀ q, srRow k = some q →
      let b := a.next.setSr k (fieldsWrite q.fields false (a.g r.toNat) (a.srv k))
      (n ≠ 1 → Retires (.mtsr t r n) t b s s1) ∧
      (n = 1 → exec (.mtsr t r n) s = .next ((s1.retireTo t.val b .stat).irqAfter t.val))))

/-- WAIT, WFLUSH, the barriers and SR.IPISEND (R36, R47, R83, R235). -/
def Obligations.WaitsBarriersMessages : Prop :=
  ((∀ (t : ThreadId) (s s1 : State), Issues t [] s s1 → Map.wf Thread.reset s1.threads = true → 1 ≤ (s1.arch t).pl →
    (∃ u, exec (.wait t) s = .next u ∧ Reached u s1 t (s1.arch t).next ∧ (u.thr t.val).run = .waiting ∧ u.mem = s1.mem ∧
      ∀ m, m ≠ t.val → u.thr m = s1.thr m) ∧
    (s.csOk (t.val / 2) 0x2F1 = true → s1.override (t.val / 2) 0x2F1 = none → (s1.arch t).res = 1 →
      ∃ u, exec (.wflush t) s = .next u ∧ Reached u s1 t (s1.arch t).next ∧ ((s1.thr t.val).cb = [] → u.mem = s1.mem))) ∧
  (∀ (t : ThreadId) (s : State), (s.thr t.val).run = .waiting → s.islRuns (t.val / 2) = true → s.power.state = .run →
    exec (.waitWake t) s = .next (if (s.takeable t.val 15).isSome then s.setThr t.val { s.thr t.val with run := .running } else s))) ∧
  (∀ (t : ThreadId) (r : BitVec 6) (s s1 : State), Issues t [r] s s1 → Map.wf Thread.reset s1.threads = true →
    (s1.core (t.val / 2)).attempts = 0 → 1 ≤ (s1.arch t).pl →
    let v := (s1.arch t).g r.toNat
    ∃ u, exec (.ipisend t r) s = .next u ∧ Reached u s1 t (s1.arch t).next ∧ ((s1.thr t.val).cb = [] → u.mem = s1.mem ∧ u.regs = s1.regs) ∧
      ∀ m, m < 112 → (u.thr m).ipi = ((s1.thr m).ipi ||
        ((s1.thr m).cur.lcore == fld v 21 16 && m % 2 == fld v 0 0 && (s1.thr m).cur.pid == (s1.arch t).pid))) ∧
  (∀ (t : ThreadId) (mask : BitVec 8) (s s1 : State), Issues t [] s s1 → Map.wf Thread.reset s1.threads = true →
    (s1.core (t.val / 2)).attempts = 0 →
    let a := s1.arch t
    let x := s1.thr t.val
    let ss := bit mask 0
    let sl := bit mask 1
    let passed := fun (i : Instr) (gen : Nat) => ∃ u, exec i s = .next u ∧ Reached u s1 t a.next ∧ u.mem = s1.mem ∧
      (u.thr t.val).sb = x.sb ∧ (u.thr t.val).barGen = gen
    let gen := if ss then x.barGen + 1 else x.barGen
    let idle := x.sb = [] ∧ x.cb = []
    ((mask = 0 ∨ 16 ≤ mask.toNat) → Calm t s → exec (.barC t mask) s = .next (s1.takeExc t.val (mkExc 0x04 0)) ∧
      exec (.barT t mask) s = .next (s1.takeExc t.val (mkExc 0x04 0)) ∧
      exec (.barS t mask) s = .next (s1.takeExc t.val (mkExc 0x04 0))) ∧
    (mask ≠ 0 → mask.toNat < 16 →
      (sl = false ∨ (∀ e ∈ x.sb, e.device = true) → passed (.barC t mask) gen) ∧
      ((ss = false ∧ sl = false) ∨ idle → passed (.barT t mask) gen) ∧
      ((ss = false ∧ sl = false) ∨ (idle ∧ x.losses = [] ∧ ∀ p, p < 12 → s1.portStores t.val p = false) →
        passed (.barS t mask) gen)))

/-- Interrupt entry (R54) and the timers (R46). -/
def Obligations.InterruptEntry : Prop :=
  (∀ (t : ThreadId) (s : State) (n b : Nat), s.canRun t.val = true → s.stalled = false → (s.core (t.val / 2)).attempts = 0 →
    (s.thr t.val).devVal = none → (s.thr t.val).kept = [] → Map.wf Thread.reset s.threads = true →
    Map.wf srDefault (s.arch t).sr = true → (s.arch t).res < 27 →
    let a := s.arch t
    (s.takeable t.val 15 = none → exec (.interruptEntry t false) s = .next s) ∧
    (s.takeable t.val 15 = some (n, b) → bit (a.srv (bankBase b + 2)) 63 = false →
      ∃ u, exec (.interruptEntry t false) s = .next u ∧
        let e := u.arch t
        e.srv (bankBase b) = setFld a.pc 1 0 0 ∧ e.srv (bankBase b + 2) = pack [(63, 63, 1), (23, 20, n), (8, 8, 1)] ∧
        e.pc = a.srv (bankBase b + 6) + BitVec.ofNat 64 (0x2000 + n * 0x100) ∧ e.pl = b ∧ e.ie = false ∧ e.ipl = n ∧
        e.rsv = none ∧ e.cwp = (a.cwp + 1) % 28 ∧ e.res = a.res + 1 ∧ e.regs = a.regs ∧ ((s.thr t.val).cb = [] → u.mem = s.mem))) ∧
  (∀ (t : ThreadId) (s : State), exec (.timerInterrupt t) s = .next s ∧
    (s.irqPending t.val 8 = true ↔ ((s.arch t).srv 0x006).toNat ≤ s.srTime.toNat) ∧
    (s.irqPending t.val 12 = true ↔ (s.arch t).c0r = false ∧ ((s.arch t).srv 0x048).toNat ≤ s.srTime.toNat) ∧
    ((s.arch t).c0r = true → ∀ n, 12 ≤ n → s.irqPending t.val n = false)) ∧
  (∀ (t : ThreadId) (w : BitVec 32) (s : State), s.canRun t.val = true → s.stalled = false → (s.fetched t.val).isSome = true →
    decodeKza t w = none → (s.thr t.val).abandoned < 8 → ¬ Calm t s → exec (.illegalInstruction t w) s = exec (.interruptEntry t false) s)

/-- Loads from DRAM (R72), with the load delay of R38. -/
def Obligations.LoadsFromMemory : Prop :=
  ∀ (t : ThreadId) (op : LoadOp) (rd : BitVec 6) (mode : AddrMode) (imm : BitVec 20) (s s1 s2 s3 : State) (pa va : Nat) (i : Instr),
    let a := s1.arch t
    let f := op == .ldfs || op == .ldfd || op == .ldfq
    let n := match op with
      | .ldb | .ldbu => 1
      | .ldh | .ldhu => 2
      | .ldw | .ldwu | .ldfs => 4
      | .ldd | .ldfd => 8
      | .ldfq => 16
    Issues t ((if f then [] else [rd]) ++ modeRegs mode) s s1 → (f = true → a.fpe = true) →
    ((i = .load t op rd mode ∧ va = (match mode with
        | .disp rb d => (a.g rb.toNat + d.signExtend 64).toNat
        | .index rs rt => (a.g rs.toNat + a.g rt.toNat).toNat)) ∨
      (i = .ldpc t rd imm ∧ op = .ldd ∧ va = (a.pc / 8 * 8 + imm.signExtend 64 * 8).toNat)) →
    va % n = 0 → accessAs t.val a.pl .read (s1.takes n) va s1 = .ok (pa, s2) → pa < s2.dram →
    s2.inCb t.val (pa / 256) = none → s2.acquire (t.val / 2) (s2.arch t).chkPid (pa / 256) false = some s3 →
    s3.poisoned (pa / 256) = false →
    let s4 := s3.l1Read false (t.val / 2) (pa / 256)
    s4.stalled = false →
    let x := ofBytes (s3.view t.val pa n)
    let v : W64 := match op with
      | .ldb => (BitVec.ofNat 8 x).signExtend 64
      | .ldh => (BitVec.ofNat 16 x).signExtend 64
      | .ldw => (BitVec.ofNat 32 x).signExtend 64
      | _ => BitVec.ofNat 64 x
    exec i s = .next (s4.retireTo t.val
      (if f then { (a.next.setF rd.toNat (BitVec.ofNat 128 x)) with delay := some ⟨true, rd.toNat, a.rawF rd.toNat⟩ }
       else if rd = 0 then a.next
       else { (a.next.setG rd.toNat v) with delay := some ⟨false, rd.toNat, (a.raw rd.toNat).setWidth 128⟩ }))

/-- The one delay slot of the architecture (R38). -/
def Obligations.LoadDelay : Prop :=
  ∀ (a : Arch) (n k : Nat) (v : W64) (w : W128), Map.wf zero64 a.regs = true → Map.wf zero128 a.fregs = true →
    a.cwp < 28 → n < 40 → k < 40 →
    let b := a.next.loadG (a.raw n) n v
    let c := a.next.loadF (a.rawF n) n w
    b.g n = a.raw n ∧ (k ≠ n → b.g k = a.raw k) ∧ (n ≠ 0 → b.next.g n = v) ∧ (k ≠ n → b.next.g k = a.raw k) ∧
    c.f n = a.rawF n ∧ (k ≠ n → c.f k = a.rawF k) ∧ c.next.f n = w ∧ (k ≠ n → c.next.f k = a.rawF k) ∧
    (∀ j, c.g j = a.raw j)

/-- Stores to DRAM: unhardened, forwarded to the thread's own loads (R230). -/
def Obligations.StoresEnterTheBuffer : Prop :=
  ∀ (t : ThreadId) (op : StoreOp) (rd : BitVec 6) (mode : AddrMode) (s s1 s2 : State) (pa : Nat),
    let a := s1.arch t
    let f := op == .stfs || op == .stfd || op == .stfq
    let n := match op with
      | .stb => 1
      | .sth => 2
      | .stw | .stfs => 4
      | .std | .stfd => 8
      | .stfq => 16
    let va := match mode with
      | .disp rb d => (a.g rb.toNat + d.signExtend 64).toNat
      | .index rs rt => (a.g rs.toNat + a.g rt.toNat).toNat
    let src := if f then (a.f rd.toNat).toNat else (a.g rd.toNat).toNat
    Issues t ((if f then [] else [rd]) ++ modeRegs mode) s s1 → (f = true → a.fpe = true) → va % n = 0 →
    accessAs t.val a.pl .write (s1.takes n) va s1 = .ok (pa, s2) → pa < s2.dram → pa % n = 0 → s2.inCb t.val (pa / 256) = none →
    s2.stalled = false → (s2.thr t.val).sb.length < 32 → Map.wf Thread.reset s2.threads = true →
    (∀ e ∈ (s2.thr t.val).sb, e.device = true → e.line ≠ pa / 256) →
    (∀ e ∈ (s2.thr t.val).sb, ∀ x ∈ e.stores, x.bytes ≠ [] → x.addr / 256 = e.line ∧ (x.addr + x.bytes.length - 1) / 256 = e.line) →
    ∃ u, exec (.store t op rd mode) s = .next u ∧
      u.view t.val pa n = toBytes n src ∧
      (∀ b, b < pa ∨ pa + n ≤ b → u.view t.val b 1 = s2.view t.val b 1) ∧
      u.mem = s2.mem ∧ Reached u s2 t { a.next with rsv := if a.rsv = some (pa / 256) then none else a.rsv } ∧
      (∀ m, m ≠ t.val → u.thr m = s2.thr m) ∧ u.regs = s2.regs

/-- Alignment (R72). -/
def Obligations.MisalignedAccesses : Prop :=
  ∀ (t : ThreadId) (rd rs rt : BitVec 6) (d : BitVec 14) (s s1 : State), Issues t [rd, rs, rt] s s1 → Calm t s →
    let a := s1.arch t
    let trap := fun (va : Nat) (wr : Bool) => Host.Outcome.next (s1.takeExc t.val ⟨0x0D, va, 0, wr, false, false⟩)
    let va := (a.g rs.toNat + d.signExtend 64).toNat
    let vx := (a.g rs.toNat + a.g rt.toNat).toNat
    let vr := (a.g rs.toNat).toNat
    (∀ (op : LoadOp) (f : Bool) (n : Nat), (op, f, n) ∈ [(LoadOp.ldh, false, 2), (.ldhu, false, 2), (.ldw, false, 4), (.ldwu, false, 4),
        (.ldd, false, 8), (.ldfs, true, 4), (.ldfd, true, 8), (.ldfq, true, 16)] → (f = true → a.fpe = true) →
      (va % n ≠ 0 → exec (.load t op rd (.disp rs d)) s = trap va false) ∧
      (vx % n ≠ 0 → exec (.load t op rd (.index rs rt)) s = trap vx false)) ∧
    (∀ (op : StoreOp) (f : Bool) (n : Nat), (op, f, n) ∈ [(StoreOp.sth, false, 2), (.stw, false, 4), (.std, false, 8), (.stfs, true, 4),
        (.stfd, true, 8), (.stfq, true, 16)] → (f = true → a.fpe = true) →
      (va % n ≠ 0 → exec (.store t op rd (.disp rs d)) s = trap va true) ∧
      (vx % n ≠ 0 → exec (.store t op rd (.index rs rt)) s = trap vx true)) ∧
    (va % 8 ≠ 0 → exec (.ldrv t rd rs d) s = trap va false) ∧
    (vr % 8 ≠ 0 → ∀ fail, exec (.stcd t fail rd rt rs) s = .next (s.hardenNew t.val (s1.takeExc t.val ⟨0x0D, vr, 0, true, false, false⟩))) ∧
    (∀ (op : AtomOp) (dbl : Bool), vr % (if dbl then 8 else 4) ≠ 0 →
      exec (.atomGroup t op dbl rd rs rt) s = .next (s.hardenNew t.val (s1.takeExc t.val ⟨0x0D, vr, 0, true, false, false⟩)))

/-- Reserved load, conditional store and atomics (R75, R79). -/
def Obligations.AtomicsUnderOwnership : Prop :=
  ∀ (t : ThreadId) (rd rs rt : BitVec 6) (d : BitVec 14) (dbl : Bool) (s s1 s2 s3 : State) (pa : Nat), Issues t [rd, rs, rt] s s1 →
    let a := s1.arch t
    let m := t.val
    let n := if dbl then 8 else 4
    let owned := fun (acs : Acs) (va n : Nat) =>
      va % n = 0 ∧ accessAs m a.pl acs s1.isDram va s1 = .ok (pa, s2) ∧ pa < s2.dram ∧ (s2.thr m).groups = [] ∧ s2.inCb m (pa / 256) = none ∧
      (∀ l ∈ (s2.thr m).cb, l.data.length ≠ 256) ∧ s2.sibDesc m (pa / 256) = false ∧
      s2.acquire (m / 2) (s2.arch t).chkPid (pa / 256) true = some s3 ∧ (∀ e ∈ (s3.thr m).sb, e.line ≠ pa / 256) ∧
      s3.poisoned (pa / 256) = false ∧ s3.storeStalls (m / 2) (pa / 256) = false
    let inTurn := (s2.thr m).olderGen (s2.thr m).barGen = false
    let old := ofBytes (s3.rd pa n)
    let y := (a.g rt.toNat).toNat % 256 ^ n
    let loaded := fun (v : W64) => if rd = 0 then a.next
      else { (a.next.setG rd.toNat v) with delay := some ⟨false, rd.toNat, (a.raw rd.toNat).setWidth 128⟩ }
    (owned .read (a.g rs.toNat + d.signExtend 64).toNat 8 → Map.wf Thread.reset s3.threads = true → s3.stalled = false →
      ∃ u, exec (.ldrv t rd rs d) s = .next u ∧ u.mem = s3.mem ∧
        u.arch t = { loaded (BitVec.ofNat 64 (ofBytes (s3.rd pa 8))) with rsv := some (pa / 256) }) ∧
    (owned .write (a.g rs.toNat).toNat 8 → a.rsv = some (pa / 256) → (s3.arch t).rsv = some (pa / 256) →
      let late := ((s3.thr m).loop.map Loop.late).getD []
      let w := (s3.modThr m Thread.fence).l2Write (m / 2) pa
        ((toBytes 8 (a.g rt.toNat).toNat).mapIdx fun i b => if late.contains (pa + i) then s3.rdByte (pa + i) else b)
      inTurn → (∀ l ∈ (w.thr m).cb, l.data.length ≠ 256) → Map.wf Thread.reset w.threads = true → w.stalled = false → (w.core (m / 2)).attempts = 0 →
      ∃ u, exec (.stcd t false rd rt rs) s = .next u ∧ u.mem = w.mem ∧ u.arch t = { a.next.setG rd.toNat 0 with rsv := none }) ∧
    ((a.g rs.toNat).toNat % 8 = 0 → accessAs m a.pl .write s1.isDram (a.g rs.toNat).toNat s1 = .ok (pa, s2) → pa < s2.dram →
      Map.wf Thread.reset s2.threads = true → s2.stalled = false → (s2.core (m / 2)).attempts = 0 →
      inTurn → (∀ l ∈ (s2.thr m).cb, l.data.length ≠ 256) →
      let sure := (s2.thr m).loopSure && (s2.thr m).inLoop (pa / 256)
      (sure = true → exec (.stcd t true rd rt rs) s = exec (.stcd t false rd rt rs) s) ∧
      (a.rsv ≠ some (pa / 256) → ∃ u, exec (.stcd t false rd rt rs) s = .next u ∧ u.mem = s2.mem ∧
        u.arch t = { a.next.setG rd.toNat 1 with rsv := none }) ∧
      (sure = false →
        ∃ u, exec (.stcd t true rd rt rs) s = .next u ∧ u.mem = s2.mem ∧ u.arch t = { a.next.setG rd.toNat 1 with rsv := none })) ∧
    (owned .write (a.g rs.toNat).toNat n → ∀ op : AtomOp,
      let new := match op with
        | .swap => some y
        | .cas => if old = (a.g rd.toNat).toNat % 256 ^ n then some y else none
        | .aadd => some ((old + y) % 256 ^ n)
        | .aand => some (old &&& y)
        | .aor => some (old ||| y)
        | .axor => some (old ^^^ y)
      let w := match new with
        | some v => (s3.modThr m Thread.fence).l2Write (m / 2) pa (toBytes n v)
        | none => s3.modThr m Thread.fence
      inTurn → (∀ l ∈ (w.thr m).cb, l.data.length ≠ 256) → Map.wf Thread.reset w.threads = true → w.stalled = false → (w.core (m / 2)).attempts = 0 →
      ∃ u, exec (.atomGroup t op dbl rd rs rt) s = .next u ∧ u.mem = w.mem ∧ (u.arch t).regs = (loaded (BitVec.ofNat 64 old)).regs ∧
        (u.arch t).pc = a.pc + 4 ∧ (u.arch t).delay = (loaded (BitVec.ofNat 64 old)).delay)

/-- Non-temporal stores and prefetches (R74). -/
def Obligations.NonTemporalAndPrefetch : Prop :=
  ∀ (t : ThreadId) (f : Bool) (rd rb : BitVec 6) (d : BitVec 14) (s s1 s2 : State) (pa : Nat), Issues t [rb] s s1 →
    let a := s1.arch t
    let n := if f then 16 else 8
    let va := (a.g rb.toNat + d.signExtend 64).toNat
    let src := if f then (a.f rd.toNat).toNat else (a.g rd.toNat).toNat
    ((f = true → a.fpe = true) → (f = false → rd.toNat < 40) → va % n = 0 → accessAs t.val a.pl .write s1.isDram va s1 = .ok (pa, s2) →
      pa < s2.dram → s2.stalled = false → Map.wf Thread.reset s2.threads = true →
      (∀ e ∈ (s2.thr t.val).sb, e.device = true ∨ e.line ≠ pa / 256) →
      ((∃ l, s2.inCb t.val (pa / 256) = some l ∧ l.ep = some s2.scn.epoch) ∨
        (s2.inCb t.val (pa / 256) = none ∧ (s2.thr t.val).cb.length < 8)) →
      ∃ u l, exec (.stnt t f rd rb d) s = .next u ∧ u.inCb t.val (pa / 256) = some l ∧
        l.data = cbPut (pa % 256) (toBytes n src) (((s2.inCb t.val (pa / 256)).map CbLine.data).getD []) ∧
        u.mem = s2.mem ∧ (u.arch t).pc = a.pc + 4 ∧ (u.arch t).regs = a.regs) ∧
    (1 < rd.toNat → Retires (.pref t rd rb d) t a.next s s1) ∧
    ((prefBody t.val rd.toNat va a s1).stalled = false →
      exec (.pref t rd rb d) s = .next ((prefBody t.val rd.toNat va a s1).retireTo t.val a.next))

/-- The posting routines (R88, R89). -/
def Obligations.PostingRoutines : Prop :=
  ∀ (t : ThreadId) (e : Option Engine) (rd rs rt : BitVec 6) (s s1 s2 s3 s4 s5 : State) (pa db : Nat) (img : List Byte),
    Issues t [rd, rs, rt] s s1 →
    let a := s1.arch t
    let m := t.val
    let i := match e with
      | none => Instr.xpost t rd rs rt
      | some g => .ecall t g rd rs rt
    let eng := match e with
      | none => none
      | some .sieve => some 0
      | some .garnet => some 1
    let va := (a.g rs.toNat).toNat
    (s.arch t).pl ≠ 3 → s.csOk (m / 2) (if e.isNone then 0x380 else 0x390) = true →
    s1.override (m / 2) (if e.isNone then 0x380 else 0x390) = none → va % 128 = 0 →
    accessAs m a.pl .read s1.isDram va s1 = .ok (pa, s2) → pa < s2.dram → loadMem m pa 128 s2 = .ok (img, s3) →
    access m a.pl .write (a.g rt.toNat).toNat s3 = .ok (db, s4) → isDoorbell db = true → (dbPage db).mine a.pid = true → s4.stalled = false →
    (s4.postQueue eng db = none → exec i s = .next (s4.retireTo m (a.next.setG rd.toNat (pack [(63, 56, 5), (39, 32, 0), (31, 0, 0)])))) ∧
    (∀ q, s4.postQueue eng db = some q → q.on = false →
      exec i s = .next (s4.retireTo m (a.next.setG rd.toNat (pack [(63, 56, 3), (39, 32, 0), (31, 0, 0)])))) ∧
    (∀ q slot arr n off s6 s7, s4.postQueue eng db = some q → q.on = true → s4.pageBusy m (db / 4096) = false →
      s4.postSlot m db q.ref = some (slot, s5) →
      postShape eng img = (off, n) → n ≠ 0 →
      arrayAt m (fld (dwordAt img off) 47 4 * 16) (16 * n) a s5 = .ok (some arr, s6) →
      (s6.thr m).olderGen (s6.thr m).barGen = false →
      flagsFree m (fld (dwordAt img off) 47 4 * 16) arr a n 0 s6 = .ok (none, s7) →
      q.base + 128 * (slot % q.size) < s7.dram → s7.ownOk (some (m / 2)) (a.pl = 3) a.chkPid false (q.base + 128 * (slot % q.size)) = true →
      let dlist := setBit (setFld (dwordAt img off) 47 4 (arr / 16)) 0 false
      ∀ u, postCommit m db (q.base + 128 * (slot % q.size)) arr n slot
          (img.take off ++ toBytes 8 dlist.toNat ++ img.drop (off + 8)) s7 = .ok u → u.stalled = false →
        exec i s = .next (u.retireTo m (a.next.setG rd.toNat (pack [(63, 56, 0), (39, 32, 0), (31, 0, slot)]))))

/-- BMOV, a unit at a time (R91). -/
def Obligations.BmovUnit : Prop :=
  ∀ (t : ThreadId) (rd rs rt : BitVec 6) (s s1 s2 s3 s4 s5 : State) (sp dp : List Nat) (bs : List Byte), Issues t [rd, rs, rt] s s1 →
    rd ≠ 0 → rs ≠ 0 → rt ≠ 0 → rd ≠ rs → rd ≠ rt → rs ≠ rt → s.csOk (t.val / 2) 0x3A0 = true → s1.override (t.val / 2) 0x3A0 = none →
    Map.wf Thread.reset s1.threads = true → Map.wf Thread.reset s5.threads = true → (s1.core (t.val / 2)).attempts = 0 →
    let a := s1.arch t
    let m := t.val
    let len := (a.g rt.toNat).toNat
    let n := min len (256 - (a.g rd.toNat).toNat % 256)
    let k := BitVec.ofNat 64 n
    (len = 0 → ∃ u, exec (.bmov t rd rs rt) s = .next u ∧ Reached u s1 t a.next ∧ ((s1.thr m).cb = [] → u.mem = s1.mem)) ∧
    (len ≠ 0 → bytesAt m .read a 3 (a.g rs.toNat).toNat n s1 = .ok (sp, s2) → bytesAt m .write a 3 (a.g rd.toNat).toNat n s2 = .ok (dp, s3) →
      readAt m sp s3 = .ok (bs, s4) → storeMem m (dp.headD 0) (copyUp [] (sp.zip (dp.zip bs))) false s4 = .ok s5 → s5.stalled = false →
      (s5.core (t.val / 2)).attempts = 0 →
      ∃ u, exec (.bmov t rd rs rt) s = .next u ∧ ((s5.thr m).cb = [] → u.mem = s5.mem) ∧ (u.arch t).pc = (if n = len then a.pc + 4 else a.pc) ∧
        (u.arch t).regs = (((a.setG rd.toNat (a.g rd.toNat + k)).setG rs.toNat (a.g rs.toNat + k)).setG rt.toNat (a.g rt.toNat - k)).regs)

/-- One rounding (R101), over exact integers. -/
def Obligations.OneRounding : Prop :=
  ∀ (b num den : Nat) (k e : Int) (neg : Bool) (rm : Rm), 2 ≤ b → den ≠ 0 →
    let n := num * b ^ (k - e).toNat
    let d := den * b ^ (e - k).toNat
    let r := roundAt b rm neg ⟨num, den, k, false⟩ e
    (r.2 = false ↔ n % d = 0) ∧ (r.2 = false → r.1 * d = n) ∧
    (rm = .rz → r.1 = n / d) ∧
    (rm = .up → r.1 = if neg then n / d else (n + d - 1) / d) ∧
    (rm = .dn → r.1 = if neg then (n + d - 1) / d else n / d) ∧
    (rm = .rne → 2 * (r.1 * d) ≤ 2 * n + d ∧ 2 * n ≤ 2 * (r.1 * d) + d ∧
      (2 * n % d = 0 → 2 * n / d % 2 = 1 → r.1 % 2 = 0)) ∧
    (rm = .rna → r.1 = (2 * n + d) / (2 * d))

/-- Results, flags and moves of the floating-point groups (R92, R93). -/
def Obligations.FloatResults : Prop :=
  (∀ (t : ThreadId) (dec sub : Bool) (fmt g : FpFmt) (sg : Bool) (rd rs rt ra : BitVec 6) (s s1 : State), Issues t [rd, rs] s s1 →
    let a := s1.arch t
    let f := fmtOf fmt
    let v := Env.ofFpsr (a.srv 3)
    let x := f.operand v (a.f rs.toNat)
    let y := f.operand v (a.f rt.toNat)
    let z := f.operand v (a.f ra.toNat)
    let grp := fun (op : FpOp) => if dec then Instr.fpd t fmt op rd rs rt else .fpb t fmt op rd rs rt
    let ends := fun (i : Instr) (fl : Fl) (k : Arch → Arch) =>
      (fld (a.srv 3) 12 8 &&& fl.bits = 0 →
        Retires i t (k (a.next.setSr 3 (setFld (a.srv 3) 4 0 (fld (a.srv 3) 4 0 ||| fl.bits)))) s s1) ∧
      (fld (a.srv 3) 12 8 &&& fl.bits ≠ 0 → Calm t s → exec i s = .next (s1.takeExc t.val (mkExc 0x11 0)))
    let gives := fun (i : Instr) (h : Fmt) (o : FpOut) => ends i o.fl fun b => b.setF rd.toNat (h.write o.val)
    f.dec = dec →
    (a.fpe = false → Calm t s → s.csOk (t.val / 2) 0x334 = true → ∀ op, exec (grp op) s = .next (s1.takeExc t.val (mkExc 0x06 0))) ∧
    (a.fpe = true → s.csOk (t.val / 2) 0x334 = true → s1.override (t.val / 2) 0x334 = none →
      gives (grp .add) f (fpAdd f v x y) ∧ gives (grp .sub) f (fpSub f v x y) ∧ gives (grp .mul) f (fpMul f v x y) ∧
      gives (grp .div) f (fpDiv f v x y) ∧ gives (grp .sqrt) f (fpSqrt f v x) ∧
      gives (grp .min) f (fpMinMax f v false x y) ∧ gives (grp .max) f (fpMinMax f v true x y) ∧
      gives (grp (.cvt g)) (fmtOf g) (fpConv f (fmtOf g) v x) ∧ gives (grp (.cvtf sg)) f (fpOfInt f v sg (a.g rs.toNat)) ∧
      ends (grp .cmp) (fpCmp f x y).2
        (fun b => b.setSr 0 (Nzvc.word ⟨(fpCmp f x y).1.1, (fpCmp f x y).1.2.1, (fpCmp f x y).1.2.2, false⟩)) ∧
      ends (grp (.cvti sg)) (fpToInt f v sg x).2 (fun b => b.setG rd.toNat (BitVec.ofNat 64 (fpToInt f v sg x).1)) ∧
      gives (.fma t fmt sub rd rs rt ra) f (fpFma f v x y (if sub then z.negate else z)) ∧
      (dec = true → gives (.dquant t fmt rd rs rt) f (fpQuant f v x y)))) ∧
  (∀ (t : ThreadId) (rd rs : BitVec 6) (fmt : FpFmt) (s s1 : State), Issues t [rd, rs] s s1 →
    let a := s1.arch t
    let w := (fmtOf fmt).w
    let grp := fun (op : FpOp) => if (fmtOf fmt).dec then Instr.fpd t fmt op rd rs 0 else .fpb t fmt op rd rs 0
    let x := a.f rs.toNat
    a.fpe = true →
    WritesG (grp .movfi) t rd (x.setWidth 64) s s1 ∧
    WritesG (grp .movfih) t rd ((x >>> 64).setWidth 64) s s1 ∧
    Retires (grp .movif) t (a.next.setF rd.toNat ((a.g rs.toNat).setWidth 128)) s s1 ∧
    Retires (grp .movifh) t (a.next.setF rd.toNat (a.g rs.toNat ++ (a.f rd.toNat).setWidth 64)) s s1 ∧
    (∀ (op : FpOp) (sign : Bool), (op, sign) ∈ [(FpOp.mov, x.getLsbD (w - 1)), (.neg, !x.getLsbD (w - 1)), (.abs, false)] →
      ∃ r : W128, Retires (grp op) t (a.next.setF rd.toNat r) s s1 ∧
        ∀ j, j < 128 → r.getLsbD j = if j = w - 1 then sign else decide (j < w) && x.getLsbD j))

/-- Instruction retry (R140, R141), and the checks outside the cores (R173, R216, R312, R404, R431, R455, R460, R486, R547). -/
def Obligations.RetryRestoresTheCheckpoint : Prop :=
  (∀ (c : CoreId) (thr : Bool) (line : Line) (addr : BitVec 48) (cs : BitVec 15) (s : State), Map.wf Thread.reset s.threads = true →
    s.islRuns c.val = true → (s.core c.val).due = none → ((s.thr (2 * c.val)).active || (s.thr (2 * c.val + 1)).active) = true →
    (∀ (chk : Check) (code : Nat), (chk, code) ∈ [(Check.l1i line, 0x01), (.l1d line, 0x02), (.intRegs, 0x03), (.fpRegs, 0x04),
        (.intPath, 0x05), (.binPath, 0x06), (.decPath, 0x07), (.decode, 0x08), (.controlStore cs false, 0x09)] ∨
        (chk = .storeBuffer addr ∧ code = 0x0E ∧ (s.thr (2 * c.val + thr.toNat)).hardStore addr.toNat = false) →
      ∃ u, exec (.checkFires c thr chk) s = .next u ∧
        (∀ m, m / 2 = c.val → (u.thr m).cur = (s.thr m).hard ∧ (u.thr m).hard = (s.thr m).hard ∧ (u.thr m).groups = [] ∧
          (u.thr m).seq = (s.thr m).hseq ∧ (∀ e ∈ (u.thr m).sb, ∀ x ∈ e.stores, x.seq ≤ (s.thr m).hseq)) ∧
        (∀ m, m / 2 ≠ c.val → u.thr m = s.thr m) ∧ u.mem = s.mem ∧ u.l2 = s.l2 ∧
        u.regs = (s.lastCode c.val (0x0100 + code)).regs ∧
        (Map.wf Core.reset s.cores = true → (u.core c.val).alone = thr.toNat ∧
          (u.core c.val).attempts = (if 3 ≤ (s.core c.val).attempts then (s.core c.val).attempts else (s.core c.val).attempts + 1) ∧
          (u.core c.val).due = (if 3 ≤ (s.core c.val).attempts then some (0x0100 + code) else none) ∧
          (3 ≤ (s.core c.val).attempts → (u.core c.val).dueAt = s.stcNs))) ∧
    exec (.checkFires c thr (.controlStore cs true)) s = .next (s.coreFault c.val clsCorrected 0x0109 0 0) ∧
    exec (.checkFires c thr .l2Single) s =
      .next (((s.lastCode c.val 0x010C).incRf .rstRtystat [c.val] 31 0).rateEvent c.val 0x010C true)) ∧
  (∀ (c : CoreId) (thr : Bool) (line : Line) (s : State),
    let at_ := fun (s : State) (code : Nat) => s.fault (blkSlice (sliceOf line.toNat)) clsCorrected code 0 (line.toNat * 256)
    exec (.checkFires c thr (.l3Single line)) s = .next (at_ s 0x0201) ∧
    exec (.checkFires c thr (.l3Data line)) s = .next (at_ (s.l3Drop line.toNat false) 0x0202) ∧
    exec (.checkFires c thr (.l3Tag line)) s = .next (at_ (s.l3Drop line.toNat true) 0x0202)) ∧
  (∀ (c : CoreId) (thr : Bool) (gran : BitVec 32) (s : State),
    exec (.checkFires c thr (.potCache gran)) s = .next ((s.potForget gran.toNat gran.toNat).fault blkPot clsCorrected 0x0506 0 0)) ∧
  (∀ (c : CoreId) (thr : Bool) (link : Fin 9) (single : Bool) (s : State),
    exec (.checkFires c thr (.beat link single)) s =
      .next (s.fault (0x69 + link.val) (if single then clsCorrected else clsFatal) (if single then 0x0401 else 0x0402) 0 0)) ∧
  (∀ (c : CoreId) (thr : Bool) (s : State), ∀ e ∈ ([(.trellisState, 0x06, blkTrellis, clsFatal), (.scionState, 0x09, blkScion, clsFatal),
      (.sieveSingle, 0x01, blkSieve, clsCorrected), (.sieveState, 0x04, blkSieve, clsFatal), (.garnetSingle, 0x01, blkGarnet, clsCorrected),
      (.garnetState, 0x05, blkGarnet, clsFatal), (.counterSingle, 0x01, blkGatherer, clsCorrected),
      (.coldframeSingle, 0x01, blkColdframe, clsCorrected), (.coldframeNvm, 0x05, blkColdframe, clsFatal)] : List (Check × Nat × Nat × Nat)),
    let unit := if e.2.2.1 = blkTrellis then 6 else if e.2.2.1 = blkScion then 7 else if e.2.2.1 = blkSieve then 8
      else if e.2.2.1 = blkGarnet then 9 else if e.2.2.1 = blkGatherer then 10 else 13
    exec (.checkFires c thr e.1) s = .next (s.fault e.2.2.1 e.2.2.2 (unit * 0x100 + e.2.1) 0 0)) ∧
  (∀ (c : CoreId) (thr : Bool) (b : Fin 0x73) (k : Fin 8) (s : State), let n := 8 * b.val + k.val
    exec (.checkFires c thr (.counter b k)) s =
      .next (({ s with pmcBad := n :: s.pmcBad.filter (· != n) } : State).fault blkGatherer clsContained 0x0A03 0 0)) ∧
  (∀ (c : CoreId) (thr : Bool) (p : Pid) (x : Fin 15) (n : BitVec 20) (s : State) (j : Job), (s.ctx 0 p.val x.val).job = some j →
    Map.wf JobCtx.empty s.trl.ctxs = true →
    (n.toNat ∉ j.busy → exec (.checkFires c thr (.sieveLane (.job p x) n)) s = .next s) ∧
    (n.toNat ∈ j.busy → ∃ u, exec (.checkFires c thr (.sieveLane (.job p x) n)) s = .next u ∧ (u.ctx 0 p.val x.val).job = none))

/-- Hardening and the drains. -/
def Obligations.HardeningAndDrains : Prop :=
  (∀ (t : ThreadId) (s : State) (g : Arch) (gs : List Arch), (s.thr t.val).groups = g :: gs → s.islRuns (t.val / 2) = true →
    (s.core (t.val / 2)).attempts = 0 → (∀ l ∈ (s.thr t.val).cb, l.data.length ≠ 256) → Map.wf Thread.reset s.threads = true →
    let x := s.thr t.val
    exec (.checkpointHarden t) s = .next (s.setThr t.val { x with
      hard := g, groups := gs, hseq := x.hseq + 1, devVal := none, kept := x.kept.filter fun k => decide (x.hseq + 1 < k.seq) })) ∧
  (∀ (t : ThreadId) (line : Line) (s s1 : State) (e : SbEntry),
    let x := s.thr t.val
    x.sb.find? (fun e => !e.device && e.line == line.toNat) = some e → x.hardened e = true →
    (s.islRuns (t.val / 2) = true ∨ ∃ y ∈ s.sparings, y.core = t.val / 2) →
    (∀ y ∈ x.sb, y.device = true ∨ e.gen ≤ y.gen) → s.sibDesc t.val e.line = false → s.acquire (t.val / 2) x.cur.chkPid e.line true = some s1 →
    Map.wf Thread.reset s1.threads = true →
    let w := e.stores.foldl (fun s y => s.wr y.addr y.bytes) s1
    ∃ u, exec (.storeDrain t line) s = .next u ∧ (s1.scn.running = false → u.mem = w.mem) ∧
      (Memory.wf s1.mem = true → s1.scn.logged.length + s1.scn.halfLen + e.stores.length < 2 ^ 20 →
        ∀ a, s1.inPriv a = false → u.rdByte a = w.rdByte a) ∧
      (u.thr t.val).sb = (s1.thr t.val).sb.erase e) ∧
  (∀ (t : ThreadId) (line : Line) (s s1 : State) (l : CbLine), s.inCb t.val line.toNat = some l → s.combLeave t.val l = some s1 →
    exec (.combiningTimeout t line) s = .next s1) ∧
  (∀ s : State, (s.stalled = true → exec .backlogStallRelease s = .next s.epochClose) ∧
    (s.stalled = false → s.scn.waits = [] → exec .backlogStallRelease s = .next { s with scn := { s.scn with stalled := [] } })) ∧
  (∀ (t : ThreadId) (s : State) (l : Nat), (s.thr t.val).hold = some l → (s.thr t.val).loopSure = false →
    exec (.snoopHoldExpiry t) s = .next (s.setThr t.val { s.thr t.val with
      hold := none, spentHold := l :: (s.thr t.val).spentHold.filter fun k => k != l }))

/-- Core sparing and patch loads. -/
def Obligations.SparingAndPatches : Prop :=
  (∀ (c : CoreId) (ro : Bool) (s : State) (code k : Nat), (s.core c.val).due = some code →
    (s.islRuns c.val = true ∨ ro = true) → s.sparings = [] →
    (∀ d, d < 56 → (s.core d).due.isSome = true → eventBefore (s.core d).dueAt d (s.core c.val).dueAt c.val = false) →
    s.pickSpare c.val = some k → k ≠ c.val → k < 56 → Map.wf Thread.reset s.threads = true → Map.wf regDefault s.regs = true →
    (∀ i, i < 2 → Map.wf srDefault (s.thr (2 * c.val + i)).hard.sr = true) →
    ∃ u, exec (.sparingStart c ro) s = .next u ∧ u.rcm = s.rcm + 1 ∧ u.mem = s.mem ∧
      bit (u.reg .rstCorespare) k = false ∧ bit (u.reg .rstCoresvc) k = true ∧
      (∀ i, i < 2 → let f := (s.thr (2 * c.val + i)).hard
        let n := (u.thr (2 * k + i)).cur
        n.regs = f.regs ∧ n.fregs = f.fregs ∧ n.pc = f.pc ∧ n.lvls = f.lvls ∧ n.rsv = none ∧ n.pid = f.pid ∧ n.lcore = f.lcore ∧
        fld (n.srv 4) 13 8 = k ∧ fld (n.srv 4) 0 0 = i ∧ (u.thr (2 * k + i)).run = .held ∧
        ((s.thr (2 * c.val + i)).active = true → (u.thr (2 * c.val + i)).run = .held)) ∧
      (Map.wf Core.reset s.cores = true → (u.core k).disp = s.patch.disp ∧
        ∀ n, n < s.patch.words → Map.get (fun _ => 0) (u.core k).pram (0x6000 + n) = s.imageWord n) ∧
      ∃ x, u.sparings = [x] ∧ x.core = c.val ∧ x.spare = some k ∧ x.started = true) ∧
  (∀ (s : State) (x : Sparing), s.sparings = [x] → x.started = true → s.drained x.core = true → s.linesIn x.core = [] →
    (∀ k, x.spare = some k → k < 56 ∧ k ≠ x.core) → Map.wf regDefault s.regs = true → Map.wf Thread.reset s.threads = true →
    x.core < 56 →
    ∃ u, exec .sparingDrainEnd s = .next u ∧ (x.spare = none → u.rcm = s.rcm - 1) ∧ u.sparings = [] ∧
      bit (u.reg .rstCoresvc) x.core = false ∧ bit (u.reg .rstCoredeconf) x.core = true ∧
      ∀ k, x.spare = some k →
        (if x.drop0 then (u.thr (2 * k)).cur = (Thread.reset (2 * k)).cur ∧ (u.thr (2 * k)).run = .held
         else (u.thr (2 * k)).kept = (s.thr (2 * x.core)).kept) ∧
        (if x.drop1 then (u.thr (2 * k + 1)).cur = (Thread.reset (2 * k + 1)).cur ∧ (u.thr (2 * k + 1)).run = .held
         else (u.thr (2 * k + 1)).kept = (s.thr (2 * x.core + 1)).kept)) ∧
  (∀ s : State, s.scn.running = false → s.rf .rstCsctl [] 1 1 ≠ 1 → s.rf .rstCsstat [] 7 0 ≠ 1 →
    exec .patchLoad s = .next (s.setRf .rstCsstat [] 7 0 (if s.patchCheck false = 2 then 1 else s.patchCheck false))) ∧
  (∀ s : State, s.rf .rstCsstat [] 7 0 = 1 → Map.wf regDefault s.regs = true → ∃ u, exec .patchLoadComplete s = .next u ∧
    let st := s.patchCheck true
    u.rf .rstCsstat [] 7 0 = st ∧ (st ≠ 2 → u = s.setRf .rstCsstat [] 7 0 st) ∧
      (st = 2 → s.rf .potBase [] 0 0 = 0 → u.mem = s.mem ∧
        (let base := s.rf .rstCsaddr [] 47 16 * 0x10000
         u.patch = patchOf base (s.rd base 205024)) ∧
        ∀ m, m < 112 → (s.thr m).run ≠ .held → Map.wf Core.reset s.cores = true → (u.core (m / 2)).disp = u.patch.disp)) ∧
  (∀ s : State, exec .patchLock s = .next ((s.cfgw .rstCsctl [] 2).setRf .rstCsctl [] 1 1 1))

/-- POT commands (R174 to R177). -/
def Obligations.PotCommandsAreChecked : Prop :=
  (∀ (v : W64) (s0 : State), let s := s0.cfgw .potCmd [] v
    Memory.wf s.mem = true → Map.wf regDefault s.regs = true → s.hubIdle = true →
    let run := (List.range (fld v 15 0 + 1)).map (fld v 47 16 + ·)
    let gran := fun (g : Nat) => s.rdD (s.rf .potBase [] 47 16 * 0x10000 + 8 * g)
    let gen := fun (g : Nat) => if s.rf .potBase [] 0 0 = 1 then (fld (gran g) 47 32 + 1) % 2 ^ 16 else 0
    let moves : List (Nat × Nat) := [(0, 1), (0, 5), (1, 2), (1, 3), (1, 4), (1, 5), (2, 1), (2, 3), (3, 1), (3, 2), (5, 4)]
    let passes := fun (g : Nat) => g * 0x10000 < s.dram ∧
      (s.rf .potBase [] 0 0 = 0 ∨
        (¬ (s.patch.base / 0x10000 ≤ g ∧ g < s.patch.base / 0x10000 + s.patch.granules ∧ fld v 56 54 ≠ 5) ∧
          (fld (gran g) 56 54, fld v 56 54) ∈ moves))
    (s.rf .potCmdstat [] 1 0 = 1 → exec (.potCmd v) s0 = .next s) ∧
    (s.rf .potCmdstat [] 1 0 ≠ 1 →
      (∀ g before rest, run = before ++ g :: rest → (∀ x ∈ before, passes x) → ¬ passes g →
        exec (.potCmd v) s0 = .next ((s.setReg .potCmd [] v).setReg .potCmdstat [] (pack [(47, 16, g), (1, 0, 3)]))) ∧
      ((∀ g ∈ run, passes g) → ∃ u, exec (.potCmd v) s0 = .next u ∧ u.rf .potCmdstat [] 1 0 = 1 ∧
        (∀ g ∈ run, u.rdD (s.rf .potBase [] 47 16 * 0x10000 + 8 * g) =
          pack [(63, 58, fld v 63 58), (57, 57, fld v 57 57), (56, 54, fld v 56 54), (53, 48, fld v 53 48), (47, 32, gen g)]) ∧
        (∀ g ∈ run, u.potCached g = none) ∧
        ∀ a, (∀ g ∈ run, a / 8 ≠ s.rf .potBase [] 47 16 * 0x2000 + g) → u.rdByte a = s.rdByte a))) ∧
  (∀ s : State, s.rf .potCmdstat [] 1 0 = 1 → s.potDrained (s.reg .potCmd []) = true →
    ∃ u, exec .potCmdComplete s = .next u ∧ u.regs = (s.setReg .potCmdstat [] 2).regs ∧ u.mem = s.mem ∧ u.threads = s.threads ∧
      (Map.wf Core.reset s.cores = true → ∀ c, c < 56 → ∀ e ∈ (u.core c).grc,
        ¬ (fld (s.reg .potCmd []) 47 16 ≤ e.1 ∧ e.1 ≤ fld (s.reg .potCmd []) 47 16 + fld (s.reg .potCmd []) 15 0))) ∧
  (∀ (gran : BitVec 32) (s : State), Memory.wf s.mem = true → s.hubIdle = true → s.rf .potBase [] 0 0 = 1 → gran.toNat * 0x10000 < s.dram →
    s.rf .potCmdstat [] 1 0 ≠ 1 → fld (s.potEntry (gran.toNat * 0x10000)) 56 54 = 4 →
    let entry := s.rf .potBase [] 47 16 * 0x10000 + 8 * gran.toNat
    ∃ u, exec (.granuleScrubComplete gran) s = .next u ∧
      u.rdD entry = pack [(63, 58, 63), (57, 57, 0), (56, 54, 0), (53, 48, 63), (47, 32, (fld (s.potEntry (gran.toNat * 0x10000)) 47 32 + 1) % 2 ^ 16)] ∧
      ∀ a, a / 8 ≠ entry / 8 → u.rdByte a = if a / 0x10000 = gran.toNat then 0 else s.rdByte a) ∧
  (∀ s : State, s.rf .potBase [] 0 0 = 1 → exec .potEnable s = .next s) ∧
  (∀ s0 : State, s0.rf .potBase [] 0 0 = 0 → let s := s0.cfgw .potBase [] (setBit (s0.reg .potBase) 0 true)
    s.rf .potBase [] 0 0 = 0 → Memory.wf s.mem = true → Map.wf regDefault s.regs = true → s.hubIdle = true →
    ∃ u, exec .potEnable s0 = .next u ∧ u.rf .potBase [] 0 0 = 1 ∧ u.rf .potBase [] 47 16 = s.rf .potBase [] 47 16 ∧
      (s.patch.granules = 0 → u = s.setRf .potBase [] 0 0 1) ∧
      ∀ k, k < s.patch.granules → fld (u.granule (s.patch.base / 0x10000 + k)) 56 54 = 5)

/-- The services of R190. -/
def Obligations.ServicesAnswer : Prop :=
  ∀ (t : ThreadId) (s : State), s.called t.val = true → (s.thr t.val).groups = [] → (∀ l ∈ (s.thr t.val).cb, l.data.length ≠ 256) → Map.wf Core.reset s.cores = true →
    Map.wf Thread.reset s.threads = true →
    let m := t.val
    let a := s.arch t
    let p := a.pid
    let lvl := s.callerLvl m
    let x := a.g 2
    let y := a.g 3
    let z := a.g 4
    let g := x.toNat / 0x10000
    let gives := fun (i : Instr) (st : Nat) (res : List W64) (s2 : State) => exec i s = .next (s.serviceReturn s2 m st res)
    let all : List (Instr × Nat × Nat) := [(.version t, 0x00, 0), (.partitionInformation t, 0x01, 1), (.setStage1Root t, 0x10, 1),
      (.setStage2Root t, 0x11, 2), (.setHypervisorRoot t, 0x12, 2), (.tlbInvalidate t, 0x13, 1), (.granuleQuery t, 0x20, 1),
      (.registerExchangeWindow t, 0x21, 1), (.deregisterExchangeWindow t, 0x22, 1), (.offerSharedWindow t, 0x23, 1),
      (.acceptSharedWindow t, 0x24, 1), (.withdrawSharedWindow t, 0x25, 1), (.gateRequest t, 0x30, 2), (.gateStatus t, 0x31, 2),
      (.class0Responder t, 0x40, 1), (.readFaultRecord t, 0x50, 1), (.clearFaultRecord t, 0x51, 1), (.dictionaryPost t, 0x60, 1),
      (.dictionaryPoll t, 0x61, 1), (.partitionReset t, 0x70, 2)]
    let call := fun (n l : Nat) => a.g 1 = BitVec.ofNat 64 n ∧ l ≤ lvl
    ((∀ e ∈ all, (a.g 1).toNat ≠ e.2.1) → gives (.version t) 1 [] s) ∧
    (∀ e ∈ all, (a.g 1).toNat = e.2.1 → lvl < e.2.2 → gives e.1 2 [] s) ∧
    (call 0x00 0 → gives (.version t) 0 [Config.rootstockVersion, s.regRead .rstCsver []] s) ∧
    (call 0x01 1 → gives (.partitionInformation t) 0
      [BitVec.ofNat 64 p, BitVec.ofNat 64 (s.coresOf p).length, BitVec.ofNat 64 (s.granulesOwned p)] s) ∧
    (bit x 0 = false ∨ s.granuleStatus p (fld x 47 11 * 2048) = 0 →
      (call 0x10 1 → gives (.setStage1Root t) 0 [] (s.regPut .potTs1 [m] x)) ∧
      (call 0x11 2 → gives (.setStage2Root t) 0 [] (s.regPut .potTs2 [m] x)) ∧
      (call 0x12 2 → gives (.setHypervisorRoot t) 0 [] (s.regPut .potTh [m] x))) ∧
    (call 0x13 2 → x = 4 → ∃ s2, gives (.tlbInvalidate t) 0 [] s2 ∧ s2.mem = s.mem ∧ s2.threads = s.threads ∧
      ∀ c ∈ s.coresOf p, (∀ e ∈ (s2.core c).itlb ++ (s2.core c).dtlb ++ (s2.core c).tlb, e.pid ≠ p ∨ e.regime = .secure) ∧
        ∀ e ∈ (s2.core c).walk, e.pid ≠ p ∨ e.regime = .secure) ∧
    (call 0x20 1 → s.granuleStatus p x.toNat = 0 → gives (.granuleQuery t) 0 [s.potEntry x.toNat] s) ∧
    (∀ s2, call 0x21 1 → s.runForm x y = true → s.runStatus p g y.toNat [1] = 0 → (s.addRun p g y.toNat).runsFull p = false → s.potSet p 2 63 g y.toNat = some s2 →
      gives (.registerExchangeWindow t) 0 [BitVec.ofNat 64 (s2.runGen g)] (s2.addRun p g y.toNat)) ∧
    (∀ s2, call 0x22 1 → s.runForm x y = true → s.runStatus p g y.toNat [2] = 0 → (s.dropRun p g y.toNat).runsFull p = false → s.potSet p 1 63 g y.toNat = some s2 →
      gives (.deregisterExchangeWindow t) 0 [BitVec.ofNat 64 (s2.runGen g)] (s2.dropRun p g y.toNat)) ∧
    (call 0x23 1 → 1 ≤ z.toNat → z.toNat ≤ 48 → z.toNat ≠ p → s.runForm x y = true → s.runStatus p g y.toNat [1, 2] = 0 →
      ∃ s2, gives (.offerSharedWindow t) 0 [] s2 ∧ ⟨p, z.toNat, g, y.toNat⟩ ∈ s2.offers ∧ s2.mem = s.mem) ∧
    (∀ s2, call 0x24 1 → s.runForm x y = true → ⟨z.toNat, p, g, y.toNat⟩ ∈ s.offers → s.runStatus z.toNat g y.toNat [1, 2] = 0 →
      (s.addRun p g y.toNat).runsFull p = false → (s.addRun z.toNat g y.toNat).runsFull z.toNat = false → s.potSet z.toNat 3 p g y.toNat = some s2 →
      ∃ s3, gives (.acceptSharedWindow t) 0 [BitVec.ofNat 64 (s2.runGen g)] s3 ∧ s3.mem = s2.mem ∧ ⟨z.toNat, p, g, y.toNat⟩ ∉ s3.offers ∧
        ⟨p, g, y.toNat, s2.runGen g⟩ ∈ s3.trl.runs) ∧
    (∀ s2, call 0x25 1 → s.runForm x y = true →
      (∀ k ∈ granules g y.toNat, fld (s.granule k) 56 54 = 3 ∧ bit (s.granule k) 57 = false ∧
        fld (s.granule k) 63 58 = fld (s.granule g) 63 58 ∧ fld (s.granule k) 53 48 = fld (s.granule g) 53 48) →
      (fld (s.granule g) 63 58 = p ∨ fld (s.granule g) 53 48 = p) →
      (s.dropRun (fld (s.granule g) 63 58) g y.toNat).runsFull (fld (s.granule g) 63 58) = false →
      (s.dropRun (fld (s.granule g) 53 48) g y.toNat).runsFull (fld (s.granule g) 53 48) = false → s.potSet (fld (s.granule g) 63 58) 2 63 g y.toNat = some s2 →
      gives (.withdrawSharedWindow t) 0 [BitVec.ofNat 64 (s2.runGen g)]
        ((s2.dropRun (fld (s.granule g) 63 58) g y.toNat).dropRun (fld (s.granule g) 53 48) g y.toNat)) ∧
    (∀ c, call 0x30 2 → (s.thr m).svcWait = false → s.coreFor p x.toNat = some c → s.rf .pwrGatereq [] 2 0 ≠ 2 →
      (y = 0 → gives (.gateRequest t) 0 [] (s.gateWrite c 0)) ∧
      (y = 1 ∨ y = 2 → c ≤ 112 → s.leased c = false → ∃ u, exec (.gateRequest t) s = .next u ∧ u.power.gateWait = true ∧
        u.arch t = a ∧ u.mem = s.mem)) ∧
    (call 0x31 2 → gives (.gateStatus t) 0 [s.regRead .pwrGatereq []] (s.afterRead .pwrGatereq [])) ∧
    (∀ c, call 0x40 1 → s.coreFor p x.toNat = some c → y.toNat ≤ 1 → z.toNat ≤ 1 →
      gives (.class0Responder t) 0 [] (s.modThr (2 * c + y.toNat) (Thread.setC0r (z == 1)))) ∧
    (x.toNat ≤ 0x72 → let ix := [p, x.toNat]
      (call 0x50 1 → gives (.readFaultRecord t) 0
        [s.reg .fltPrec ix, s.reg .fltPaddr ix, s.reg .fltPtsec ix, s.reg .fltPtns ix, s.reg .fltPinfo ix, 0] s) ∧
      (call 0x51 1 → gives (.clearFaultRecord t) (if (s.partClear p x.toNat).1 then 0 else 5) [] (s.partClear p x.toNat).2)) ∧
    (s.bufferStatus p x.toNat = 0 →
      (∀ d rest, call 0x60 1 → parsePdu (s.rd x.toNat 2048) = some (d, rest) → d.kind = 1 → d.session = 0 → (∀ e ∈ s.cold.inband, e.1 ≠ p) →
        gives (.dictionaryPost t) 0 [] (s.modCold fun c => { c with inband := c.inband ++ [(p, ⟨s.rd x.toNat 2048, none⟩)] })) ∧
      (∀ e r s2, call 0x61 1 → s.cold.inband.find? (fun e => e.1 == p) = some e → e.2.resp = some r →
        s.rootWrite m x.toNat (lineChunks r) = some s2 →
        gives (.dictionaryPoll t) 0 [] (s2.modCold fun c => { c with inband := c.inband.filter fun e => e.1 != p }))) ∧
    (call 0x70 2 → exec (.partitionReset t) s = .next (s.partReset p false))

/-- The return of a service call. -/
def Obligations.ServiceReturns : Prop :=
  ∀ (t : ThreadId) (s s1 : State) (st : Nat) (res : List W64),
    let a := s1.arch t
    let m := t.val
    a.pl = 3 → fld (a.srv 0x41) 15 14 ≠ 3 → a.res ≠ 1 → a.res < 32 → s1.rf .fltFatal [] 63 63 ≠ 1 → (s1.core (m / 2)).attempts = 0 →
    (∀ l ∈ (s1.thr m).cb, l.data.length ≠ 256) →
    Map.wf Thread.reset s1.threads = true → Map.wf srDefault a.sr = true → Map.wf zero64 a.regs = true →
    let u := s.serviceReturn s1 m st res
    (u.arch t).pc = a.srv 0x40 ∧ (u.arch t).pl = fld (a.srv 0x41) 15 14 ∧ (u.arch t).raw 1 = BitVec.ofNat 64 st ∧
    (∀ i, i < 6 → (u.arch t).raw (i + 2) = res.getD i 0) ∧ (u.arch t).cwp = (a.cwp + 27) % 28 ∧ (u.arch t).res = a.res - 1 ∧
    bit ((u.arch t).srv 0x42) 63 = false ∧ (u.thr m).hard = u.arch t ∧ (u.thr m).groups = [] ∧ u.mem = s1.mem ∧ u.regs = s1.regs ∧
    ∀ n, n ≠ m → u.thr n = s1.thr n

/-- Gating by lease (R184 to R186). -/
def Obligations.LeasesAndGates : Prop :=
  (∀ (dict : Bool) (isl : BitVec 7) (act : BitVec 2) (s0 : State),
    let s := if dict then s0 else s0.cfgw .pwrGatereq [] (pack [(54, 48, isl.toNat), (39, 38, act.toNat)])
    isl.toNat ≤ 112 → s.rf .pwrGatereq [] 2 0 ≠ 2 →
    Map.wf regDefault s.regs = true →
    let src := if dict then 2 else 1
    let asked := fun (st : Nat) => s.setReg .pwrGatereq [] (pack [(54, 48, isl.toNat), (39, 38, act.toNat), (34, 32, src), (2, 0, st)])
    (act = 1 ∨ act = 2 →
      (s.leased isl.toNat = false → exec (.gatereq dict isl act) s0 = .next { asked 0 with power := { s.power with gateWait := true, gatePend := false } }) ∧
      (s.leased isl.toNat = true → exec (.gatereq dict isl act) s0 = .next { asked 2 with gateEvent := true, power := { s.power with gateWait := false, gatePend := true } })) ∧
    (act = 0 → ∃ u, exec (.gatereq dict isl act) s0 = .next u ∧ u.rf .pwrGatereq [] 2 0 = 1 ∧
      (Map.wf Isl.reset s.isls = true → (u.isl isl.toNat).gate = 0) ∧ u.power.gateWait = false)) ∧
  (∀ s : State, s.power.gateWait = true → Map.wf Isl.reset s.isls = true → Map.wf regDefault s.regs = true →
    (s.islandBusy (s.rf .pwrGatereq [] 54 48) = true → exec .islandIdle s = .next s) ∧
    (s.islandBusy (s.rf .pwrGatereq [] 54 48) = false → ∃ u, exec .islandIdle s = .next u ∧ (u.isl (s.rf .pwrGatereq [] 54 48)).gate = s.rf .pwrGatereq [] 39 38 ∧
      u.rf .pwrGatereq [] 2 0 = 1 ∧ u.power.gateWait = false) ∧
    (∃ u, exec .gateIdleTimeout s = .next u ∧ u.isls = s.isls ∧ u.rf .pwrGatereq [] 2 0 = 3 ∧ u.power.gateWait = false)) ∧
  (∀ (hi : Bool) (v : W64) (s0 : State),
    let r : Reg := if hi then .pwrLease1 else .pwrLease0
    let s := s0.cfgw r [] v
    Map.wf regDefault s.regs = true →
    let s1 := s.setReg r [] (fieldsWrite r.row.fields false v (s.reg r))
    ((∀ i, i < 113 → s1.leased i = true → s.leased i = false → (s.isl i).gate = 0) → s.power.gateWait = false → s.rf .pwrGatereq [] 2 0 ≠ 2 →
      exec (.leaseWrite hi v) s0 = .next s1) ∧
    (s.power.gateWait = true → s.rf .pwrGatereq [] 2 0 ≠ 2 → s1.leased (s.rf .pwrGatereq [] 54 48) = true →
      ∃ u, exec (.leaseWrite hi v) s0 = .next u ∧ u.rf .pwrGatereq [] 2 0 = 2 ∧ u.gateEvent = true ∧ u.power.gatePend = true)) ∧
  (∀ (p q : Pid) (gran : BitVec 32) (num : BitVec 17) (s : State), ∃ u, exec (.offerLapse p q gran num) s = .next u ∧
    ⟨p.val, q.val, gran.toNat, num.toNat⟩ ∉ u.offers ∧ (∀ o ∈ s.offers, o ≠ ⟨p.val, q.val, gran.toNat, num.toNat⟩ → o ∈ u.offers) ∧
    u.mem = s.mem ∧ u.regs = s.regs)

/-- Requests at a home slice (R199, R200). -/
def Obligations.RequestsAreOrdered : Prop :=
  ∀ (c : CoreId) (thr : Bool) (line : Line) (stop : HubStop) (src : WriteSource) (full : List Byte) (part : List (BitVec 8 × Byte)) (s : State),
    let l := line.toNat
    let st := (s.l2l c.val l).st
    l * 256 < s.dram →
    let begun := fun (r : Req) => { s with
      txns := s.txns ++ [⟨r, decide (0 < s.rcm), (s.holders l).filter (fun k => some k != r.core?), [], [], [],
        s.wbs.any (fun w => w.line == l && w.accepted), false, false, []⟩] }
    let begins := fun (i : Instr) (r : Req) => exec i s = .next (begun r)
    let pid := s.prefPid c.val thr.toNat
    let mine := fun (r : Req) => r.agent = .core c.val ∧ r.line = l
    let fresh := s.l2Requests c.val < 64 ∧ (∀ r ∈ s.ingress ++ s.atRing, ¬ mine r) ∧ (c.val, l) ∉ s.prefCmp ∧
      ∀ t ∈ s.txns, ∀ r ∈ t.req :: t.queue, ¬ mine r
    let prefetches := l % 16 ≠ 0 ∧ st = .i ∧ fresh ∧ s.l2Requests c.val ≤ 56 ∧ bit (s.reg .potPfdis []) pid = false
    (prefetches → s.txn l ≠ none ∨ 224 < s.trackers (sliceOf l) ∨ s.poisoned l = true →
      exec (.prefrd c thr line) s = .next { s with prefCmp := s.prefCmp ++ [(c.val, l)] }) ∧
    (s.txn l = none → s.trackerFree l = true →
      (st = .i → fresh →
        exec (.rdshared c thr line) s = .next (prefReq (begun ⟨.rdShared, .core c.val, l, []⟩) c.val pid (l + 1)) ∧
        exec (.rdown c thr line) s = .next (prefReq (begun ⟨.rdOwn, .core c.val, l, []⟩) c.val pid (l + 1))) ∧
      (prefetches → s.trackers (sliceOf l) ≤ 224 → s.poisoned l = false → begins (.prefrd c thr line) ⟨.prefRd, .core c.val, l, []⟩) ∧
      (st = .s ∨ st = .f ∨ st = .o → fresh → begins (.upgrade c line) ⟨.upgrade, .core c.val, l, []⟩) ∧
      begins (.rdonce stop line) ⟨.rdOnce, .hub (hubStopNo stop), l, []⟩ ∧
      begins (.wrinv src line full) ⟨.wrInv, sourceAgent src, l, (List.range 256).zip (fit 256 full)⟩ ∧
      begins (.wrinvpart src line part) ⟨.wrInvPart, sourceAgent src, l, part.map fun p => (p.1.toNat, p.2)⟩) ∧
    (∀ t, s.txn l = some t → t.queue.length < 16 →
      let waits := fun (i : Instr) (r : Req) => exec i s = .next { s with
        txns := s.txns.map fun u => if u.req.line = l then { u with queue := u.queue ++ [r] } else u }
      waits (.rdonce stop line) ⟨.rdOnce, .hub (hubStopNo stop), l, []⟩ ∧
      waits (.wrinv src line full) ⟨.wrInv, sourceAgent src, l, (List.range 256).zip (fit 256 full)⟩ ∧
      waits (.wrinvpart src line part) ⟨.wrInvPart, sourceAgent src, l, part.map fun p => (p.1.toNat, p.2)⟩)

/-- The snoop table (R203); the states in the order I, S, F, E, O, M, EP. -/
def Obligations.SnoopAnswers : Prop :=
  ∀ (c : CoreId) (line : Line) (s : State) (t : Txn), s.txn line.toNat = some t → c.val ∈ t.toSnoop → s.holds c.val line.toNat = false →
    Map.wf L2Line.none s.l2 = true →
    let l := line.toNat
    let ask := match t.req.kind with
      | .rdShared | .prefRd => Instr.snpshared c line
      | .rdOwn | .wrInvPart => .snpown c line
      | .upgrade | .wrInv => .snpinv c line
      | .rdOnce => .snponce c line
    let column : List (Rsp × L2State) := match t.req.kind, t.rcm with
      | .rdShared, false | .prefRd, false =>
        [(.i, .i), (.s, .s), (.s, .s), (.data false, .s), (.data true, .o), (.data true, .o), (.goneWb, .ep)]
      | .rdShared, true | .prefRd, true =>
        [(.i, .i), (.s, .s), (.data false, .s), (.data false, .s), (.dataWb, .s), (.dataWb, .s), (.goneWb, .ep)]
      | .rdOwn, false => [(.i, .i), (.i, .i), (.i, .i), (.data false, .i), (.data true, .i), (.data true, .i), (.goneWb, .ep)]
      | .rdOwn, true => [(.i, .i), (.i, .i), (.data false, .i), (.data false, .i), (.dataWb, .i), (.dataWb, .i), (.goneWb, .ep)]
      | .upgrade, _ | .wrInv, _ => [(.i, .i), (.i, .i), (.i, .i), (.i, .i), (.i, .i), (.i, .i), (.goneWb, .ep)]
      | .rdOnce, false => [(.i, .i), (.s, .s), (.s, .s), (.data false, .e), (.data true, .o), (.data true, .m), (.goneWb, .ep)]
      | .rdOnce, true => [(.i, .i), (.s, .s), (.data false, .f), (.data false, .e), (.dataWb, .s), (.dataWb, .e), (.goneWb, .ep)]
      | .wrInvPart, _ => [(.i, .i), (.i, .i), (.i, .i), (.i, .i), (.dataWb, .i), (.dataWb, .i), (.goneWb, .ep)]
    ∀ (st : L2State) (a : Rsp × L2State), (s.l2l c.val l).st = st →
      (st, a) ∈ ([.i, .s, .f, .e, .o, .m, .ep] : List L2State).zip column →
      ∃ u, exec ask s = .next u ∧ (u.l2l c.val l).st = a.2 ∧
        u.txn l = some { t with toSnoop := t.toSnoop.erase c.val, flying := t.flying ++ [(c.val, a.1)] } ∧ u.mem = s.mem

/-- The rest of a transaction (R200, R201, R204, R207). -/
def Obligations.TransactionsComplete : Prop :=
  ∀ (c : CoreId) (line : Line) (s : State), Map.wf L2Line.none s.l2 = true → Memory.wf s.mem = true → Map.wf noLines s.mcq = true →
    let l := line.toNat
    (∀ (t : Txn) (r : Rsp) (rest : List (Nat × Rsp)), s.txn l = some t → t.flying = (c.val, r) :: rest →
      let cmd := match r with
        | .i => Instr.rspi c line
        | .s => .rsps c line
        | .data _ => .rspdata c line
        | .dataWb => .rspdatawb c line
        | .goneWb => .rspgonewb c line
      let tile := fun (k : Nat) => k / 14 == c.val / 14
      let here := t.atStop ++ [(c.val, r)]
      let t1 := if t.toSnoop.any tile || rest.any (fun x => tile x.1) then { t with flying := rest, atStop := here }
        else { t with flying := rest, got := t.got ++ here.filter (fun x => tile x.1), atStop := here.filter fun x => !tile x.1 }
      let data := ∃ x ∈ t1.got, x.2 = .data true ∨ x.2 = .data false
      (t.req.core? = none ∨ t1.complete = false ∨ ¬ data → exec cmd s = .next (s.setTxn t1)) ∧
      ∀ q s1, t.req.core? = some q → t1.complete = true → data → (s.setTxn t1).way q l = .ready s1 →
        ∃ u, exec cmd s = .next u ∧ u.mem = s1.mem ∧ u.txn l = some { t1 with filled := true } ∧
          (u.l2l q l).st = fillState t.req.kind t.rcm t1.got) ∧
    (∀ t q, s.txn l = some t → t.req.core? = some q → t.complete = true → t.filled = false → s.wantsDram t = false →
      (∀ k, k < 56 → k ≠ q → (s.l2l k l).st ≠ .ep) →
      (∀ s1, t.req.kind ≠ .upgrade → (if t.supplied then s else s.l3Use l true).way q l = .ready s1 → ∃ u, exec (.data line) s = .next u ∧ u.txn l = some { t with filled := true } ∧
        (u.l2l q l).st = fillState t.req.kind t.rcm t.got ∧ u.mem = s1.mem) ∧
      (t.req.kind = .upgrade → ∃ u, exec (.grant line) s = .next u ∧ u.txn l = some { t with filled := true } ∧
        (u.l2l q l).st = .m ∧ u.mem = s.mem)) ∧
    ((∃ x ∈ s.prefCmp, x.2 = l) → exec (.cmp line) s = .next { s with prefCmp := s.prefCmp.filter fun x => x.2 != l }) ∧
    (∀ t, s.txn l = some t → (∀ x ∈ s.prefCmp, x.2 ≠ l) → t.complete = true → t.queue = [] → (∀ r ∈ s.ingress, sliceOf r.line ≠ sliceOf l) → s.stalled = false →
      (t.req.kind = .wrInv ∨ t.req.kind = .wrInvPart → ∃ u, exec (.cmp line) s = .next u ∧ u.txn l = none ∧
        ∀ a, u.rdByte a = (s.wrOffsets l t.req.data).rdByte a) ∧
      (t.req.kind = .rdOnce → ∃ u, exec (.cmp line) s = .next u ∧ u.txn l = none ∧ u.mem = s.mem) ∧
      (t.filled = true → exec (.grantack line) s = .next { s with txns := s.txns.filter fun u => u.req.line != l })) ∧
    ((s.l2l c.val l).st = .m ∨ (s.l2l c.val l).st = .o → ∃ u, exec (.wbdata c line) s = .next u ∧ (u.l2l c.val l).st = .ep ∧
      WbMsg.mk c.val l true ∈ u.wbs ∧ u.mem = s.mem ∧
      if ∃ t, s.txn l = some t ∧ (t.req.kind = .wrInv ∨ t.req.kind = .wrInvPart) then u.mcq = s.mcq
      else l ∈ Map.get noLines u.mcq (s.mcOf (l * 256))) ∧
    ((s.l2l c.val l).st = .ep → ∃ u, exec (.wback c line) s = .next u ∧ (u.l2l c.val l).st = .i ∧
      (∀ w ∈ u.wbs, w.core ≠ c.val ∨ w.line ≠ l) ∧ u.mem = s.mem)

/-- Stores and loads of devices (R227, R238 to R242, R245). -/
def Obligations.DeviceAccesses : Prop :=
  (∀ (t : ThreadId) (page : BitVec 36) (s : State) (e : SbEntry) (st : Store),
    let x := s.thr t.val
    let port := (st.addr - 0xE00000000000) / 0x10000000000
    x.sb.find? (fun e => e.device && e.line / 16 == page.toNat) = some e → e.stores = [st] → x.hardened e = true →
    s.islRuns (t.val / 2) = true → isMmio st.addr = true → s.scn.running = false → s.scn.role ≠ 1 → s.transmits = true → (s.mmioPort port).lost = false → (s.mmioPort port).held = [] →
    (s.mmioPort port).tracked.length < 256 → s.power.dozeWait = false →
    Map.wf Thread.reset s.threads = true → Map.wf MmioPort.reset s.mmio = true →
    ∃ u, exec (.deviceStoreSend t page) s = .next u ∧ (u.thr t.val).sb = x.sb.erase e ∧ u.mem = s.mem ∧
      (u.mmioPort port).tracked = (s.mmioPort port).tracked ++ [⟨st.addr, st.bytes, st.who, st.pid⟩] ∧
      (u.mmioPort port).flushes = (if (s.mmioPort port).tracked.length = 191 ∧ (s.mmioPort port).flushes.getLast? ≠ some 192
        then (s.mmioPort port).flushes ++ [192] else (s.mmioPort port).flushes)) ∧
  (∀ (p : PortId) (s : State),
    let x := s.mmioPort p.val
    let becomes := fun (y : MmioPort) => { s with mmio := Map.set MmioPort.reset s.mmio p.val y }
    (x.tracked ≠ [] → x.flushes.getLast? ≠ some x.tracked.length →
      exec (.flushReadTimer p) s = .next (becomes { x with flushes := x.flushes ++ [x.tracked.length] })) ∧
    (∀ n rest, x.flushes = n :: rest → x.held = [] → (∀ h ∈ s.held, h.port ≠ p.val) → (s.port p.val).ending = false → Map.wf MmioPort.reset s.mmio = true →
      ∃ u, exec (.flushReadComplete p) s = .next u ∧ u.mem = s.mem ∧ u.threads = s.threads ∧ u.mmioPort p.val = { x with
        tracked := x.tracked.drop n, flushes := rest.map (· - n), performed := x.performed + (min n x.tracked.length - x.skip),
        skip := x.skip - min n x.tracked.length }) ∧
    (x.flushes ≠ [] → Map.wf MmioPort.reset (s.loseStores x.tracked).mmio = true →
      ∃ v : State, exec (.mmioTimeout p) s = .next (v.failPort true p.val) ∧ (v.mmioPort p.val).tracked = [] ∧ (v.mmioPort p.val).lost = true ∧
        v.threads = (s.loseStores x.tracked).threads)) ∧
  (∀ (t : ThreadId) (bytes : List Byte) (d : DevLoad) (s : State), (s.thr t.val).devLoad = some d →
    let n := match d.op with
      | .ldb | .ldbu => 1
      | .ldh | .ldhu => 2
      | .ldw | .ldwu | .ldfs => 4
      | .ldd | .ldfd => 8
      | .ldfq => 16
    let x := s.thr t.val
    let ones := (s.setThr t.val { x with devLoad := none, devVal := some (d.addr, ofBytes (List.replicate n 0xFF)) }).coreFault
      (t.val / 2) clsContained 0x0121 x.cur.chkPid d.addr 0 (some t.val)
    (bytes.length = n → exec (.deviceLoadComplete t true bytes) s =
      .next (s.setThr t.val { x with devLoad := none, devVal := some (d.addr, ofBytes bytes) })) ∧
    exec (.deviceLoadComplete t false bytes) s = .next ones ∧ exec (.mmioLoadTimeout t) s = .next ones) ∧
  (∀ (p : Pid) (s : State) (x : PReset) (m : Nat) (old : Store × Nat), s.presets.find? (fun x => x.pid == p.val) = some x →
    x.threads = [m] → old ∈ s.buffered m → (∀ y ∈ s.buffered m, y = old ∨ old.1.born < y.1.born) → exec (.partitionDrainTimeout p) s =
      .next ((s.setThr m { s.thr m with sb := [], cb := [] }).coreFault (m / 2) clsContained 0x0122 p.val old.1.addr 0 (some m)).queueClose)

/-- The outer code, the patrol, the write queue and the address map of a channel. -/
def Obligations.MemoryControllerTraffic : Prop :=
  (∀ (n : McId) (line : Line) (s : State), Map.wf Mc.reset s.mcs = true → Map.wf noFlag s.poison = true → Map.wf regDefault s.regs = true →
    let l := line.toNat
    let here := l * 256 < s.dram ∧ s.mcOf (l * 256) = n.val ∧ l ∉ Map.get noLines s.mcq n.val ∧ s.poisoned l = false ∧
      s.mark n.val (s.rankOf n.val l) = none ∧ (s.readQueue n.val = [] ∨ (s.readQueue n.val).head? = some l)
    let word := fun (b : BadSymbol) => (b.burst, b.word.toNat)
    let inLine := fun (b : BadSymbol) => b.word.toNat < if s.x8 then 4 else 8
    (here → exec (.mcRead n line []) s =
      .next { s with txns := s.txns.map fun t => if t.req.line = l then { t with fetched := true } else t }) ∧
    (here → ∀ bad : List BadSymbol, bad ≠ [] → (∀ b ∈ bad, inLine b) → (∀ b ∈ bad, ∀ c ∈ bad, word b = word c → b.pos = c.pos) →
      ∃ u, exec (.mcRead n line bad) s = .next u ∧ l ∈ (u.mc n.val).scrubs ∧ u.mem = s.mem ∧ u.poison = s.poison ∧
      u.rf .mcErrcnt [n.val] 63 32 = min (s.rf .mcErrcnt [n.val] 63 32 + 1) (2 ^ 32 - 1)) ∧
    (here → ∀ b c : BadSymbol, word b = word c → b.pos ≠ c.pos → s.x8 = false → s.dirtyLine l = false → s.rf .potBase [] 0 0 = 1 →
      fld (s.potEntry (l * 256)) 57 57 = 0 → fld (s.potEntry (l * 256)) 56 54 = 1 →
      ∃ u, exec (.mcRead n line [b, c]) s = .next u ∧ u.poisoned l = true ∧ u.mem = s.mem) ∧
    ((s.mc n.val).selfRefresh = false → ¬ (s.ways = 6 ∧ n.val % 2 = 1) →
      exec (.patrolRead n []) s = .next (s.setMc n.val { s.mc n.val with patrol := ((s.mc n.val).patrol + 1) % s.chanLines })) ∧
    ((s.mc n.val).draining = true → s.readQueue n.val = [] → Map.wf noLines s.mcq = true → ∃ u, exec (.mcWrite n) s = .next u ∧
      Map.get noLines u.mcq n.val = (Map.get noLines s.mcq n.val).drop 1 ∧ u.mem = s.mem ∧ u.poison = s.poison) ∧
    (l ∈ (s.mc n.val).scrubs → Map.wf noLines s.mcq = true → ∃ u, exec (.scrubWriteback n line) s = .next u ∧
      l ∈ Map.get noLines u.mcq (s.mcOf (l * 256)) ∧ u.mem = s.mem ∧ u.poison = s.poison) ∧
    (l ∉ (s.mc n.val).scrubs → exec (.scrubWriteback n line) s = .next s)) ∧
  (∀ (d : Dimm) (dpc k : Nat), 1 ≤ d.stack → d.ranks = 1 ∨ d.ranks = 2 → dpc = 1 ∨ dpc = 2 → 7 ≤ d.colBits →
    let x := d.decode dpc k
    let g := 2 ^ d.bgBits
    let b := 2 ^ d.bankBits
    let c := 2 ^ (d.colBits - 7)
    k = (((((((x.row * c + x.col / 4) * d.stack + x.cid) * dpc + x.dimm) * d.ranks + x.rank) * b + (x.bank ^^^ (x.row / g % b))) * g) +
      (x.bg ^^^ (x.row % g))) * 4 + x.col % 4)

/-- What a memory controller does besides reads and writes. -/
def Obligations.MemoryControllerUpkeep : Prop :=
  ∀ (n : McId) (rank : BitVec 2) (bank : BitVec 5) (s : State),
    let x := s.mc n.val
    let r := rank.toNat
    (x.selfRefresh = false →
      exec (.refresh n rank) s = .next (s.setMc n.val { x with refreshed := some r, refreshes := x.refreshes + 1 }) ∧
      exec (.rfm n rank bank) s = .next (s.setMc n.val { x with rfms := x.rfms + 1 })) ∧
    (x.selfRefresh = false → s.power.state = .run →
      exec (.dqsIntervalOscillator n rank) s = .next (s.setMc n.val { x with oscs := x.oscs + 1 })) ∧
    (x.selfRefresh = false → s.power.state = .run → x.refreshed = some r → ¬ (s.rf .mcTrain [n.val] 7 0 = 3 ∧ s.rf .mcTrain [n.val] 11 8 = r) →
      exec (.readCentring n rank) s = .next (s.setMc n.val { x with refreshed := none, centrings := x.centrings + 1 })) ∧
    (∀ count row : BitVec 32, s.odv 0x100002 < count.toNat → exec (.ecsRead n rank count row) s =
      .next (s.fault (blkMc n.val) clsCorrected 0x0306 0 0 (pack [(35, 32, r), (31, 0, row.toNat)]))) ∧
    (∀ (dimm : Bool) (v : BitVec 8), 90 ≤ v.toInt → v.toInt ≤ 95 → Map.wf regDefault s.regs = true → Map.wf Mc.reset s.mcs = true →
      ∃ u, exec (.temperaturePoll n dimm (some v)) s = .next u ∧
        u.rf .mcTemp [n.val] (if dimm then 15 else 7) (if dimm then 8 else 0) = v.toNat ∧
        (u.mc n.val).halfRate = x.halfRate ∧ (if dimm then (u.mc n.val).silent1 else (u.mc n.val).silent0) = 0) ∧
    (let lo := if s.dpc = 2 ∧ s.ranks / 2 ≤ r then 8 else 0
     let now := (BitVec.ofNat 8 (s.rf .mcTemp [n.val] (lo + 7) lo)).toInt
     let was := (BitVec.ofNat 8 (Map.get zeroNat x.trained r)).toInt
     x.selfRefresh = false → s.power.state = .run → r < s.ranks → s.rf .mcCfg [n.val] 0 0 = 1 → s.rf .mcTrain [n.val] 7 0 = 2 → 10 ≤ (now - was).natAbs →
      ∃ u, exec (.fullRetraining n rank) s = .next u ∧ u.regs = (s.setRf .mcTrain [n.val] 11 0 (r * 256 + 3)).regs) ∧
    (s.rf .mcTrain [n.val] 7 0 = 3 → x.waiting = [] → x.selfRefresh = false → Map.wf Mc.reset s.mcs = true → Map.wf regDefault s.regs = true →
      let lo := if s.dpc = 2 ∧ s.ranks / 2 ≤ s.rf .mcTrain [n.val] 11 8 then 8 else 0
      ∃ u, exec (.retrainingSlice n [] true true) s = .next u ∧
        u.regs = ((s.setRf .mcTemp [n.val] (lo + 23) (lo + 16) (s.rf .mcTemp [n.val] (lo + 7) lo)).setRf .mcTrain [n.val] 11 0 2).regs ∧
        (Map.wf zeroNat x.trained = true →
          Map.get zeroNat (u.mc n.val).trained (s.rf .mcTrain [n.val] 11 8) = s.rf .mcTemp [n.val] (lo + 7) lo)) ∧
    (s.power.boot = .training → s.rf .mcTrain [n.val] 7 0 = 1 → ¬ (s.ways = 6 ∧ n.val % 2 = 1) → Map.wf regDefault s.regs = true →
      (∃ u, exec (.channelTrainingComplete n true false) s = .next u ∧ u.rf .mcTrain [n.val] 7 0 = 2 ∧ u.rf .mcCfg [n.val] 0 0 = 1 ∧ u.power = s.power) ∧
      ∀ narrow, ∃ u : State, exec (.channelTrainingComplete n false narrow) s = .next u ∧ u.power.boot = .stopped ∧
        u.regs = ((s.setRf .mcTrain [n.val] 11 0 4).fault (blkMc n.val) clsFatal 0x0308 0 0).regs) ∧
    (¬ (s.ways = 6 ∧ n.val % 2 = 1) →
      let s1 := s.fault (blkMc n.val) clsCorrected 0x030A 0 0
      let s2 := (s1.setRf .mcTrain [n.val] 11 0 4).setRf .mcCfg [n.val] 0 0 0
      (∀ f : BitVec 2, f ≠ 3 → exec (.alertN n f) s = .next s1) ∧
      (s1.power.boot ≠ .training → exec (.alertN n 3) s = .next (s2.fault (blkMc n.val) clsFatal 0x030B 0 0)) ∧
      (s1.power.boot = .training → ∃ u : State, exec (.alertN n 3) s = .next u ∧ u.power.boot = .stopped ∧
        u.regs = (s2.fault (blkMc n.val) clsFatal 0x0308 0 0).regs))

/-- Rings (R275 to R278, R293). -/
def Obligations.RingsAndDoorbells : Prop :=
  (∀ (q : QueueRef) (s : State) (r : Ring) (size : Nat) (on : Bool), s.ringOf q = some (r, size, on) →
    Map.wf Thread.reset s.threads = true → Map.wf AdminQ.empty s.trl.admin = true → Map.wf JobCtx.empty s.trl.ctxs = true →
    (∀ t : ThreadId, (s.thr t.val).run = .running → ((s.arch t).pl = 3 ∨ (s.arch t).pid = queuePid q) →
      (s.pageBusy t.val (doorbellOf q / 4096) = true → exec (.sqDoorbellReserve t q) s = .next s) ∧
      (s.pageBusy t.val (doorbellOf q / 4096) = false →
      let load := fun (v : W64) (r' : Ring) => ∃ u, exec (.sqDoorbellReserve t q) s = .next u ∧
        (u.thr t.val).devVal = some (doorbellOf q, v.toNat) ∧ u.arch t = s.arch t ∧ u.ringOf q = some (r', size, on) ∧
        u.mem = s.mem
      let k := r.skip
      (on = true → k.tail < k.head + size → load (pack [(63, 63, 1), (31, 0, k.tail)])
        { k with tail := k.tail + 1, slots := k.slots ++ [⟨k.tail, (s.arch t).lcore, .reserved⟩] }) ∧
      (on = true → k.head + size ≤ k.tail → load 0 k) ∧
      (on = false → load (pack [(62, 62, 1)]) r))) ∧
    (∀ slot : BitVec 32,
      let gives := fun (i : Instr) (r' : Ring) =>
        ∃ u, exec i s = .next u ∧ u.ringOf q = some (r', size, on) ∧ u.mem = s.mem ∧ u.threads = s.threads
      let marked := fun (st : SlotSt) =>
        ({ r with slots := r.slots.map fun x => if x.idx = slot.toNat then { x with st := st } else x } : Ring).skip
      let ignored := { r with ignored := r.ignored + 1 }
      let held := ∃ x ∈ r.slots, x.idx = slot.toNat ∧ x.st = .reserved
      (s.pageOn q = true → held → gives (.sqReady q slot) (marked .ready) ∧ gives (.sqRelease q slot) (marked .released)) ∧
      (s.pageOn q = true → ¬ held → gives (.sqReady q slot) ignored.skip ∧ gives (.sqRelease q slot) ignored.skip) ∧
      (s.pageOn q = false → gives (.sqReady q slot) ignored ∧ gives (.sqRelease q slot) ignored) ∧
      ((∃ x ∈ r.slots, x.idx = slot.toNat ∧ x.st = .reserved ∧ ∀ p ∈ s.sparings, p.lcore ≠ x.lcore) →
        gives (.slotVoid q slot) (marked .void)) ∧
      ((∀ x ∈ r.slots, x.idx ≠ slot.toNat ∨ x.st ≠ .reserved ∨ ∃ p ∈ s.sparings, p.lcore = x.lcore) →
        exec (.slotVoid q slot) s = .next s))) ∧
  (∀ (p : Pid) (set : SetNo) (q : BitVec 6) (head : BitVec 32) (s : State) (c : Cq), s.cq? p.val set.val q.toNat = some c →
    let h := head.toNat
    let ignores := exec (.cqHead (.sq p set q) head) s = .next { s with trl := { s.trl with ignored := s.trl.ignored + 1 } }
    (s.setOn p.val set.val = true → c.head ≤ h → h ≤ c.tail → ∃ u c', exec (.cqHead (.sq p set q) head) s = .next u ∧
      u.cq? p.val set.val q.toNat = some c' ∧ c'.head = h ∧
      (c.waiting = [] → c' = { c with head := h, live := c.live.drop (h - c.head) } ∧
        ∀ g ∈ c.live.take (h - c.head), ∀ k ∈ u.trl.kept, k.pid ≠ p.val ∨ k.lidx ≠ g.lidx)) ∧
    (s.setOn p.val set.val = false ∨ h < c.head ∨ c.tail < h → ignores)) ∧
  (∀ (p : Pid) (set : SetNo) (q : BitVec 6) (head : BitVec 32) (s : State),
    let ignored : State := { s with trl := { s.trl with ignored := s.trl.ignored + 1 } }
    (s.cq? p.val set.val q.toNat = none → exec (.cqHead (.sq p set q) head) s = .next ignored) ∧
    (s.setOn p.val 0 = false → exec (.cqHead (.admin p) head) s = .next ignored)) ∧
  (∀ (p : Pid) (head : BitVec 32) (s : State), Map.wf AdminQ.empty s.trl.admin = true → s.setOn p.val 0 = true →
    (s.admin p.val).cqHead ≤ head.toNat → head.toNat ≤ (s.admin p.val).cqTail →
    ∃ u, exec (.cqHead (.admin p) head) s = .next u ∧ (u.admin p.val).cqHead = head.toNat) ∧
  (∀ (e : Nat) (p : Pid) (c : Nat) (q : QueueRef) (head : BitVec 32) (s : State), Map.wf JobCtx.empty s.trl.ctxs = true →
    (∃ k, q = .sieve p k ∧ k.val = c ∧ e = 0) ∨ (∃ k, q = .garnet p k ∧ k.val = c ∧ e = 1) →
    (s.ctx e p.val c).cqHead ≤ head.toNat → head.toNat ≤ (s.ctx e p.val c).cqTail →
    ∃ u, exec (.cqHead q head) s = .next u ∧ (u.ctx e p.val c).cqHead = head.toNat)

/-- Acceptance to the wire (R284 to R298). -/
def Obligations.ExchangesReachTheWire : Prop :=
  (∀ (p : Pid) (set : SetNo) (q : BitVec 6) (lidx : BitVec 20) (s : State) (sq : Sq) (slot : Slot),
    s.sq? p.val set.val q.toNat = some sq → sq.ring.front = some slot → s.trlOn = true → s.scn.role ≠ 2 → sq.skipTo = none →
    s.hubStalled sq.cls = false → s.acceptWaits p.val set.val sq.cls = false → s.entryFits p.val sq.cls lidx.toNat = true → s.entryFree p.val lidx.toNat = true →
    (sq.cls ≠ 0 → s.c0Ready = true → exec (.acceptance p set q lidx) s = .next s) ∧ ((sq.cls = 0 ∨ s.c0Ready = false) →
    let l := lidx.toNat
    let read := s.trlRead p.val none (sq.base + 128 * (slot.idx % 2 ^ sq.k)) 128
    let dis := sq.enabled = false ∨ s.setOn p.val set.val = false
    ∃ u, exec (.acceptance p set q lidx) s = .next u ∧
      u.sq? p.val set.val q.toNat = some { sq with nextXsn := sq.nextXsn + 1, ring := sq.ring.pop } ∧
      (dis → Kept.mk p.val set.val q.toNat sq.cls l ∈ u.trl.kept ∧ u.trl.xchs = s.trl.xchs) ∧
      (¬ dis → ∀ b, read.1 = some (b, false) → ecbLegal set.val sq.cq b = true → ecbNseg b = 0 → fld (dwordAt b 0) 51 48 = 0 →
        fld (dwordAt b 0) 45 32 < read.2.rf .trlPcfg [p.val] 14 0 →
        (∃ i, i < 8 ∧ inMask (fld (dwordAt b 0) 15 8) i = true ∧ bit (read.2.pathWord p.val (fld (dwordAt b 0) 45 32) i) 63 = true) →
        ∃ x, u.xch? p.val l = some x ∧ x.state = 1 ∧ x.xsn = sq.nextXsn ∧ x.slot = slot.idx ∧ x.gen = s.genOf p.val set.val ∧
          x.set = set.val ∧ x.q = q.toNat ∧ x.cls = sq.cls ∧ x.dev = fld (dwordAt b 0) 45 32 ∧ x.tag = dwordAt b 8 ∧ x.tpost = s.stamp))) ∧
  (∀ (p : Pid) (lidx : BitVec 20) (s : State) (x : Xch), s.xch? p.val lidx.toNat = some x → x.state = 1 → (s.scn.role < 2 ∨ 4 < s.scn.role) →
    (∀ (inp frame : List Byte) (bad : Bool) (s1 : State), x.outbound = true → x.frame = none → s.outDone x = true → s.hubStalled x.cls = false →
      readSegs p.val (x.segs.filter fun g => !g.dir) s = (.ok inp, s1) → (x.xf / 8 % 2 = 1 → inp ≠ []) →
      x.outFrame inp = (.ok frame, bad) →
      ∃ u, exec (.transformComplete p lidx) s = .next u ∧ if s.stagingUse + frame.length ≤ Config.stagingBytes then
          ∃ a, u.xch? p.val lidx.toNat = some { x with
            frame := some frame, frameAddr := a, blocksTaken := 0, unitsDone := 0,
            segs := x.segs.map fun g => if g.dir then g else { g with done := g.len } }
        else u = s) ∧
    (∀ (handle : BitVec 21) (k : Nat), s.firstPath x = some k → s.sendWaits x k = false → s.termWait = none → s.hubStalled x.cls = false →
      (let r := s.withStage { x with handle := some handle.toNat }; r.2.framePoison r.1 = false) →
      (∀ y ∈ s.trl.xchs, y.handle = some handle.toNat → y.pid = x.pid ∧ y.lidx = x.lidx) →
      ∃ u y, exec (.exchangeSend p lidx handle) s = .next u ∧ u.xch? p.val lidx.toNat = some y ∧ y.state = 2 ∧ y.path = k ∧
        y.handle = some handle.toNat ∧ y.attempts = min (x.attempts + 1) 255 ∧ y.ptried = x.ptried ||| 2 ^ k ∧
        y.xsn = x.xsn ∧ y.gen = x.gen)) ∧
  (∀ (port : PortId) (cls : BitVec 2) (s : State) (m : TMsg), Map.wf Port.empty s.ports = true →
    let o := (s.port port.val).outbox
    o.find? (fun m => m.lane == cls.toNat) = some m → m.typ = 1 → m.ans = none → s.canSend port.val = true →
    (cls = 0 ∨ (∀ y ∈ o, y.lane ≠ 0 ∧ y.lane ≠ 4) ∧ ((∀ y ∈ o, y.lane = cls.toNat) ∨
      (s.port port.val).turn = cls.toNat ∧ (s.port port.val).used < s.weight port.val cls.toNat)) →
    ∃ u, exec (.firstTlp port cls) s = .next u ∧ m ∈ (u.port port.val).wire ∧ (u.port port.val).outbox = o.erase m ∧
      ∀ x, s.trl.xchs.find? (fun x => x.stream == m.stream && x.xsn == m.xsn) = some x → s.scn.role ≠ 2 → x.state ≠ 1 →
        ∃ y, u.xch? x.pid x.lidx = some y ∧ y = { x with twire := some s.stamp, measured := true })

/-- Adapter messages (R290 to R304, R322). -/
def Obligations.AdapterMessages : Prop :=
  (∀ (port : PortId) (m : AdapterMsg) (res : W64) (s : State), s.linkOn port.val = true → s.trlOn = true →
    let all : List Instr := [.ack port m, .cmpl port m res, .abtcfm port m, .patherr port m, .stale port m]
    (s.scn.role = 2 → ∀ i ∈ all, (i = .cmpl port m res ∨ i = .abtcfm port m → ∀ p, (s.admin p).running = none ∧ s.trl.resetting = []) →
      ∃ u it, exec i s = .next u ∧ it.stream = m.stream.toNat ∧ it.xsn = m.xsn.toNat ∧ u.trl = s.trl ∧
        if s.replayTakes it then ∃ n, u.replay = s.replay ++ [{ it with bytes := n }] else u.replay = s.replay ∧ u.scn.waits = s.scn.waits ++ [it]) ∧
    (s.scn.role ≠ 2 → s.itemWaits (msgItem port.val 0x81 m 0) = true →
      exec (.ack port m) s = .next ((s.portRun port.val).waitItem (msgItem port.val 0x81 m 0)) ∧
      exec (.patherr port m) s = .next ((s.portRun port.val).waitItem (msgItem port.val 0x85 m 0)) ∧
      exec (.stale port m) s = .next ((s.portRun port.val).waitItem (msgItem port.val 0x86 m 0))) ∧
    (s.scn.role ≠ 2 → s.itemWaits (msgItem port.val 0x81 m 0) = false → m.term.toNat ≤ s.term → ∀ x, s.msgFor m = .exch x →
      let ended := fun (u : State) => u.xch? x.pid x.lidx = none ∧
        ((∀ r, (s.admin (m.stream.toNat / 2 ^ 26)).running = some r → r.opc ≠ 0x14) → Kept.mk x.pid x.set x.q x.cls x.lidx ∈ u.trl.kept)
      let window := x.window && !(x.resent && m.path.toNat == x.path)
      (x.state = 2 → ∃ u, exec (.ack port m) s = .next u ∧ u.xch? x.pid x.lidx = some { x with state := 3, window := window }) ∧
      (x.state = 3 → ∃ u, exec (.ack port m) s = .next u ∧ u.xch? x.pid x.lidx = some { x with window := window } ∧ u.mem = s.mem) ∧
      (2 ≤ x.state → x.cmpl = none →
        (x.inbound = false ∨ m.status ≠ 0 ∨ x.poisoned = true → ∃ u, exec (.cmpl port m res) s = .next u ∧ ended u) ∧
        (x.inbound = true → m.status = 0 → x.poisoned = false → ∃ u, exec (.cmpl port m res) s = .next u ∧
          u.xch? x.pid x.lidx = some { x with cmpl := some (0, res) })) ∧
      (2 ≤ x.state → ∃ u, exec (.abtcfm port m) s = .next u ∧ ended u) ∧
      (Map.wf regDefault s.regs = true → bit (s.pathWord x.pid x.dev m.path.toNat) 63 = true →
        bit (s.pathWord x.pid x.dev m.path.toNat) 62 = false → fld (s.pathWord x.pid x.dev m.path.toNat) 59 56 < 12 →
        ∃ u, exec (.patherr port m) s = .next u ∧ u.rf .trlPortst [fld (s.pathWord x.pid x.dev m.path.toNat) 59 56] 62 62 = 1) ∧
      exec (.stale port m) s = .next ((s.portRun port.val).lateMsg x.pid x.set)) ∧
    (s.scn.role ≠ 2 → s.itemWaits (msgItem port.val 0x81 m 0) = false → m.term.toNat ≤ s.term → ∀ p set, s.msgFor m = .late p set → Map.wf regDefault s.regs = true → ∀ i ∈ all,
      ∃ u, exec i s = .next u ∧ u.trl.xchs = s.trl.xchs ∧ u.rf .trlLatecnt [] 31 0 = min (s.rf .trlLatecnt [] 31 0 + 1) (2 ^ 32 - 1)) ∧
    (s.scn.role ≠ 2 → s.itemWaits (msgItem port.val 0x81 m 0) = false → s.term < m.term.toNat → ∀ i ∈ ([.ack port m, .patherr port m, .stale port m] : List Instr),
      exec i s = .next ((s.portRun port.val).fault (blkPort port.val) clsContained 0x060A (m.stream.toNat / 2 ^ 26) 0))) ∧
  (∀ (p : Pid) (lidx : BitVec 20) (s s1 s2 : State) (x : Xch) (res : W64) (inp out : List Byte),
    s.xch? p.val lidx.toNat = some x → s.scn.role ≠ 2 → x.cmpl = some (0, res) → s.inDone x = true → s.hubStalled x.cls = false → s.stagePoison x = false → s.stagedBytes x = (inp, s1) → s1.inTransform x inp = .ok out →
    writeSegs x.pid x.set (spread (x.segs.filter fun g => g.dir) out) s1 = (true, s2) →
    ∃ u, exec (.inboundTransform p lidx) s = .next u ∧ u.xch? p.val lidx.toNat = none ∧
      ((∀ r, (s.admin p.val).running = some r → r.opc ≠ 0x14) → Kept.mk x.pid x.set x.q x.cls x.lidx ∈ u.trl.kept)) ∧
  (∀ (p : Pid) (lidx : BitVec 20) (s : State) (x : Xch) (res : W64), s.xch? p.val lidx.toNat = some x → s.scn.role ≠ 2 →
    x.cmpl = some (0, res) → s.inDone x = true → s.hubStalled x.cls = false → s.stagePoison x = true →
    ∃ u, exec (.inboundTransform p lidx) s = .next u ∧ u.xch? p.val lidx.toNat = none) ∧
  (∀ (port : PortId) (s : State), s.linkOn port.val = true → Map.wf regDefault s.regs = true →
    ∃ u, exec (.msi port) s = .next u ∧ u.rf .trlPlink [port.val] 31 0 = min (s.rf .trlPlink [port.val] 31 0 + 1) (2 ^ 32 - 1) ∧
      u.rf .trlPlink [port.val] 63 32 = s.rf .trlPlink [port.val] 63 32 ∧ u.mem = s.mem ∧ u.trl = s.trl ∧ u.ports = s.ports)

/-- Paths and timeouts (R299 to R317, R342). -/
def Obligations.PathsAndTimeouts : Prop :=
  (∀ (port : PortId) (s : State), Map.wf regDefault s.regs = true → Map.wf Port.empty s.ports = true →
    let p := port.val
    let plink := fun (u : State) (speed width : Nat) =>
      u.rf .trlPlink [p] 63 60 = speed ∧ u.rf .trlPlink [p] 59 56 = width
    (∀ speed width : BitVec 4, speed ∈ ([1, 2, 3, 4, 5] : List (BitVec 4)) → width ∈ ([1, 4, 8] : List (BitVec 4)) →
      width.toNat ≤ maxWidth (s.rf .trlPlink [p] 47 46) → s.rf .trlPlink [p] 41 41 = 0 →
      (s.port p).withdrawing = false → s.egressIdle = false →
      ∃ u, exec (.trellisLinkUp port speed width) s = .next u ∧ u.linkOn p = true ∧ plink u speed.toNat width.toNat ∧
        ((∀ x ∈ s.trl.xchs, x.window = false ∨ x.state < 2 ∨ x.aborting = true ∨ x.resent = true) → u.mem = s.mem)) ∧
    (∀ speed width : BitVec 4, maxWidth (s.rf .trlPlink [p] 47 46) < width.toNat ∨ s.rf .trlPlink [p] 41 41 = 1 →
      exec (.trellisLinkUp port speed width) s = .next s) ∧
    (s.linkOn p = true → ∃ u, exec (.trellisLinkDown port) s = .next u ∧ u.linkOn p = false ∧ plink u 0 0) ∧
    (s.linkOn p = false → exec (.trellisLinkDown port) s = .next s) ∧
    (∃ u, exec (.withdraw port) s = .next u ∧ (u.port p).withdrawing = true) ∧
    (let off := fun (u : State) => (u.port p).withdrawing = false ∧ u.linkOn p = false ∧ plink u 0 0 ∧ u.rf .trlPlink [p] 41 41 = 1
     (s.port p).withdrawing = true → (s.port p).ending = false → ∃ u, exec (.withdrawWaitEnd port) s = .next u ∧
      (s.scn.role ≠ 1 → off u) ∧ (s.scn.role = 1 → (u.port p).ending = true ∨ off u))) ∧
  (∀ (p : Pid) (lidx : BitVec 20) (s : State) (x : Xch), s.xch? p.val lidx.toNat = some x →
    let w := s.pathWord x.pid x.dev x.path
    (x.state = 2 → s.scn.role ≠ 2 → bit w 63 = true → bit w 62 = false → fld w 59 56 < 12 → Map.wf regDefault s.regs = true →
      ∃ u, exec (.ackTimeout p lidx) s = .next u ∧ u.rf .trlPortst [fld w 59 56] 62 62 = 1) ∧
    (x.state ≠ 2 → exec (.ackTimeout p lidx) s = .next s) ∧
    (s.mute = false → x.window = true ∨ (x.state = 1 ∧ (x.outbound = false ∨ x.frame.isSome = true)) → x.aborting = false →
      (x.state = 1 → s.firstPath x = none) → (x.state ≠ 1 → s.usable x x.path = false) →
      ∃ u, exec (.redriveWindowExpiry p lidx) s = .next u ∧ u.xch? p.val lidx.toNat = none ∧
        ((∀ r, (s.admin p.val).running = some r → r.opc ≠ 0x14) → Kept.mk x.pid x.set x.q x.cls x.lidx ∈ u.trl.kept))) ∧
  (∀ s : State, s.scn.role < 2 ∨ 4 < s.scn.role → Map.wf Port.empty s.ports = true → ∃ u, exec .pathProbe s = .next u ∧ u.trl = s.trl ∧ u.mem = s.mem ∧ u.regs = s.regs ∧
    ∀ t ∈ s.vPaths, let w := s.pathWord t.1 t.2.1 t.2.2
      bit w 62 = true → s.canSend (fld w 59 56) = true →
      s.pathMsg 3 t.1 t.2.1 t.2.2 ∈ (u.port (fld w 59 56)).wire ++ (u.port (fld w 59 56)).outbox) ∧
  (∀ (port : PortId) (m : AdapterMsg) (s : State), s.linkOn port.val = true → s.scn.role ≠ 2 →
    let from_ := fun (t : Nat × Nat × Nat) => let w := s.pathWord t.1 t.2.1 t.2.2
      fld w 59 56 = port.val ∧ fld w 31 0 = m.adev.toNat ∧ t.2.2 = m.path.toNat
    (∀ hi ps, s.termWait = some (hi, ps) → ∃ rest, exec (.probersp port m) s =
      .next { s with termWait := some (max hi m.term.toNat, rest) } ∧ ∀ t, t ∈ rest ↔ t ∈ ps ∧ ¬ from_ t) ∧
    (s.termWait = none → m.status = 0 → m.term.toNat ≤ s.term → Map.wf MmioPort.reset s.mmio = true →
      (∃ t ∈ s.vPaths, from_ t ∧ bit (s.pathWord t.1 t.2.1 t.2.2) 62 = true) →
      ∃ u, exec (.probersp port m) s = .next u ∧ (u.mmioPort port.val).lost = false)) ∧
  (∀ (s : State) (hi : Nat) (ps : List (Nat × Nat × Nat)), s.termWait = some (hi, ps) → Map.wf regDefault s.regs = true →
    (max s.term hi + 1 ≤ 0xFFFF → ∃ u, exec .termProbeTimeout s = .next u ∧ u.termWait = none ∧ u.term = max s.term hi + 1) ∧
    (hi ≤ 0xFFFF → 0xFFFF < max s.term hi + 1 → ∃ u, exec .termProbeTimeout s = .next u ∧ u.term = s.term ∧ u.termSpent = true)) ∧
  (∀ (p : Pid) (sc : AbortScope) (s : State), ∃ u, exec (.abortTimeout p sc) s = .next u ∧
    ∀ x ∈ s.trl.xchs, s.scn.role ≠ 2 → inScope p.val sc x = true → x.aborting = true →
      u.xch? x.pid x.lidx = none ∧
        ((∀ r, (s.admin p.val).running = some r → r.opc ≠ 0x14) → Kept.mk x.pid x.set x.q x.cls x.lidx ∈ u.trl.kept)) ∧
  (∀ (p : Pid) (s : State) (r : PReset), s.presets.find? (fun x => x.pid == p.val) = some r → s.resetDrained r = true →
    s.trlOn = true → Map.wf zeroNat s.trl.gens = true → (∀ v ∈ s.trl.sets, v.pid = p.val → v.id ≠ 0) →
    ∃ u, exec (.trellisPartitionReset p) s = .next u ∧ (∀ q ∈ u.trl.sqs, q.pid = p.val → q.enabled = false) ∧
      (∀ v ∈ u.trl.sets, v.pid = p.val → v.enabled = false) ∧ (∀ y ∈ u.presets, y.pid ≠ p.val) ∧
      u.genOf p.val 0 = (s.genOf p.val 0 + 1) % 2 ^ 16 ∧
      ∀ x ∈ s.trl.xchs, x.pid = p.val → x.state = 1 → u.xch? p.val x.lidx = none) ∧
  (∀ (p : Pid) (s s2 s3 : State) (r : Refused) (l : List Byte) (c : Cq), s.trl.refused.filter (fun r => r.pid == p.val) = [r] →
    r.ledger = some l → s.scn.role ≠ 2 → (s.admin p.val).waiting = none →
    State.trlWrite { s with trl := { s.trl with refused := s.trl.refused.filter fun r => r.pid != p.val } } r.pid none
      (s.ledgerAt r.pid r.lidx) l = (true, s2) →
    s2.cq? r.pid r.set r.cq = some c → c.tail - c.head < 2 ^ c.k →
    s2.setWrite r.pid r.set none (c.base + 32 * (c.tail % 2 ^ c.k)) (withPhase 53 c.tail (2 ^ c.k) r.entry) = (true, s3) →
    ∃ u, exec (.ledgerWriteRetry p) s = .next u ∧ u.mem = s3.mem ∧ (∀ y ∈ u.trl.refused, y.pid ≠ p.val) ∧
      u.cq? r.pid r.set r.cq = some { c with tail := c.tail + 1, live := c.live ++ [⟨r.lidx, r.irq⟩] }) ∧
  (∀ s : State, Map.wf regDefault s.regs = true → s.trl.xchs = [] →
    ∃ u, exec .trellisEnable s = .next u ∧ u.trlOn = true ∧ (s.scn.running = false → u.trl = s.trl ∧ u.mem = s.mem))

/-- Adapter DMA (R283, R320, R326, R358). -/
def Obligations.AdapterAccesses : Prop :=
  (∀ (port : PortId) (rid : BitVec 16) (tag : Option (BitVec 24)) (addr : BitVec 48) (len : BitVec 13) (data : List Byte) (s : State),
    s.linkOn port.val = true → s.transmits = true → len ≠ 0 → len.toNat ≤ 4096 → data ≠ [] → data.length ≤ s.mps port.val → s.hubIdle = true →
    Map.wf Port.empty s.ports = true → Map.wf zeroNat s.dmaUse = true →
    let rd : DmaReq := ⟨port.val, rid.toNat, tag.map BitVec.toNat, addr.toNat, len.toNat, none⟩
    let wr : DmaReq := ⟨port.val, rid.toNat, tag.map BitVec.toNat, addr.toNat, data.length, some data⟩
    let answers := fun (u : State) (a : DmaAns) =>
      (a ∈ (u.port port.val).answers ∨ ∃ m ∈ (u.port port.val).outbox, m.ans = some a) ∧
      ((s.port port.val).outbox = [] → (u.port port.val).answers = (s.port port.val).answers ++ [a])
    let regs := fun (r : DmaReq) => ∃ a, (a = r.addr ∨ a = r.addr + r.len - 1) ∧ 0xFF0000000000 ≤ a ∧ a < 0xFF0100000000
    let acts := s.trlOn = true ∧ s.scn.role ≠ 2 ∧ s.itemWaits rd.item = false
    let refused := fun (r : DmaReq) => regs r ∨ s.trlOn = false ∨ acts ∧ (s.dmaXch r = none ∨ ∃ x, s.dmaXch r = some x ∧ x.grant r = none)
    (refused rd → ∃ u, exec (.adapterDmaRead port rid tag addr len) s = .next u ∧ answers u .refused ∧ u.mem = s.mem ∧ u.trl = s.trl) ∧
    (refused wr → ∃ u, exec (.adapterDmaWrite port rid tag addr data) s = .next u ∧ u.mem = s.mem ∧ u.trl = s.trl ∧
      (u.port port.val).answers = (s.port port.val).answers) ∧
    (∀ x, acts → ¬ regs rd → s.dmaXch rd = some x →
      (∀ g, x.grant rd = some g → s.dmaHolds x len.toNat = true →
        exec (.adapterDmaRead port rid tag addr len) s = .next { s with dmaHeld := s.dmaHeld ++ [rd] }) ∧
      (s.dmaHolds x len.toNat = false →
        (∀ i g bs bad s1, x.grant rd = some (.seg i) → x.segs[i]? = some g →
          (s.dmaCount x len.toNat).trlRead x.pid (some g.gen) addr.toNat len.toNat = (some (bs, bad), s1) →
          ∃ u, exec (.adapterDmaRead port rid tag addr len) s = .next u ∧ u.mem = s.mem ∧ answers u (if bad then .abort else .data bs) ∧
            (bad = false → bs = s.rd addr.toNat len.toNat ∧
              ∃ y, u.xch? x.pid x.lidx = some y ∧ y.segs[i]? = some { g with done := g.done + len.toNat })) ∧
        (∀ off f, x.grant rd = some (.frame off) → x.frame = some f → (s.dmaCount x len.toNat).framePoison x = false →
          ∃ u, exec (.adapterDmaRead port rid tag addr len) s = .next u ∧ answers u (.data ((f.drop off).take len.toNat)) ∧ u.mem = s.mem ∧
            ∃ y, u.xch? x.pid x.lidx = some y ∧ y.frameRead = x.frameRead + len.toNat))) ∧
    (∀ x, acts → ¬ regs wr → s.dmaXch wr = some x → s.dmaHolds x data.length = false →
      (∀ i g s1, x.grant wr = some (.seg i) → x.segs[i]? = some g →
        (s.dmaCount x data.length).setWrite x.pid x.set (some g.gen) addr.toNat data = (true, s1) →
        ∃ u, exec (.adapterDmaWrite port rid tag addr data) s = .next u ∧ u.mem = s1.mem ∧
          ∃ y, u.xch? x.pid x.lidx = some y ∧ y.segs[i]? = some { g with done := g.done + data.length }) ∧
      (∀ off, x.grant wr = some (.stage off) →
        ∃ u, exec (.adapterDmaWrite port rid tag addr data) s = .next u ∧
          u.mem = ((s.dmaCount x data.length).hubWrite addr.toNat data).mem ∧
          ∃ y, u.xch? x.pid x.lidx = some y ∧ y.done = x.done + data.length ∧ ∀ j b, data[j]? = some b → (off + j, b) ∈ y.staged))) ∧
  (∀ (p : Pid) (set : SetNo) (s : State), Map.wf zeroNat s.dmaUse = true → s.dmaHeld = [] →
    ∃ u, exec (.dmaCeilingInterval p set) s = .next u ∧ u.dmaUsed p.val set.val = 0 ∧ u.trl = s.trl ∧ u.mem = s.mem ∧
      ∀ k, k ≠ dlogKey p.val set.val → Map.get zeroNat u.dmaUse k = Map.get zeroNat s.dmaUse k) ∧
  (∀ (p : Pid) (set : SetNo) (s : State) (r : DmaReq) (rest : List DmaReq), s.dmaHeld = r :: rest →
    exec (.dmaCeilingInterval p set) s = .next (rest.foldl (fun s r => s.dmaAny r) (State.dmaAny
      { s with dmaUse := Map.set zeroNat s.dmaUse (dlogKey p.val set.val) 0, dmaHeld := [] } r)))

/-- Admin commands (R347 to R364). -/
def Obligations.AdminCommands : Prop :=
  ∀ (pid : Pid) (s s1 : State) (c : AdminCmd), s.adminNext pid.val = some (c, s1) → Map.wf AdminQ.empty s.trl.admin = true →
    Map.wf zeroNat s.trl.gens = true →
    let p := pid.val
    let free := fun (u : State) => (u.admin p).running = none
    let same := fun (u : State) => u.trl.sqs = s.trl.sqs ∧ u.trl.cqs = s.trl.cqs ∧ u.trl.sets = s.trl.sets ∧ u.trl.dlogs = s.trl.dlogs
    let cq := s.cq? p c.set c.queue
    let sq := s.sq? p c.set c.queue
    let quotas := fun (v : VSet) => v.nsq = fld c.p0 63 57 ∧ v.ncq = fld c.p0 56 50 ∧ v.nsve = fld c.p0 49 46 ∧ v.ngnt = fld c.p0 45 34 ∧
      v.bw = fld c.p0 33 26 ∧ v.ledger = fld c.p1 20 0
    let shut := (s.trl.xchs.any fun x => x.pid == p && x.set == c.set) = false
    let stops := fun (i : Instr) (after : State → Prop) => c.ok = true → s.noVcs p c.set = false →
      (c.opc = 0x12 ∨ s1.inUse p c.set none = false) →
      ∃ u, exec i s = .next u ∧ u.genOf p c.set = (s.genOf p c.set + 1) % 2 ^ 16 ∧ after u
    let off := fun (u : State) => (∀ v ∈ u.trl.sets, v.id = c.set → v.enabled = false) ∧
      (∀ q ∈ u.trl.sqs, q.pid = p → q.set = c.set → q.enabled = false) ∧ ∀ q ∈ u.trl.cqs, q.pid = p → q.set = c.set → q.enabled = false
    (∀ e ∈ ([(.createSq pid, 2), (.enableQ pid, 3), (.disableQ pid, 4), (.deleteQ pid, 5), (.createVcs pid, 0x10), (.enableVcs pid, 0x11),
        (.disableVcs pid, 0x12), (.resetVcs pid, 0x13), (.removeVcs pid, 0x14), (.resizeVcs pid, 0x15), (.queryVcs pid, 0x16),
        (.dlogStart pid, 0x20), (.dlogSwap pid, 0x21), (.dlogStop pid, 0x22)] : List (Instr × Nat)),
      (c.opc ≠ e.2 → exec e.1 s = .next s) ∧
      (c.opc = e.2 → c.ok = false → ∃ u, exec e.1 s = .next u ∧ same u ∧ free u)) ∧
    (c.opc = 1 → ∀ r, createCq p c s1 = .ok r → ∃ u, exec (.createCq pid) s = .next u ∧ free u ∧ u.trl.sqs = s.trl.sqs ∧
      u.trl.cqs = s.trl.cqs ++ [⟨p, c.set, c.queue, c.p0.toNat, fld c.p1 12 8, fld c.p1 17 16, fld c.p1 3 0, false, 0, 0, [], []⟩]) ∧
    (c.opc = 1 → ∀ e, createCq p c s1 = .error e → ∃ u, exec (.createCq pid) s = .next u ∧ same u ∧ free u) ∧
    (c.opc = 2 → ∀ r, createSq p c s1 = .ok r → ∃ u, exec (.createSq pid) s = .next u ∧ free u ∧ u.trl.cqs = s.trl.cqs ∧
      u.trl.sqs = s.trl.sqs ++ [⟨p, c.set, c.queue, c.p0.toNat, fld c.p1 12 8, fld c.p1 17 16, fld c.p1 29 24, false, ⟨0, 0, [], 0⟩, 1, none⟩]) ∧
    (c.opc = 3 → c.ok = true → s.hasSet p c.set = true →
      (∀ x, c.cqf = true → cq = some x → ∃ u, exec (.enableQ pid) s = .next u ∧ free u ∧
        u.cq? p c.set c.queue = some { x with enabled := true }) ∧
      (∀ x, c.cqf = false → sq = some x → s.cqEnabled x = true → s.setOn p c.set = true → x.skipTo = none →
        ∃ u, exec (.enableQ pid) s = .next u ∧ free u ∧ u.sq? p c.set c.queue = some { x with enabled := true })) ∧
    (c.opc = 4 → c.ok = true → s.hasSet p c.set = true →
      (∀ x, c.cqf = true → cq = some x → (∀ q ∈ s.trl.sqs, q.pid = p → q.set = c.set → q.cq = c.queue → q.enabled = false) →
        ∃ u, exec (.disableQ pid) s = .next u ∧ free u ∧ u.cq? p c.set c.queue = some { x with enabled := false }) ∧
      (∀ x, c.cqf = false → sq = some x → c.set < 1025 → c.queue < 64 → (∀ y ∈ s.trl.xchs, y.pid = p → y.set = c.set → y.q ≠ c.queue) →
        ∃ u, exec (.disableQ pid) s = .next u ∧ free u ∧ u.sq? p c.set c.queue = some { x with enabled := false })) ∧
    (c.opc = 5 → ∀ r, deleteQ p c s1 = .ok r → ∃ u, exec (.deleteQ pid) s = .next u ∧ free u ∧
      (c.cqf = true → u.cq? p c.set c.queue = none ∧ u.trl.sqs = s.trl.sqs) ∧
      (c.cqf = false → u.sq? p c.set c.queue = none ∧ u.trl.cqs = s.trl.cqs)) ∧
    (c.opc = 0x10 → ∀ r, createVcs p c s1 = .ok r → ∃ u v n, exec (.createVcs pid) s = .next u ∧ free u ∧
      u.trl.sets = s.trl.sets ++ [v] ∧ v.pid = p ∧ v.id = n ∧ v.enabled = false ∧ quotas v ∧ v.root = c.p2 ∧ 1 ≤ n ∧ n ≤ 1024 ∧
      (∀ x ∈ s.trl.sets, x.id ≠ n) ∧ (∀ m, 1 ≤ m → m < n → ∃ x ∈ s.trl.sets, x.id = m) ∧
      u.genOf p n = (s.genOf p n + 1) % 2 ^ 16) ∧
    (c.ok = true → s.noVcs p c.set = false → ∀ v, s.vset? p c.set = some v →
      (c.opc = 0x11 → ∃ u, exec (.enableVcs pid) s = .next u ∧ free u ∧ u.vset? p c.set = some { v with enabled := true }) ∧
      (c.opc = 0x15 → ∀ r, resizeVcs p c s1 = .ok r → ∃ u v', exec (.resizeVcs pid) s = .next u ∧ free u ∧
        u.vset? p c.set = some v' ∧ quotas v' ∧ v'.enabled = v.enabled ∧ v'.root = v.root)) ∧
    (c.opc = 0x15 → ∀ e, resizeVcs p c s1 = .error e → ∃ u, exec (.resizeVcs pid) s = .next u ∧ same u ∧ free u) ∧
    (c.opc = 0x16 → ∃ u, exec (.queryVcs pid) s = .next u ∧ same u ∧ free u ∧ u.trl.gens = s.trl.gens) ∧
    (c.opc = 0x12 → stops (.disableVcs pid) fun u => off u) ∧
    (c.opc = 0x13 → shut → stops (.resetVcs pid) fun u => off u ∧ free u ∧
      (∀ q ∈ u.trl.sqs, q.pid = p → q.set = c.set → q.ring = ⟨0, 0, [], 0⟩ ∧ q.nextXsn = 1) ∧
      ((∀ q ∈ s.trl.sqs, q.pid = p → q.set = c.set → ∀ x ∈ q.ring.slots, x.st ≠ .ready) →
        ∀ q ∈ u.trl.cqs, q.pid = p → q.set = c.set → q.head = 0 ∧ q.tail = 0)) ∧
    (c.opc = 0x14 → shut → stops (.removeVcs pid) fun u => free u ∧ u.vset? p c.set = none ∧
      (∀ q ∈ u.trl.sqs, q.pid ≠ p ∨ q.set ≠ c.set) ∧ ∀ q ∈ u.trl.cqs, q.pid ≠ p ∨ q.set ≠ c.set) ∧
    (c.opc = 0x20 → ∀ r, dlogStart p c s1 = .ok r → ∃ u, exec (.dlogStart pid) s = .next u ∧ free u ∧
      u.dlog? p c.set = some ⟨c.p0.toNat, fld c.p1 28 0, c.p2.toNat, false⟩) ∧
    (c.opc = 0x21 → ∀ r d, dlogSwap p c s1 = .ok r → s.dlog? p c.set = some d → ∃ u, exec (.dlogSwap pid) s = .next u ∧ free u ∧
      u.dlog? p c.set = some { d with bitmap := c.p2.toNat, ovf := false }) ∧
    (c.opc = 0x22 → ∀ r, dlogStop p c s1 = .ok r → ∃ u, exec (.dlogStop pid) s = .next u ∧ free u ∧ u.dlog? p c.set = none)

/-- Roles, link and heartbeats (R365 to R375, R394). -/
def Obligations.PairingLink : Prop :=
  ∀ s : State,
    let x := s.scn
    let hello := fun (i : Instr) (a b : Bool) => ∃ u n, exec i s = .next u ∧ n.length = 32 ∧
      u.scn.mine = some ⟨s.pins.pairId, x.serial, n⟩ ∧ u.scn.sent = x.sent ++ [.hello s.pins.pairId x.serial n] ∧
      u.scn.authed = false ∧ u.scn.authRetry = false ∧ u.scn.grpA = a ∧ u.scn.grpB = b ∧ u.mem = s.mem
    (Map.wf regDefault s.regs = true → ∃ u, exec .scionEnable s = .next u ∧ u.scnOn = true ∧ u.scn.trainA = s.pairOn ∧
      u.scn.trainB = s.pairOn ∧ u.scn.role = x.role ∧ u.mem = s.mem) ∧
    (∀ pairId fence peer : Bool, x.role = 7 → x.confirming = false →
      ∃ u, exec (.startRule pairId fence peer) s = .next u ∧ u.mem = s.mem ∧ u.pins.fenceIn = fence ∧ u.pins.peerActive = peer ∧
        u.pins.pairId = pairId ∧
        (if s.pairOn = false then u.scn.role = 0 ∧ u.pins.pairActive = !fence
         else if pairId = true then u.scn.role = (if peer = true then 3 else 7) ∧ u.scn.confirming = false
         else if peer = true ∨ fence = true then u.scn.role = 3
         else u.scn.role = 7 ∧ u.scn.confirming = true ∧ u.pins.pairActive = true)) ∧
    (∀ fence peer : Bool, x.role = 7 → x.confirming = true →
      ∃ u, exec (.startRuleConfirm fence peer) s = .next u ∧ u.mem = s.mem ∧ u.scn.confirming = false ∧
        (if fence = true ∨ (peer = true ∧ s.pins.pairId = true) then u.scn.role = 3 ∧ u.pins.pairActive = false else u.scn.role = 0)) ∧
    (∀ fence : Bool, x.role = 7 → x.confirming = false → s.pairOn = true → s.pins.pairId = true → s.pins.peerActive = false →
      ∃ u, exec (.startTimeout fence) s = .next u ∧ u.mem = s.mem ∧
        (if fence = true then u.scn.role = 3 else u.scn.role = 7 ∧ u.scn.confirming = true ∧ u.pins.pairActive = true)) ∧
    (∀ high : Bool, (high = true → s.pins.fenceIn = false → x.role ≤ 2 → ∃ u, exec (.fenceIn high) s = .next u ∧ u.scn.role = 4 ∧
        u.egressIdle = true ∧ u.pins.pairActive = false ∧ u.pins.fenceIn = true ∧ u.mem = s.mem) ∧
      (high = false ∨ s.pins.fenceIn = true ∨ 2 < x.role → exec (.fenceIn high) s =
        .next { s with pins := { s.pins with fenceIn := high, pairActive := s.pins.pairActive && !high } })) ∧
    (∀ b : Bool, s.scnOn = true → s.pairOn = true →
      (s.islRuns 107 = true → (x.grpA = false → x.grpB = false → hello (.laneGroupUp b) (!b) b) ∧
        (x.grpA = true ∨ x.grpB = true → ∃ u, exec (.laneGroupUp b) s = .next u ∧ u.scn.grpA = (x.grpA || !b) ∧ u.scn.grpB = (x.grpB || b) ∧
          u.mem = s.mem)) ∧
      exec (.laneGroupRetrain b) s = .next { s with scn :=
        if b then { x with trainB := !x.grpB } else { x with trainA := !x.grpA } }) ∧
    (∀ b : Bool, (if b then x.grpB else x.grpA) = true → ∃ u, exec (.laneGroupDown b) s = .next u ∧
      u.scn.grpA = (x.grpA && b) ∧ u.scn.grpB = (x.grpB && !b) ∧ u.mem = s.mem ∧
      ((x.grpA && b) = false → (x.grpB && !b) = false → u.scn.authed = false ∧ u.scn.mine = none ∧ u.scn.peer = none)) ∧
    (∀ good nak : Bool, x.grpA = true ∨ x.grpB = true → ∃ u, exec (.linkControlUnit good nak) s = .next u ∧
      u.scn.resending = (!good || nak) ∧ u.scn.rxSeq = (if good then x.rxSeq + 1 else x.rxSeq) ∧ u.scn.nakOut = !good ∧ u.scn.resends = (if nak then min (x.resends + 1) 0xFFFF else x.resends) ∧ u.mem = s.mem) ∧
    (∀ (pairId : Bool) (serial : W64) (nonce mac : List Byte) (a : Hello), x.carries = true → x.mine = some a →
      (let h : Hello := ⟨pairId, serial.toNat, fit 32 nonce⟩
        ∃ u, exec (.hello pairId serial nonce) s = .next u ∧ u.scn.peer = some h ∧ u.scn.authed = false ∧ u.scn.authSent = true ∧
          u.scn.sent = x.sent ++ [.auth (hmac256 x.key (authMsg a h))] ∧ u.mem = s.mem) ∧
      (∀ b, x.peer = some b → x.authed = false → x.authRetry = false → ∃ u, exec (.scionAuth mac) s = .next u ∧ u.mem = s.mem ∧
        (if mac = hmac256 x.key (authMsg a b) then u.scn.authed = true ∧ u.scn.authRetry = false
          else u.scn.authed = false ∧ u.scn.authRetry = true))) ∧
    (x.authRetry = true → x.carries = true → (x.peer = none → hello .scionAuthRetry x.grpA x.grpB) ∧
      (∀ b, x.peer = some b → ∃ u h, exec .scionAuthRetry s = .next u ∧ u.scn.mine = some h ∧ h.pairId = s.pins.pairId ∧
        u.scn.sent = x.sent ++ [.hello h.pairId h.serial h.nonce, .auth (hmac256 x.key (authMsg h b))] ∧
        u.scn.authRetry = false ∧ u.scn.authed = false ∧ u.mem = s.mem)) ∧
    (s.pairOn = true → x.authed = true → exec .hbSend s = .next { s with scn := { x with
      hbMiss := min (x.hbMiss + 1) 15, sent := if x.carries then x.sent ++ [.hb x.role s.term (s.reg .scnEpoch).toNat] else x.sent } }) ∧
    (s.pairOn = true → x.authed = false → x.role = 1 ∨ x.role = 2 → exec .hbSend s = .next { s with scn := { x with
      hbMiss := min (x.hbMiss + 1) 15 } }) ∧
    (∀ (role : BitVec 3) (term : BitVec 16) (ep : W64), x.carries = true → x.authed = true →
      (s.term < term.toNat → role.toNat ≤ 1 → x.role ≤ 2 → ∃ u, exec (.hb role term ep) s = .next u ∧ u.scn.role = 4 ∧
        u.egressIdle = true ∧ u.pins.pairActive = false ∧ u.scn.hbMiss = 0 ∧ u.mem = s.mem) ∧
      (term.toNat ≤ s.term ∨ 1 < role.toNat ∨ 2 < x.role → exec (.hb role term ep) s = .next { s with scn := { x with
        hbMiss := 0, peerRole := role.toNat, peerTerm := term.toNat, peerEpoch := ep.toNat } }))

/-- Epochs and takeover (R376 to R396). -/
def Obligations.EpochsAndTakeover : Prop :=
  ∀ s : State,
    let x := s.scn
    let handing := x.switchOver.isSome = true ∨ ∃ e, x.joinSrc = some (.switching e)
    let lost := fun (i : Instr) => ∃ u, exec i s = .next u ∧ u.pins.fenceOut = true ∧ u.scn.takeover = some .declared ∧ u.mem = s.mem
    let plain := (∀ p, (s.mmioPort p).held = [] ∧ (s.port p).ending = false) ∧ ∀ h ∈ s.held, h.port < 16
    let solo := fun (i : Instr) => Map.wf regDefault s.regs = true → s.rf .fltRec [blkScion] 63 62 ≠ 3 → plain → x.waits = [] → ∃ u, exec i s = .next u ∧ u.scn.role = 0 ∧
      u.scn.running = false ∧ u.held = [] ∧ u.mem = s.mem
    (x.running = false ∨ handing → exec .epochTimer s = .next s) ∧
    (x.running = true → ¬ handing → x.closing = none → s.sparings = [] → (∀ c, (s.core c).attempts = 0) →
      Map.wf Thread.reset s.threads = true → ∃ u, exec .epochTimer s = .next u ∧ u.mem = s.mem ∧
      u.scn.epoch = x.epoch + 1 ∧ u.scn.frozen = x.logged ∧ u.scn.logged = [] ∧
      ∀ m, (u.thr m).cur = (s.thr m).cur ∧ (u.thr m).snap = (s.thr m).cur ∧ (u.thr m).hard = (s.thr m).cur) ∧
    (∀ e rest, x.frozen = e :: rest → x.wantClose = false → Map.wf L2Line.none s.l2 = true → (s.l2l e.core e.line).ps = true →
      (s.l2l e.core e.line).se = (x.epoch + 1) % 2 → ∃ u, exec .shipRequest s = .next u ∧ u.scn.frozen = rest ∧ u.mem = s.mem ∧
        (u.l2l e.core e.line).ps = false ∧ (u.l2l e.core e.line).st = (s.l2l e.core e.line).st ∧
        (x.carries = false ∨ x.authed = false → s.lineRec (x.epoch - 1) e.line ∈ u.scn.queue)) ∧
    (∀ ep : W64, x.authed = true → x.running = true → ep.toNat < x.epoch → Map.wf regDefault s.regs = true →
      (x.joinSrc = none → x.role = 1 → (∀ w, x.switchOver = some w → ep.toNat < w) → plain → s.held.Pairwise (fun a b => a.ep ≤ b.ep) →
        ∃ u, exec (.scionAck ep) s = .next u ∧ u.reg .scnEpoch = ep ∧ u.held = s.held.filter (fun h => decide (ep.toNat < h.ep)) ∧
          u.scn = x ∧ u.mem = s.mem) ∧
      (∀ w, x.joinSrc = none → x.role = 1 → x.switchOver = some w → w ≤ ep.toNat →
        ∃ u, exec (.scionAck ep) s = .next u ∧ u.reg .scnEpoch = ep ∧ u.scn.role = 4 ∧ u.scn.running = false ∧
          u.scn.sent = x.sent ++ [.fail 2] ∧ u.egressIdle = true ∧ u.pins.pairActive = false) ∧
      (x.joinSrc = some (.switching ep.toNat) → ∃ u, exec (.scionAck ep) s = .next u ∧ u.reg .scnEpoch = ep ∧ u.scn.role = 1 ∧
        u.scn.joinSrc = none)) ∧
    (∀ ep : W64, x.authed = false ∨ x.running = false ∨ x.epoch ≤ ep.toNat → exec (.scionAck ep) s = .next s) ∧
    (∀ peer : Bool, x.role = 2 → x.takeover = none → 15 ≤ x.hbMiss ∨ (x.grpA = false ∧ x.grpB = false ∧ peer = false) → lost (.partnerLost peer)) ∧
    (∀ fence peer : Bool, x.role = 1 → 15 ≤ x.hbMiss →
      (peer = true ∨ fence = true → ∃ u, exec (.activePartnerLost fence peer) s = .next u ∧ u.scn.role = 4 ∧ u.egressIdle = true ∧
        u.pins.pairActive = false) ∧
      (peer = false → fence = false → solo (.activePartnerLost fence peer))) ∧
    (∀ reason : BitVec 8, x.authed = true → x.carries = true →
      (x.role = 2 → x.takeover = none → lost (.fail reason)) ∧ (x.role = 1 → solo (.fail reason)) ∧
      (x.role = 3 → x.joining = true → ∃ u, exec (.fail reason) s = .next u ∧ u.scn.joining = false ∧ u.mem = s.mem)) ∧
    (x.role = 1 → x.switchOver = none → (∀ c, (s.core c).attempts = 0) → ∃ u, exec .switchOver s = .next u ∧ u.scn.switchOver = some x.epoch ∧
      u.mem = s.mem ∧ (x.running = true → x.closing = none → u.scn.epoch = x.epoch + 1)) ∧
    (x.role = 1 → x.switchOver.isSome = true → ∃ u, exec .switchOverTimeout s = .next u ∧ u.scn.switchOver = none ∧ u.mem = s.mem) ∧
    (∀ peer : Bool, x.role = 2 → x.takeover = some .declared → s.pins.fenceIn = true → ∃ u, exec (.undoLogApplied peer) s = .next u ∧
      u.scn.role = 4 ∧ u.egressIdle = true ∧ u.mem = s.mem) ∧
    (∀ peer : Bool, x.role = 2 → x.takeover = some .declared → s.pins.fenceIn = false → ∃ u, exec (.undoLogApplied peer) s = .next u ∧ u.scn.takeover = none ∧
      u.scn.running = false ∧ u.scn.undo = [] ∧ u.scn.comm = [] ∧ u.scn.bankC = [] ∧ u.replay = [] ∧
      (peer = false → x.undo = [] → x.comm = [] → s.replay = [] → x.waits = [] → s.mirrorTrl.trl.xchs = [] → s.rf .gntKsbase [] 0 0 = 0 →
        Map.wf regDefault s.regs = true → max s.term x.peerTerm < 0xFFFF → s.rf .fltRec [blkScion] 63 62 ≠ 3 →
        u.scn.role = 0 ∧ u.term = max s.term x.peerTerm + 1))

/-- The mirror and joining (R384, R385, R397 to R399). -/
def Obligations.MirrorAndJoin : Prop :=
  ∀ s : State,
    let x := s.scn
    let pends := fun (i : Instr) (r : Rec) => ∃ u, exec i s = .next u ∧ u.scn.pend = x.pend ++ [r] ∧ u.mem = s.mem ∧
      u.scn.recvCount = x.recvCount + 1 ∧ u.scn.recvBytes = x.recvBytes + r.size
    let fenced := fun (i : Instr) => x.role = 2 → ∃ u, exec i s = .next u ∧ u.scn.role = 4 ∧ u.scn.sent = x.sent ++ [.fail 3] ∧ u.mem = s.mem
    (s.mirrors = true → ∀ ep : BitVec 8,
      (x.recvEp % 256 = ep.toNat ∨ (x.joining = true ∧ x.recvCount = 0 ∧ x.recvEp = 0) →
        (∀ (line : Line) (poison : Bool) (data : List Byte), Memory.wf s.mem = true → Map.wf noFlag s.poison = true → s.hubIdle = true →
          let l := line.toNat
          ∃ u, exec (.line ep line poison data) s = .next u ∧ u.poisoned l = poison ∧ u.rd (l * 256) 256 = fit 256 data ∧
            (∀ a, a / 256 ≠ l → u.rdByte a = s.rdByte a) ∧ u.scn.recvCount = x.recvCount + 1 ∧ u.scn.recvBytes = x.recvBytes + 264 ∧
            u.scn.undo = if x.role = 2 then x.undo ++ [⟨l, s.poisoned l, s.rd (l * 256) 256⟩] else x.undo) ∧
        (∀ (thr : BitVec 7) (es : List (BitVec 10 × W64)), ∃ u, exec (.regd ep thr es) s = .next u ∧ u.mem = s.mem ∧
          u.scn.bankP = (es.map fun e => (e.1.toNat, e.2)).foldl (fun b e => Map.put b (thr.toNat * 1024 + e.1) e.2) x.bankP ∧
          u.scn.bankC = x.bankC) ∧
        (∀ (addr : BitVec 48) (value : W64), pends (.cfgw ep addr value) (.cfgw ep.toNat addr.toNat value)) ∧
        (∀ (handle : BitVec 21) (stream : BitVec 32) (abort : Bool) (path : BitVec 3) (xsn : W64),
          pends (.out ep handle stream abort path xsn) (.out ep.toNat handle.toNat stream.toNat abort path.toNat xsn.toNat)) ∧
        (∀ (addr : BitVec 48) (data : List Byte) (pid : BitVec 6) (thr : BitVec 7),
          pends (.mmio ep addr data pid thr) (.mmio ep.toNat addr.toNat data pid.toNat thr.toNat)) ∧
        (∀ (port : BitVec 4) (count : W64), pends (.mmiop ep port count) (.mmiop ep.toNat port.toNat count.toNat))) ∧
      (x.recvEp % 256 ≠ ep.toNat → x.joining = false → (∀ (line : Line) (poison : Bool) (data : List Byte), fenced (.line ep line poison data)) ∧
        ∀ (addr : BitVec 48) (value : W64), fenced (.cfgw ep addr value)) ∧
      (∀ (frame b : List Byte), unframe 0x4000 frame = .ok b →
        (∀ rs, recsOf (b.length + 1) b = some rs → (∀ r ∈ rs, r.ep = some ep.toNat) →
          exec (.comp ep frame) s = .next (rs.foldl State.applyRec s)) ∧
        (recsOf (b.length + 1) b = none → fenced (.comp ep frame))) ∧
      (∀ (frame : List Byte) (e : Nat), unframe 0x4000 frame = .error e → fenced (.comp ep frame)) ∧
      (∀ (page : BitVec 36) (data : List Byte), x.role = 3 → page.toNat * 4096 < s.dram → Memory.wf s.mem = true → s.hubIdle = true →
        ∃ u, exec (.img page data) s = .next u ∧ u.rd (page.toNat * 4096) 4096 = fit 4096 data ∧ u.scn.imgNext = page.toNat + 1 ∧
          ∀ a, a / 4096 ≠ page.toNat → u.rdByte a = s.rdByte a)) ∧
    (s.mirrors = true → Map.wf regDefault s.regs = true → ∀ (ep : W64) (count : BitVec 48) (bytes : W64),
      let matches_ := (x.recvEp % 256 = ep.toNat % 256 ∨ (x.joining = true ∧ x.recvCount = 0 ∧ x.recvEp = 0)) ∧ x.recvCount = count.toNat ∧ x.recvBytes = bytes.toNat
      let commits := fun (i : Instr) (more : State → Prop) => ∃ u, exec i s = .next u ∧ u.scn.pend = [] ∧ u.scn.undo = [] ∧ u.scn.bankC = x.bankP ∧
        u.scn.recvEp = ep.toNat + 1 ∧ Rec.ack ep.toNat ∈ u.scn.sent ∧ u.reg .scnEpoch = ep ∧ u.mem = s.mem ∧ more u
      (matches_ → commits (.scionClose ep count bytes) (fun _ => True) ∧ (x.joining = true → commits (.switch ep count bytes) fun u =>
        u.scn.role = 2 ∧ u.scn.joining = false ∧ (x.peerTerm < 2 ^ 16 → u.term = x.peerTerm))) ∧
      (¬ matches_ → fenced (.scionClose ep count bytes))) ∧
    (∀ p : JoinPeer, x.linkUp = true → x.authed = true →
      let ver := s.reg .rstCsver
      let passes := p.dram.toNat = s.dram ∧ p.ways.toNat = s.ways ∧ p.priv.toNat = s.rf .scnPriv [] 47 30 ∧ p.romid.toNat = fld ver 63 48 ∧
        p.lcores.toNat ≤ s.serviceCores.length ∧ (∀ k, k < 12 → p.ports.getLsbD k = true → s.linkOn k = true) ∧
        p.patched = bit ver 0 ∧ p.pver.toNat = fld ver 47 32 ∧ p.key = bit ver 8 ∧
        (p.patched = true → p.csaddr.toNat = s.rf .rstCsaddr [] 47 16) ∧ x.peerRole = 0
      (x.role = 3 → x.joining = false → Map.wf Thread.reset s.threads = true →
        (passes → ∃ u, exec (.join false p) s = .next u ∧ u.scn.joining = true ∧ u.l2 = [] ∧ u.mem = s.mem ∧
          ∀ m, m < 112 → (u.thr m).run = .held) ∧
        (¬ passes → Map.wf regDefault s.regs = true → s.rf .fltRec [blkScion] 63 62 ≠ 3 → ∃ u, exec (.join false p) s = .next u ∧
          u.scn.joining = false ∧ Rec.fail 4 ∈ u.scn.sent ∧ u.threads = s.threads ∧ u.l2 = s.l2)) ∧
      (x.role = 0 → x.joinSrc = none → ∃ u, exec (.join true p) s = .next u ∧ u.scn.joinSrc = some .writeback ∧ u.scn.running = true ∧
        u.rcm = s.rcm + 1 ∧ u.mem = s.mem)) ∧
    (x.joinSrc = some .writeback → ∃ u, exec .joinWritebackEnd s = .next u ∧ u.scn.joinSrc = some (.image 0) ∧ u.rcm = s.rcm - 1 ∧
      u.mem = s.mem ∧ ∀ c line, (u.l2l c line).st ≠ .m ∧ (u.l2l c line).st ≠ .o) ∧
    (∀ k, x.joinSrc = some (.image k) →
      (k * 4096 + 4096 ≤ s.dram → ∃ u, exec .imgSend s = .next u ∧ u.scn.joinSrc = some (.image (k + 1)) ∧ u.mem = s.mem ∧
        (s.inPriv (k * 4096) = false →
          Rec.img x.epoch k (s.homeRd (k * 4096) 4096) ∈ u.scn.queue ++ u.scn.ship.flatMap ShipRun.recs ++ u.scn.sent) ∧
        (s.inPriv (k * 4096) = true → u.scn.queue = x.queue ∧ u.scn.sent = x.sent)) ∧
      (s.dram / 4096 ≤ k → x.joining = false → x.running = true → s.stalled = false → x.closing = none → (∀ c, (s.core c).attempts = 0) →
        ∃ u, exec .joinImageComplete s = .next u ∧ u.scn.joinSrc = some (.switching x.epoch) ∧ u.scn.epoch = x.epoch + 1 ∧ u.mem = s.mem)) ∧
    (x.joining = true → s.patch.granules ≠ 0 → sha384 ((s.rd s.patch.base 205024).take (patchS (s.rd s.patch.base 205024))) ≠ s.patch.digest →
      ∃ u, exec .joinImageComplete s = .next u ∧ u.scn.joining = false ∧ Rec.fail 4 ∈ u.scn.sent ∧ u.mem = s.mem) ∧
    (x.linkUp = false → x.joining = true ∨ x.joinSrc.isSome = true → ∃ u, exec .joinEnd s = .next u ∧ u.scn.joining = false ∧
      u.scn.joinSrc = none ∧ u.mem = s.mem) ∧
    (x.linkUp = true → exec .joinEnd s = .next s)

/-- Sieve's jobs and the engines' contexts (R406 to R428). -/
def Obligations.SieveJobs : Prop :=
  (∀ (e : Engine) (p : Pid) (c : Fin 15) (set : BitVec 11) (level : BitVec 4) (s : State), Map.wf regDefault s.regs = true →
    Map.wf JobCtx.empty s.trl.ctxs = true → ctxOk (engineNo e) c.val = true →
    let n := engineNo e
    let err := s.bindErr n p.val c.val set.toNat
    ((s.ctx n p.val c.val).state ≠ 1 → ∃ u, exec (.bindEnable e p c set level) s = .next u ∧
      u.rf (bindReg n) [p.val, c.val] 63 63 = 1 ∧ u.rf (bindReg n) [p.val, c.val] 60 56 = err ∧ u.ctxSet n p.val c.val = set.toNat ∧
      (err = 0 → u.ctx n p.val c.val = ⟨1, ⟨0, 0, [], 0⟩, 0, 0, [], [], none, none⟩) ∧
      ((s.ctx n p.val c.val).ring.front = none → u.mem = s.mem ∧ (err ≠ 0 → u.ctx n p.val c.val = s.ctx n p.val c.val))) ∧
    ((s.ctx n p.val c.val).state = 1 → ∃ u, exec (.bindEnable e p c set level) s = .next u ∧ u.mem = s.mem ∧ u.trl = s.trl ∧
      u.ctxSet n p.val c.val = set.toNat) ∧
    ((s.ctx n p.val c.val).state = 1 → ∃ u, exec (.bindDisable e p c) s = .next u ∧ u.rf (bindReg n) [p.val, c.val] 63 63 = 0 ∧
      (u.ctx n p.val c.val).state ≠ 1 ∧ ((s.ctx n p.val c.val).job = none →
        (u.ctx n p.val c.val).state = 0 ∧ (u.ctx n p.val c.val).chain = none))) ∧
  (∀ (p : Pid) (c : Fin 15) (s s1 : State) (slot : Nat) (b : List Byte), s.jobNext 0 p.val c.val = some (slot, .ok b, s1) →
    Map.wf JobCtx.empty s.trl.ctxs = true →
    let op := fld (dwordAt b 0) 55 52
    let r := s1.jobTake 0 p.val c.val slot (.ok b) sieveShape
    let j := r.2.1
    let s2 := r.2.2
    let begins := fun (i : Instr) (j' : Job) => ∃ u, exec i s = .next u ∧ (u.ctx 0 p.val c.val).job = some j'
    let ends := fun (i : Instr) => ∃ u, exec i s = .next u ∧ (u.ctx 0 p.val c.val).job = none ∧
      ((s.ctx 0 p.val c.val).state = 1 → (u.ctx 0 p.val c.val).cqTail = (s.ctx 0 p.val c.val).cqTail + 1)
    let good := r.1 = 0 ∧ j.ins ≠ [] ∧ j.outs ≠ []
    (op = 1 → (good → begins (.compress p c) { j with total := ceilDiv (lens j.ins) j.blk }) ∧ (¬ good → ends (.compress p c))) ∧
    (op = 2 → (¬ good → ends (.decompress p c)) ∧ (good →
      (∀ h is bs s3, s2.readFrame p.val j = (.ok (h, is, bs), s3) → begins (.decompress p c) { j with frame := bs, total := h.nblk }) ∧
      (∀ st s3, s2.readFrame p.val j = (.error st, s3) → ends (.decompress p c)))) ∧
    (op = 3 → (¬ good → ends (.decompressARange p c)) ∧ (good →
      (∀ h is bs s3, s2.readFrame p.val j = (.ok (h, is, bs), s3) →
        (j.rstart + j.rlen ≤ h.rawLen → begins (.decompressARange p c) { j with
          frame := bs, first := j.rstart / h.blk, next := j.rstart / h.blk, total := (j.rstart + j.rlen - 1) / h.blk + 1 }) ∧
        (h.rawLen < j.rstart + j.rlen → ends (.decompressARange p c))) ∧
      (∀ st s3, s2.readFrame p.val j = (.error st, s3) → ends (.decompressARange p c)))) ∧
    (op = 2 ∨ op = 3 → exec (.compress p c) s = .next s) ∧ (op ≠ 2 → exec (.decompress p c) s = .next s) ∧
    (op ≠ 3 → exec (.decompressARange p c) s = .next s)) ∧
  (∀ (comp : Bool) (s : State), Map.wf JobCtx.empty s.trl.ctxs = true → s.scn.role ≠ 2 → s.islRuns 105 = true → s.lanesBusy comp < 16 →
    (s.idleAsked 105 = true → exec (.sieveBlockStart comp) s = .next s) ∧ (s.idleAsked 105 = false →
    let turn := if comp then s.sve.comp else s.sve.dec
    let inline := s.trl.xchs.filter (s.xchBlockWaits comp)
    let jobs := s.jobBlocks comp
    let scion := comp = true ∧ ∃ r ∈ s.scn.ship, r.st = .waiting
    (¬ scion → inline = [] → jobs = [] → exec (.sieveBlockStart comp) s = .next s) ∧
    (scion → turn.since < 3 ∨ jobs = [] → ∃ u, exec (.sieveBlockStart comp) s = .next u ∧ u.mem = s.mem ∧ u.trl = s.trl ∧
      u.scn = { s.scn with ship := shipTake s.scn.ship }) ∧
    (∀ x, x.cls ≤ 3 → inline.find? (fun y => y.cls == 0) = some x ∨ (∀ y ∈ inline, y.cls ≠ 0) ∧ inline.head? = some x →
      ¬ scion → turn.since < 3 ∨ jobs = [] → s.xch? x.pid x.lidx = some x → ∃ u, exec (.sieveBlockStart comp) s = .next u ∧ u.mem = s.mem ∧
        u.xch? x.pid x.lidx = some { x with inLanes := x.inLanes ++ [x.blocksTaken], blocksTaken := x.blocksTaken + 1 } ∧
        u.trl.ctxs = s.trl.ctxs) ∧
    (∀ k p c n j, jobs.find? (fun e => decide (turn.last < e.1)) = some (k, .job p c n) ∨
        (∀ e ∈ jobs, e.1 ≤ turn.last) ∧ jobs.head? = some (k, .job p c n) →
      (¬ scion ∧ inline = []) ∨ 3 ≤ turn.since → (s.ctx 0 p c).job = some j →
      let takes := fun (j' : Job) => ∃ u, exec (.sieveBlockStart comp) s = .next u ∧ u.mem = s.mem ∧ (u.ctx 0 p c).job = some j' ∧
        (if comp then u.sve.comp else u.sve.dec) = ⟨k, 0⟩ ∧ u.trl.xchs = s.trl.xchs
      (j.op = 1 ∨ j.before j.next + j.hdr.rawOf j.next ≤ j.limit → takes { j with busy := j.busy ++ [j.next], next := j.next + 1 }) ∧
      (j.op ≠ 1 → j.limit < j.before j.next + j.hdr.rawOf j.next → j.busy ≠ [] ∨ j.ready ≠ [] → takes { j with fail := some (0x15, j.next) })))) ∧
  (∀ (p : Pid) (lidx : BitVec 20) (k : BitVec 20) (glitches : Fin 3) (s : State) (x : Xch), s.xch? p.val lidx.toNat = some x →
    (k.toNat ∈ x.inLanes → ∃ u, exec (.sieveBlockComplete (.exchange p lidx) k glitches) s = .next u ∧ u.mem = s.mem ∧
      u.xch? p.val lidx.toNat = some { x with
        inLanes := x.inLanes.filter fun i => i != k.toNat
        spoiled := if x.cmpl.isNone && glitches.val == 2 then k.toNat :: x.spoiled else x.spoiled }) ∧
    (k.toNat ∉ x.inLanes → exec (.sieveBlockComplete (.exchange p lidx) k glitches) s = .next s)) ∧
  (∀ (k : BitVec 20) (glitches : Fin 3) (s : State) (r : ShipRun), s.scn.ship[k.toNat]? = some r → r.st = .lane → s.scn.carries = false →
    ∃ u, exec (.sieveBlockComplete .scion k glitches) s = .next u ∧ u.mem = s.mem ∧ ∀ i, u.scn.ship[i]? =
      if i = k.toNat then some ⟨(shipRun glitches.val r.recs).1, .ready⟩ else s.scn.ship[i]?) ∧
  (∀ (p : Pid) (c : Fin 15) (s : State) (j : Job), (s.ctx 0 p.val c.val).job = some j → Map.wf JobCtx.empty s.trl.ctxs = true →
    s.stalled = false →
    let now := fun (u : State) => (u.ctx 0 p.val c.val).job
    (∀ (k : BitVec 20) (glitches : Fin 3), k.toNat ∈ j.busy → j.fail = none →
      let r := s.sieveBlock p.val j k.toNat glitches.val
      let b := r.1
      let off := if j.op = 1 then j.frameAt else j.wrote
      (k.toNat ≠ j.first + j.blocks → (∀ x ∈ j.ready, x.k ≠ j.first + j.blocks) →
        ∃ u, exec (.sieveBlockComplete (.job p c) k glitches) s = .next u ∧ (s.hubIdle = true → u.mem = s.mem) ∧
          now u = some { j with busy := j.busy.filter (· != k.toNat), ready := j.ready ++ [b] }) ∧
      (k.toNat = j.first + j.blocks → j.ready = [] → b.status = 0 → off + b.out.length ≤ j.limit → r.2.blockRefused p.val j k.toNat = none →
        ∀ s3, r.2.jobOut p.val j off b.out = (true, s3) →
          (k.toNat + 1 < j.total → ∃ u j', exec (.sieveBlockComplete (.job p c) k glitches) s = .next u ∧ u.mem = s3.mem ∧ now u = some j' ∧
            j'.blocks = j.blocks + 1 ∧ j'.wrote = j.wrote + b.out.length ∧ j'.index = j.index ++ [(b.raw, b.clen, b.crc)] ∧ j'.ready = []) ∧
          (j.total ≤ k.toNat + 1 → ∃ u, exec (.sieveBlockComplete (.job p c) k glitches) s = .next u ∧ now u = none)) ∧
      (k.toNat = j.first + j.blocks → j.ready = [] → b.status ≠ 0 → ∃ u, exec (.sieveBlockComplete (.job p c) k glitches) s = .next u ∧ now u = none)))

/-- Garnet's jobs and keys (R432 to R449). -/
def Obligations.GarnetJobs : Prop :=
  (∀ (p : Pid) (c : Fin 8) (s s1 : State) (slot : Nat) (b : List Byte), s.jobNext 1 p.val c.val = some (slot, .ok b, s1) →
    Map.wf JobCtx.empty s.trl.ctxs = true → (s.ctx 1 p.val c.val).chain = none →
    let g := fld (dwordAt b 0) 55 48
    let r := s1.jobTake 1 p.val c.val slot (.ok b) garnetShape
    let j := r.2.1
    let s2 := r.2.2
    let set := s.ctxSet 1 p.val c.val
    let len := lens j.ins
    let ends := fun (i : Instr) => ∃ u, exec i s = .next u ∧ (u.ctx 1 p.val c.val).job = none ∧
      (u.ctx 1 p.val c.val).cqTail = (s.ctx 1 p.val c.val).cqTail + 1
    r.1 = 0 → j.chain = 0 → (gopHasOut g = true → j.outs ≠ []) → j.ins.length ≤ 15 →
    (∀ e ∈ ([(.aesCbcEncrypt p c, 0x10), (.aesCbcDecrypt p c, 0x11), (.aesCtrEncrypt p c, 0x20), (.aesCtrDecrypt p c, 0x21),
        (.aesGcmEncrypt p c, 0x30), (.aesGcmDecrypt p c, 0x31), (.aesXtsEncrypt p c, 0x40), (.aesXtsDecrypt p c, 0x41),
        (.sha p c, 0x60), (.sha p c, 0x61), (.sha p c, 0x62), (.sha p c, 0x63), (.sha p c, 0x64), (.hmacGenerate p c, 0x70),
        (.hmacGenerate p c, 0x71), (.hmacGenerate p c, 0x72), (.hmacVerify p c, 0x78), (.hmacVerify p c, 0x79),
        (.hmacVerify p c, 0x7A)] : List (Instr × Nat)), g = e.2 →
      let aad := if g = 0x30 ∨ g = 0x31 then fld (dwordAt b 0x18) 63 32 else 0
      let pre := aad + (if g = 0x11 then 16 else if g = 0x21 ∨ g = 0x31 then 12 else 0)
      let post := if g = 0x31 then 16 else 0
      let n := len - pre - post
      let allowed := gopKeyed g = true → s2.keyStatus p.val set j.keyslot g false false = 0
      (¬ allowed → ends e.1) ∧
      (allowed → len < pre + post ∨ lenBad j 0 n = true → ends e.1) ∧
      (allowed → pre + post ≤ len → lenBad j 0 n = false → ∀ hd s3, s2.jobIn p.val j 0 pre = (.ok hd, s3) →
        let key := if gopKeyed g then (s2.slot j.keyslot).key else []
        let begins := fun (iv : List Byte) => ∃ u j', exec e.1 s = .next u ∧ (u.ctx 1 p.val c.val).job = some j' ∧ j'.op = g ∧
          j'.key = key ∧ (gopKeyed g = true → g < 0x40 → j'.iv = iv) ∧ j'.aad = hd.take aad ∧ j'.first = pre ∧ j'.segs = j.segs ∧
          j'.taken = 0 ∧ j'.wrote = 0
        (g ∉ [0x10, 0x11, 0x20, 0x30] → gopLen g n 0 true ≤ j.limit → begins (hd.drop aad)) ∧
        (∀ pd s4, g = 0x11 → s3.cbcPad p.val j key hd [] n = (.ok pd, s4) → gopLen g n pd true ≤ j.limit → begins hd) ∧
        (∀ iv s4, g ∈ [0x10, 0x20, 0x30] → gopLen g n 0 true ≤ j.limit → s3.drawIv j.keyslot = (some iv, s4) → begins iv) ∧
        (g ≠ 0x11 → j.limit < gopLen g n 0 true → ends e.1))) ∧
    (g = 0x80 → s.ecdsaBusy = false → (192 ≤ len → len ≤ 2 ^ 36 + 192 → ∃ u, exec (.ecdsaP384Verify p c) s = .next u ∧
        (u.ctx 1 p.val c.val).job = some j) ∧ (len < 192 → ends (.ecdsaP384Verify p c))) ∧
    (s.ecdsaBusy = true → exec (.ecdsaP384Verify p c) s = .next s) ∧
    (s2.slotReach p.val set j.keyslot = false → (g = 0x50 → ends (.keyExport p c)) ∧ (g = 0x51 → ends (.keyImport p c)) ∧
      (g = 0x52 → ends (.keyGenerate p c)) ∧ (g = 0x53 → ends (.keyZero p c)) ∧ (g = 0x54 → ends (.keyQuery p c))) ∧
    (s2.slotReach p.val set j.keyslot = true → Map.wf KeySlot.empty s.gnt.slots = true →
      let k := s2.slot j.keyslot
      let writes := fun (i : Instr) (out : List Byte) => out.length ≤ j.limit → ∀ s3, s2.jobOut p.val j 0 out = (true, s3) →
        exec i s = .next (s3.gntDone p.val c.val { j with wrote := out.length })
      let fills := fun (i : Instr) (attr : W64) (len : Nat) => s2.slotRoom p.val set = true → s2.gnt.inst < 2 ^ 31 →
        ∃ u k', exec i s = .next u ∧ u.slot j.keyslot = k' ∧ k'.st = 1 ∧ k'.attr = attr ∧ k'.set = set ∧ k'.inst = s2.gnt.inst ∧
          k'.counter = 0 ∧ k'.key.length = len ∧ u.gnt.inst = s2.gnt.inst + 1
      (g = 0x50 → k.st ≠ 0 → bit k.attr 52 = true → s2.kekStatus p.val set j.wslot = 0 →
        exec (.keyExport p c) s = .next (s2.putJob 1 p.val c.val
          { j with key := (s2.slot j.wslot).key, msg := dwords [k.attr, 0] ++ k.key })) ∧
      (g = 0x54 → writes (.keyQuery p c)
        (dwords [k.attr, pack [(63, 62, k.st), (31, 31, k.pairId.toNat), (30, 0, k.inst)], BitVec.ofNat 64 k.counter])) ∧
      (g = 0x52 → k.st = 0 → attrOk j.tweak = true → fills (.keyGenerate p c) j.tweak (keyLen j.tweak)) ∧
      (g = 0x51 → k.st = 0 → s2.kekStatus p.val set j.wslot = 0 → len % 8 = 0 → 32 ≤ len → len ≤ 152 →
        exec (.keyImport p c) s = .next (s2.putJob 1 p.val c.val { j with key := (s2.slot j.wslot).key })) ∧
      (g = 0x53 → ∃ u, exec (.keyZero p c) s = .next u ∧ u.slot j.keyslot = KeySlot.empty 0))) ∧
  (∀ (lane : Fin 16) (agree : Bool) (s : State), lane.val ∉ s.gnt.outLanes → s.scn.role ≠ 2 → s.stalled = false → s.islRuns 106 = true → s.idleAsked 106 = false →
    let turn := s.gnt.turn
    let inline := s.trl.xchs.filter s.xchUnitWaits
    let jobs := s.jobUnits
    let idle := ∀ w ∈ s.gnt.units, w.1 ≠ lane.val
    let takes := fun (w : Work) (t : Turn) => exec (.garnetUnitComplete lane agree) s =
      .next { s with gnt := { s.gnt with units := s.gnt.units ++ [(lane.val, w)], turn := t } }
    (idle → inline = [] → jobs = [] → exec (.garnetUnitComplete lane agree) s = .next s) ∧
    (∀ x, idle → x.cls ≤ 3 → (∀ y ∈ inline, x.cls ≤ y.cls) → inline.find? (fun y => y.cls == x.cls) = some x →
      turn.since < 3 ∨ jobs = [] → ∃ u, exec (.garnetUnitComplete lane agree) s = .next u ∧ u.mem = s.mem ∧ u.regs = s.regs ∧
        u.gnt = { s.gnt with
          units := s.gnt.units ++ [(lane.val, .xch x.pid x.lidx x.xsn)], turn := { turn with since := min 3 (turn.since + 1) } } ∧ (x.cmpl = none ∨ x.unitsDone ≠ 0 → s.xch? x.pid x.lidx = some x → u.trl = s.trl) ∧
        (x.cmpl ≠ none → x.unitsDone = 0 → x.inKey = none → s.xch? x.pid x.lidx = some x →
          s.keyStatus x.pid x.set x.keyslot (x.gop + 1) true false = 0 →
          u.xch? x.pid x.lidx = some { x with inKey := some (s.slot x.keyslot).key })) ∧
    (∀ k w, idle → jobs.find? (fun e => decide (turn.last < e.1)) = some (k, w) ∨
        (∀ e ∈ jobs, e.1 ≤ turn.last) ∧ jobs.head? = some (k, w) → inline = [] ∨ 3 ≤ turn.since → takes w ⟨k, 0⟩) ∧
    (∀ x, s.gnt.units.find? (fun w => w.1 == lane.val) = some (lane.val, .xch x.pid x.lidx x.xsn) → s.xch? x.pid x.lidx = some x →
      (agree = true → ∃ u, exec (.garnetUnitComplete lane agree) s = .next u ∧ u.mem = s.mem ∧
        u.xch? x.pid x.lidx = some { x with unitsDone := x.unitsDone + 1 }) ∧
      (agree = false → ∃ u, exec (.garnetUnitComplete lane agree) s = .next u ∧ u.xch? x.pid x.lidx = none))) ∧
  (∀ (lane : Fin 16) (p : Pid) (c : Fin 8) (agree : Bool) (s s1 : State) (j : Job) (bs : List Byte),
    (s.ctx 1 p.val c.val).job = some j → Map.wf JobCtx.empty s.trl.ctxs = true →
    let len := lens j.ins
    let n := min 4096 (len - j.taken)
    let now := fun (u : State) => (u.ctx 1 p.val c.val).job
    let s0 : State := { s with gnt := { s.gnt with units := s.gnt.units.filter fun w => w.1 != lane.val } }
    let runs := lane.val ∉ s.gnt.outLanes ∧ s.scn.role ≠ 2 ∧ s.stalled = false ∧ s.islRuns 106 = true ∧
      s.gnt.units.find? (fun w => w.1 == lane.val) = some (lane.val, .job p.val c.val j.slot)
    (runs → j.op = 0x50 ∨ j.op = 0x51 → agree = false → ∃ u, exec (.garnetUnitComplete lane agree) s = .next u ∧ now u = none) ∧
    (runs → j.op = 0x50 → agree = true → j.fail = none → (kwWrap j.key j.msg).length ≤ j.limit → ∀ s2,
      (s0.addRf .gntStat [] 31 0 1).jobOut p.val j 0 (kwWrap j.key j.msg) = (true, s2) →
      let u := s2.gntDone p.val c.val { j with wrote := (kwWrap j.key j.msg).length }
      exec (.garnetUnitComplete lane agree) s = .next (if u.gnt.outLanes.contains lane.val || u.idleAsked 106 then u else u.unitTake lane.val)) ∧
    (runs → j.op = 0x51 → agree = true → j.fail = none → Map.wf KeySlot.empty s.gnt.slots = true → ∀ wrapped s2 w,
      (s0.addRf .gntStat [] 31 0 1).jobIn p.val j 0 len = (.ok wrapped, s2) → kwUnwrap j.key wrapped = some w → attrOk (dwordAt w 0) = true →
      dwordAt w 8 = 0 → w.length = 16 + keyLen (dwordAt w 0) → s2.slotRoom p.val (s2.ctxSet 1 p.val c.val) = true → s2.gnt.inst < 2 ^ 31 →
      ∃ u k', exec (.garnetUnitComplete lane agree) s = .next u ∧ now u = none ∧ u.slot j.keyslot = k' ∧ k'.st = 1 ∧ k'.attr = dwordAt w 0 ∧
        k'.set = s2.ctxSet 1 p.val c.val ∧ k'.inst = s2.gnt.inst ∧ k'.counter = 0 ∧ k'.key = w.drop 16) ∧
    (runs → j.op = 0x80 → j.fail = none → s0.jobIn p.val j j.taken n = (.ok bs, s1) →
      ∃ u, exec (.garnetUnitComplete lane agree) s = .next u ∧ now u = if agree then some { j with taken := j.taken + n } else none) ∧
    (j.op ≠ 0x80 → j.op ≠ 0x50 → j.op ≠ 0x51 → lane.val ∉ s.gnt.outLanes → s.scn.role ≠ 2 → s.stalled = false → s.islRuns 106 = true →
      s.gnt.units.find? (fun w => w.1 == lane.val) = some (lane.val, .job p.val c.val j.slot) → s0.jobIn p.val j j.taken n = (.ok bs, s1) →
      (agree = false → ∃ u, exec (.garnetUnitComplete lane agree) s = .next u ∧ now u = none) ∧
      (agree = true →
        let fin := j.taken + n == len
        let msg := j.msg ++ (bs.take (len - j.post - j.taken)).drop (j.first - j.taken)
        ∀ tag s2, s1.jobIn p.val j (len - j.post) (if fin then j.post else 0) = (.ok tag, s2) →
          (∀ st, j.unit msg tag (fin && j.isLast) = .error st → ∃ u, exec (.garnetUnitComplete lane agree) s = .next u ∧ now u = none) ∧
          (∀ out s3, j.unit msg tag (fin && j.isLast) = .ok out → s2.jobOut p.val j j.wrote out = (true, s3) →
            (fin = true → ∃ u, exec (.garnetUnitComplete lane agree) s = .next u ∧ now u = none) ∧
            (fin = false → j.fail = none → ∃ u, exec (.garnetUnitComplete lane agree) s = .next u ∧ u.mem = s3.mem ∧
              now u = some { j with msg := msg, taken := j.taken + n, wrote := j.wrote + out.length })))) ∧
    (j.op = 0x80 → s.scn.role ≠ 2 → s.stalled = false → len ≤ j.taken → s.jobIn p.val j 0 len = (.ok bs, s1) →
      (let num := fun (i : Nat) => ofBytes ((bs.drop (48 * i)).take 48)
        let j1 := { j with taken := len }
        (j.fail.isSome = true → exec (.ecdsaVerifyComplete p c true) s = .next (s1.gntFail p.val c.val j 0x20)) ∧
        (j.fail = none → exec (.ecdsaVerifyComplete p c true) s = .next (if ecdsaVerify (num 0) (num 1) (num 2) (num 3) (sha384 (bs.drop 192))
          then s1.gntDone p.val c.val j1 else s1.gntFail p.val c.val j1 0x18))) ∧
      ∃ u, exec (.ecdsaVerifyComplete p c false) s = .next u ∧ now u = none)) ∧
  (∀ s0 : State, let s := s0.cfgw .gntKsbase [] (setBit (s0.reg .gntKsbase) 0 true)
    Map.wf regDefault s.regs = true →
    (s.rf .gntKsbase [] 0 0 = 1 → exec .keyStoreEnable s0 = .next s) ∧
    (s.rf .gntKsbase [] 0 0 = 0 → ∃ u, exec .keyStoreEnable s0 = .next u ∧ u.rf .gntKsbase [] 0 0 = 1 ∧
      (∀ k, s.recoverKsk = some k → u.gnt.ksk = k) ∧
      (s.recoverKsk = none → u.gnt.ksk.length = 32 ∧ ∀ n, n < 4096 → (u.slot n).st = 0))) ∧
  (∀ (p : Pid) (v : W64) (s0 : State), let s := s0.cfgw .gntPslot [p.val] v
    Map.wf regDefault s.regs = true → Map.wf KeySlot.empty s.gnt.slots = true →
    let old := fun (n : Nat) => s.rf .gntPslot [p.val] 11 0 ≤ n ∧ n < s.rf .gntPslot [p.val] 11 0 + s.rf .gntPslot [p.val] 44 32
    let new := fun (n : Nat) => fld v 11 0 ≤ n ∧ n < fld v 11 0 + fld v 44 32
    (p.val = 0 ∨ s.pslotBad p.val (fld v 11 0) (fld v 44 32) = true → exec (.pslotWrite p v) s0 = .next s) ∧
    (p.val ≠ 0 → s.pslotBad p.val (fld v 11 0) (fld v 44 32) = false → ∃ u, exec (.pslotWrite p v) s0 = .next u ∧
      u.reg .gntPslot [p.val] = pack [(44, 32, fld v 44 32), (11, 0, fld v 11 0)] ∧
      ∀ n, u.slot n = if old n ∧ ¬ new n then KeySlot.empty n else s.slot n))

/-- Fault records' commands and the performance counters (R463 to R466, R473 to R484). -/
def Obligations.FaultRecordsAndCounters : Prop :=
  ∀ s : State, Map.wf regDefault s.regs = true →
    (∀ b : BitVec 7,
      let n := b.toNat
      let a := s.cfgw .fltCtl [n] 1
      (0x73 ≤ n → exec (.faultAck b) s = .next a) ∧
      (n < 0x73 → Map.wf regDefault a.regs = true →
        ∃ u, exec (.faultAck b) s = .next u ∧ u.reg .fltRec [n] = (if a.rf .fltRec [n] 61 60 = 1 then setFld (a.reg .fltRec [n]) 61 60 2 else a.reg .fltRec [n]) ∧
          { a with regs := u.regs } = u ∧ ∀ r ix, r.addr ix ≠ Reg.fltRec.addr [n] → u.reg r ix = a.reg r ix)) ∧
    (∀ (b : BitVec 7) (s0 : State), let s := s0.cfgw .fltCtl [b.toNat] 2
      Map.wf regDefault s.regs = true →
      let n := b.toNat
      let old := s.reg .fltRec [n]
      let st := s.rf .fltRec [n] 61 60
      (0x73 ≤ n → exec (.faultClear b) s0 = .next s) ∧
      (n < 0x73 → st = 0 → ∃ u, exec (.faultClear b) s0 = .next u ∧ u.rf .fltCtl [n] 3 2 = 1 ∧ { s with regs := u.regs } = u ∧
        ∀ r ix, r.addr ix ≠ Reg.fltCtl.addr [n] → u.reg r ix = s.reg r ix) ∧
      (n < 0x73 → st ≠ 0 → fld old 63 62 = 3 ∨ (∃ x ∈ s.fltSeen, x.block = n ∧ s.causeStays x = true) →
        ∃ u, exec (.faultClear b) s0 = .next u ∧ u.reg .fltRec [n] = setFld old 61 60 2 ∧ u.rf .fltCtl [n] 3 2 = 2 ∧
          { s with regs := u.regs } = u) ∧
      (n < 0x73 → st ≠ 0 → fld old 63 62 ≠ 3 → (∀ x ∈ s.fltSeen, x.block = n → s.causeStays x = false) →
        ∃ u, exec (.faultClear b) s0 = .next u ∧ u.reg .fltRec [n] = 0 ∧ u.reg .fltAddr [n] = 0 ∧ u.reg .fltTsec [n] = 0 ∧
          u.reg .fltTns [n] = 0 ∧ u.reg .fltInfo [n] = 0 ∧ u.rf .fltCtl [n] 3 2 = 1 ∧ u.mem = s.mem ∧
          u.fltSeen = s.fltSeen.filter fun x => x.block != n)) ∧
    (∀ (b : Fin 0x73) (ev : BitVec 12) (thr : Bool), ∃ u, exec (.counterEvent b ev thr) s = .next u ∧ { s with regs := u.regs } = u ∧
      ∀ k < 8,
        let c := s.rf .pmcCnt [b.val, k] 47 0
        let hit := ownEvent b.val ev.toNat = false ∧ s.pmcRuns b.val = true ∧ s.pmcHit b.val k ev.toNat thr.toNat = true
        (hit → u.rf .pmcCnt [b.val, k] 47 0 = (c + 1) % 2 ^ 48 ∧
          u.rf .pmcCtl [b.val, k] 62 62 = if c + 1 = 2 ^ 48 then 1 else s.rf .pmcCtl [b.val, k] 62 62) ∧
        (¬ hit → u.reg .pmcCnt [b.val, k] = s.reg .pmcCnt [b.val, k] ∧ u.reg .pmcCtl [b.val, k] = s.reg .pmcCtl [b.val, k])) ∧
    (∀ (g : Fin 16) (late : Bool),
      let on := s.rf .pmcGctl [g.val] 63 63 ≠ 0 ∧ s.power.state = .run ∧ s.islRuns 110 = true ∧ s.stalled = false
      let seq := (s.rf .pmcGstat [g.val] 63 32 + 1) % 2 ^ 32
      let pid := s.rf .pmcGctl [g.val] 57 52
      let size := 2 ^ s.rf .pmcGbuf [g.val] 4 0
      let pos := Map.get zeroNat s.gpos g.val
      let a := s.rf .pmcGbuf [g.val] 47 12 * 4096 + 128 * (pos % size)
      (¬ on → exec (.snapshot g late) s = .next s) ∧
      (on → late = true → exec (.snapshot g late) s = .next (s.incRf .pmcGstat [g.val] 31 16)) ∧
      (on → late = false → ∀ x, s.gatherBlocks g.val = [x] →
        (s.gathererOk pid a = true →
          let w := (s.potFill none a).hubWrite a (s.snapRecord x seq)
          exec (.snapshot g late) s = .next (({ w with gpos := Map.set zeroNat w.gpos g.val ((pos + 1) % size) } : State).setRf
            .pmcGstat [g.val] 63 32 seq)) ∧
        (s.gathererOk pid a = false → ∃ u, exec (.snapshot g late) s = .next u ∧ u.mem = s.mem ∧ u.gpos = s.gpos ∧
          u.rf .pmcGctl [g.val] 63 63 = 0 ∧ u.rf .fltRec [blkGatherer] 61 60 ≠ 0))) ∧
    (∀ (c : CoreId) (thr : Bool), Map.wf Core.reset s.cores = true →
      let m := 2 * c.val + thr.toNat
      let t := s.thr m
      let on := s.rf .pmcSctl [c.val] 63 63 ≠ 0 ∧ s.pmcRuns c.val = true ∧ t.run = .running
      let drop := (s.core c.val).sample.isSome = true ∨ t.cur.pl = 3 ∨ s.pmcOwns c.val m false = false
      (¬ on → exec (.sampleTag c thr) s = .next s) ∧
      (on → drop → exec (.sampleTag c thr) s = .next (s.incRf .pmcSctl [c.val] 31 0)) ∧
      (on → ¬ drop → ∃ u, exec (.sampleTag c thr) s = .next u ∧ { s with cores := u.cores } = u ∧
        (u.core c.val).sample = some ⟨m, t.cur.pc, t.cur.pid, t.cur.pl, s.srTime⟩)) ∧
    (∀ (c : CoreId) (outcome exc src : BitVec 8) (daddr : W64) (fd di ic cr : BitVec 16), Map.wf Core.reset s.cores = true →
      let i : Instr := .sampleRecord c outcome exc src daddr fd di ic cr
      let s1 := s.modCore c.val fun y => { y with sample := none }
      let own := s.rf .pmcOwn [c.val] 5 0
      let n := (s.core c.val).sampleSeq
      let a := s.rf .pmcSbuf [c.val] 47 12 * 4096 + 64 * (n % 2 ^ s.rf .pmcSbuf [c.val] 4 0)
      let bad := 2 < outcome.toNat ∨ 7 < src.toNat ∨ s.rf .pmcSctl [c.val] 63 63 = 0 ∨ s.islRuns 110 = false
      ((s.core c.val).sample = none → exec i s = .next s) ∧
      (s.stalled = true → exec i s = .next s) ∧
      (s.stalled = false → ∀ x, (s.core c.val).sample = some x →
        (bad → exec i s = .next s1) ∧
        (¬ bad → s1.gathererOk own a = true → ∃ u, exec i s = .next u ∧ u.mem = ((s1.potFill none a).hubWrite a (s.sampleRecord c.val x
          (outcome.toNat, exc.toNat) (src.toNat, daddr) [fd.toNat, di.toNat, ic.toNat, cr.toNat])).mem) ∧
        (¬ bad → s1.gathererOk own a = false → ∃ u, exec i s = .next u ∧ u.mem = s.mem ∧ u.rf .pmcSctl [c.val] 63 63 = 0 ∧
          u.rf .fltRec [blkGatherer] 61 60 ≠ 0)))

/-- Resets (R494 to R503). -/
def Obligations.ResetsAndStartUp : Prop :=
  ∀ s : State,
    let up := fun (x : State) => x.power.state = .run ∨ x.power.state = .doze
    let down := fun (x : State) => x.power.state = .sleep ∨ x.power.state = .off
    let inReset := fun (u x : State) (kind src : Nat) => u.reg .rstCause [] = x.cause kind src ∧ u.power.state = .run ∧
      u.power.boot = .rails ∧ (∀ m < 112, (u.thr m).run = .held ∧ (u.thr m).cur = Arch.reset m) ∧ u.l2 = [] ∧
      (∀ i < 112, (u.isl i).held = true) ∧ u.stc = x.stc ∧ u.od = x.od ∧ u.opt = x.opt ∧ u.pending = x.pending
    let colds := fun (i : Instr) (x : State) (src : Nat) =>
      up x → ∃ u, exec i s = .next u ∧ inReset u x 2 src ∧ u.mem = [] ∧ u.power.warmBoot = false
    let cold := fun (i : Instr) (x : State) (src : Nat) => colds i x src ∧ (down x → exec i s = .next x)
    let warm := fun (i : Instr) (x : State) (src : Nat) =>
      (x.inCold = false → up x → ∃ u, exec i s = .next u ∧ inReset u x 3 src ∧ u.mem = x.drainAll.mem ∧ u.power.warmBoot = true ∧
        u.trl.xchs = x.trl.xchs ∧ (∀ n < 12, (u.mc n).selfRefresh = true ∧ (u.mc n).patrol = (x.mc n).patrol) ∧
        (Map.wf Thread.reset x.threads = true → (∀ m < 112, (x.thr m).sb = [] ∧ (x.thr m).cb = []) → u.mem = x.mem ∧
          ((∀ m < 112, (x.thr m).groups = []) → u.reg .rstCoredeconf [] = x.reg .rstCoredeconf [] ∧
            ∀ n < 12, u.reg .mcDevmark [n] = x.reg .mcDevmark [n]))) ∧
      (x.inCold = true ∨ down x → exec i s = .next x)
    let low := { s with pins := { s.pins with warmN := false } }
    let calm := { s with power := { s.power with holdRuns := false } }
    (∀ src : BitVec 8, cold (.moduleColdReset src) s src.toNat ∧ warm (.moduleWarmReset src) s src.toNat) ∧
    colds .resetN s 3 ∧
    (∃ u, exec .resetN s = .next u ∧ u.pins.resetN = false ∧ u.power.heldReset = true ∧ (down s → u.mem = s.mem ∧ u.regs = s.regs)) ∧
    exec .resetNRelease s = .next { s with pins := { s.pins with resetN := true }, power := { s.power with heldReset := false } } ∧
    (s.pins.warmN = true → warm (.warmN true) low 4) ∧ (s.pins.warmN = false → exec (.warmN true) s = .next low) ∧
    exec (.warmN false) s = .next { s with pins := { s.pins with warmN := true } } ∧
    (s.power.holdRuns = true → (s.rf .fltFcfg [] 16 16 = 1 → warm .fatalHoldExpiry calm 8) ∧
      (s.rf .fltFcfg [] 16 16 ≠ 1 → exec .fatalHoldExpiry s = .next calm)) ∧
    (s.power.holdRuns = false → exec .fatalHoldExpiry s = .next s) ∧
    cold (.rstCmdModuleCold 0x4B5A) (s.rstCmd 2 0 0 0x4B5A) 6 ∧ warm (.rstCmdModuleWarm 0x4B5A) (s.rstCmd 3 0 0 0x4B5A) 6 ∧
    (∀ key : BitVec 16, key ≠ 0x4B5A → exec (.rstCmdModuleCold key) s = .next (s.rstCmd 2 0 0 key) ∧
      exec (.rstCmdModuleWarm key) s = .next (s.rstCmd 3 0 0 key) ∧
      ∀ n : BitVec 6, exec (.rstCmdPartition n key) s = .next (s.rstCmd 4 n.toNat 0 key) ∧
        exec (.rstCmdCore n key) s = .next (s.rstCmd 5 0 n.toNat key)) ∧
    (∀ (n : BitVec 6) (s0 : State), let s := s0.rstCmd 4 n.toNat 0 0x4B5A;
      let p := n.toNat
      let idle := (∀ c < 15, (s.ctx 0 p c).state ≠ 1) ∧ ∀ c < 8, (s.ctx 1 p c).state ≠ 1
      let spared := fun (m : Nat) => ∃ x ∈ s.sparings, x.core = m / 2 ∨ x.spare = some (m / 2)
      (p = 0 ∨ 48 < p ∨ (∃ x ∈ s.presets, x.pid = p) → exec (.rstCmdPartition n 0x4B5A) s0 = .next s) ∧
      (1 ≤ p → p ≤ 48 → (∀ x ∈ s.presets, x.pid ≠ p) → idle → Map.wf Thread.reset s.threads = true → Map.wf regDefault s.regs = true →
        Map.wf zeroNat s.cold.pst = true → ∃ u, exec (.rstCmdPartition n 0x4B5A) s0 = .next u ∧ u.mem = s.mem ∧
          (∃ ms, u.presets = s.presets ++ [⟨p, ms, false⟩] ∧ ∀ m, m ∈ ms ↔ m < 112 ∧ (s.thr m).cur.pid = p ∧ ¬ spared m) ∧
          u.sparings = s.sparings.map (s.dropThreads p) ∧
          Map.get zeroNat u.cold.pst p = 3 ∧ p ∈ u.power.again ∧
          (∀ m < 112, (s.thr m).cur.pid = p → ¬ spared m → (u.thr m).run = .held ∧ (u.thr m).cur = Arch.reset m ∧
            (u.thr m).sb = (s.thr m).sb ∧ (u.thr m).cb = (s.thr m).cb) ∧
          (∀ m, (s.thr m).cur.pid ≠ p ∨ spared m → u.thr m = s.thr m) ∧
          (∀ c < 56, s.rf .pmcOwn [c] 5 0 = p → ∀ k < 8, u.rf .pmcCnt [c, k] 47 0 = 0 ∧ u.rf .pmcCtl [c, k] 63 63 = 0))) ∧
    (∀ (n : BitVec 6) (s0 : State), let s := s0.rstCmd 5 0 n.toNat 0x4B5A;
      let p := n.toNat
      (let mine := p ≤ 55 ∧ (bit (s.reg .rstCorespare) p = true ∨ bit (s.reg .rstCoredeconf) p = true);
        (¬ mine → exec (.rstCmdCore n 0x4B5A) s0 = .next s) ∧
        (mine → Map.wf Thread.reset s.threads = true → Map.wf Core.reset s.cores = true → ∃ u, exec (.rstCmdCore n 0x4B5A) s0 = .next u ∧
          u.mem = s.mem ∧ (∀ k < 2, (u.thr (2 * p + k)).run = .held ∧ (u.thr (2 * p + k)).cur = Arch.reset (2 * p + k)) ∧
          u.core p = Core.reset p ∧ ∀ x ∈ u.l2, x.1 / 2 ^ 40 ≠ p))) ∧
    (∃ u, exec .auxColdReset s = .next u ∧ u.mem = [] ∧ u.stc = ⟨0, 0, 0⟩ ∧ u.power.aux = false ∧ u.power.state = .off ∧
      u.reg .rstCause [] = pack [(63, 60, 1), (55, 48, 1)] ∧ u.cold.sessions = [] ∧ u.cold.audit = s.cold.audit ∧
      u.cold.head = s.cold.head ∧ u.cold.anchor = s.cold.anchor ∧ u.cold.link = s.cold.link ∧ u.opt = s.opt ∧
      ∀ x ∈ u.od, x ∈ s.od ∧ ∃ r, odRow x.1 = some r ∧ r.pers ≠ .volatile) ∧
    (∀ errs, s.power.state ≠ .off → exec (.auxPowerOn errs) s = .next s) ∧
    (s.power.state = .off → ∃ u, exec (.auxPowerOn []) s = .next u ∧ u.power.aux = true ∧ u.cold.link0 = true ∧ u.cold.link1 = true ∧
      u.optIn = s.opt ∧ u.mem = s.mem ∧
      u.power.state = if (bit (u.optD 0x118) 0 = true ∨ s.cold.zeroPending = true) ∧ s.power.main = true ∧ s.power.boot ≠ .stopped then .run else .sleep) ∧
    (let go := s.power.state = .run ∧ s.power.boot = .rails ∧ s.power.heldReset = false ∧ s.power.main = true ∧ s.power.aux = true;
      (¬ go → ∀ errs, exec (.mainPowerGood errs) s = .next s) ∧
      (go → Map.wf Isl.reset s.isls = true → Map.wf regDefault s.regs = true → Map.wf Mc.reset s.mcs = true →
        s.power.warmBoot = true ∨ s.popOk = true → ∃ u, exec (.mainPowerGood []) s = .next u ∧ u.mem = s.mem ∧ u.power.boot = .training ∧ u.rcm = s.rcm + 1 ∧ u.optIn = s.opt ∧
          (∀ i < 112, (u.isl i).held = ((s.isl i).held && !(s.isl i).valid)) ∧
          ∀ n < 12, if s.power.warmBoot = true then s.ways = 12 ∨ n % 2 = 0 → (u.mc n).selfRefresh = false
            else u.ways = s.channels.length ∧ (n ∈ s.channels → u.rf .mcTrain [n] 7 0 = 1)) ∧
      (go → s.power.warmBoot = false → s.popOk = false → Map.wf regDefault s.regs = true → ∃ u, exec (.mainPowerGood []) s = .next u ∧
        u.mem = s.mem ∧ u.power.boot = .stopped ∧ u.rf .fltRec [blkMc 0] 61 60 ≠ 0)) ∧
    (up s → ∃ u, exec .mainPowerGoodLoss s = .next u ∧ u.mem = [] ∧ u.power.state = .sleep ∧ u.power.main = false ∧
      u.power.coldDue = some 2 ∧ u.reg .rstCause [] = s.reg .rstCause [] ∧ ∀ m < 112, (u.thr m).run = .held) ∧
    (down s → exec .mainPowerGoodLoss s = .next { s with power := { s.power with main := false } }) ∧
    (let on := { s with power := { s.power with main := true } }
      let src := s.power.coldDue.getD 0x0A;
      (s.power.state ≠ .sleep ∨ s.power.main = true → exec .mainReturn s = .next on) ∧
      (s.power.state = .sleep → s.power.main = false →
        (bit (s.optD 0x118) 0 = true ∨ s.cold.zeroPending = true → ∃ u, exec .mainReturn s = .next u ∧ inReset u s 2 src ∧ u.power.main = true ∧ u.mem = []) ∧
        (bit (s.optD 0x118) 0 = false → s.cold.zeroPending = false → (s.power.coldDue = none → exec .mainReturn s = .next on) ∧
          (s.power.coldDue.isSome = true → Map.wf regDefault s.regs = true → ∃ u, exec .mainReturn s = .next u ∧
            u.reg .rstCause [] = s.cause 2 src ∧ u.power.main = true ∧ u.power.state = .sleep ∧ u.power.coldDue = none)))) ∧
    (∀ (failing : List CoreId) (a b : Bool) (image record : List Byte) (entry start : W64),
      let i : Instr := .rootstockImageVerified failing a b image record entry start
      let ready := s.power.state = .run ∧ s.power.boot = .training ∧
        (∀ n < 12, (s.ways = 6 ∧ n % 2 = 1) ∨ s.rf .mcTrain [n] 7 0 = 2 ∨ s.rf .mcTrain [n] 7 0 = 3) ∧ s.islRuns 106 = true ∧ s.cold.zeroPending = false ∧
        image.length ≤ 0x800000 ∧ start.toNat + record.length ≤ 0x100000;
      (¬ ready → exec i s = .next s) ∧
      (ready → a = false → b = false → ∃ u, exec i s = .next u ∧ u.power.boot = .stopped ∧ u.mem = s.mem) ∧
      (ready → a = true → Map.wf Thread.reset s.threads = true → Map.wf regDefault s.regs = true →
        ∃ u, exec i s = .next u ∧ u.power.boot = .done ∧ u.mem = ((s.wr 0x100000 image).wr start.toNat record).mem ∧
          u.rf .scnCtl [] 0 0 = s.odv 0x310000 % 2 ∧ u.rf .fltFcfg [] 16 16 = s.odv 0x080000 % 2 ∧
          (s.odv 0x310000 % 2 = 0 → u.scn.role = 0 ∧ u.pins.pairActive = !s.pins.fenceIn) ∧
          ∀ c, (List.range 56).find? (bit (u.reg .rstCoresvc)) = some c → (u.thr (2 * c)).run = .running ∧
            (u.thr (2 * c)).cur.pc = entry ∧ (u.thr (2 * c)).cur.g 2 = start ∧ (u.thr (2 * c)).cur.pl = 3)) ∧
    (∀ (t : ThreadId) (p : Pid) (lcore : BitVec 6) (c0r : Bool),
      let i : Instr := .partitionThreadStart t p lcore c0r
      let st := Map.get zeroNat s.cold.pst p.val
      let spared := ∃ x ∈ s.sparings, x.core = t.val / 2 ∨ x.spare = some (t.val / 2)
      let may := p.val ≠ 0 ∧ (s.thr t.val).run = .held ∧ bit (s.reg .rstCoresvc) (t.val / 2) = true ∧ s.power.boot = .done ∧
        s.power.state = .run ∧ s.partQuiet p.val = true ∧ st ≠ 0 ∧ st ≠ 4 ∧ s.scn.role ≤ 1 ∧ ¬ spared;
      (¬ may → exec i s = .next s) ∧
      (may → Map.wf Thread.reset s.threads = true → Map.wf regDefault s.regs = true → Map.wf zeroNat s.cold.pst = true →
        ∃ u, exec i s = .next u ∧ u.mem = s.mem ∧ (u.thr t.val).run = .running ∧
          (let e := u.arch t;
            e.pc = BitVec.ofNat 64 (s.odForce p.val 4) ∧ e.pl = (if s.odForce p.val 5 = 1 then 2 else 1) ∧ e.pid = p.val ∧
            e.lcore = lcore.toNat ∧ e.g 2 = BitVec.ofNat 64 p.val ∧ e.g 4 = BitVec.ofNat 64 (s.odForce p.val 2) ∧
            e.g 5 = (if p.val ∈ s.power.again then 1 else 0) ∧ e.g 6 = BitVec.ofNat 64 (2 * lcore.toNat + t.val % 2)) ∧
          u.rf .potTs1 [t.val] 0 0 = 0 ∧ u.rf .potTs2 [t.val] 0 0 = 0 ∧ u.rf .potTh [t.val] 0 0 = 0 ∧ u.rf .rstCsctl [] 1 1 = 1 ∧
          Map.get zeroNat u.cold.pst p.val = 2 ∧
          (st ≠ 2 → u.rf .trlPcfg [p.val] 62 62 = s.odForce p.val 8 % 2 ∧
            (s.rf .trlPcfg [p.val] 63 63 = 0 → u.rf .trlLbase [p.val] 4 0 = s.odForce p.val 0xA % 32) ∧
            (s.rf .trlPcfg [p.val] 63 63 = 1 → u.reg .trlLbase [p.val] = s.reg .trlLbase [p.val])) ∧
          (st = 2 → u.reg .trlPcfg [p.val] = s.reg .trlPcfg [p.val] ∧ u.reg .trlLbase [p.val] = s.reg .trlLbase [p.val]))) ∧
    (let z := s.cfgw .rstWdog [] (setBit (s.reg .rstWdog) 63 true);
      (z.rf .rstWdog [] 63 63 = 1 → exec .watchdogEnable s = .next z) ∧
      (z.rf .rstWdog [] 63 63 ≠ 1 → Map.wf regDefault z.regs = true → ∃ u, exec .watchdogEnable s = .next u ∧
        u.rf .rstWdog [] 63 63 = 1 ∧ u.rf .rstWdog [] 31 0 = z.rf .rstWdog [] 31 0 ∧ u.power.wdog = 0 ∧ u.mem = z.mem)) ∧
    (s.scn.running = false → exec .hbeat s = .next { s with power := { s.power with wdog := 0 } }) ∧
    (s.scn.running = true → ∃ u, exec .hbeat s = .next u ∧ u.power.wdog = 0 ∧ u.mem = s.mem) ∧
    (let late := s.rf .rstWdog [] 63 63 = 1 ∧ s.power.state = .run ∧ s.rf .rstWdog [] 31 0 * 200000 ≤ s.power.wdog;
      (¬ late → exec .watchdogExpiry s = .next s) ∧ (late → warm .watchdogExpiry s 7))

/-- Islands and power (R488 to R506, R557). -/
def Obligations.IslandsAndPower : Prop :=
  ∀ s : State,
    let up := s.power.state = .run ∨ s.power.state = .doze
    let refused := fun (i : Instr) (z : State) => Map.wf regDefault z.regs = true → z.powerRefused = true ∨ z.power.dozeWait = true → ∃ u, exec i s = .next u ∧
      u.rf .pwrStat [] 63 62 = 2 ∧ { z with regs := u.regs } = u
    let asleep := fun (u : State) (due : Option Nat) => u.power.state = .sleep ∧ u.power.coldDue = due ∧ u.mem = [] ∧
      u.power.main = s.power.main ∧ ∀ m < 112, (u.thr m).run = .held
    (∀ i : Island,
      let x := s.isl i.val
      let off := s.modIsl i.val fun y => { y with valid := false }
      let noted := (off.incRf .clkLoss [] 31 0).setRf .clkLoss [] 38 32 i.val
      let lost := noted.modIsl i.val fun y => { y with held := true }
      let drops := fun (u : State) => exec (.clockValidDrop i) s = .next u
      let runs := x.valid = true ∧ x.held = false ∧ x.gate = 0;
      (i.val < 112 → ¬ up → exec (.clockValidRise i) s = .next s) ∧
      (i.val = 112 ∨ up → Map.wf Isl.reset s.isls = true → ∃ u, exec (.clockValidRise i) s = .next u ∧ { s with isls := u.isls } = u ∧
        u.isl i.val = { x with valid := true, held := x.held && !(s.power.boot == .training && decide (i.val < 112)) } ∧
        ∀ k, k ≠ i.val → u.isl k = s.isl k) ∧
      (x.valid = false → drops s) ∧ (x.valid = true → x.held = true ∨ x.gate ≠ 0 → drops off) ∧
      (runs → Map.wf regDefault s.regs = true →
        (i.val < 56 → (bit (s.reg .rstCoresvc) i.val = true → drops (((lost.modThr (2 * i.val) Thread.rewind).modThr (2 * i.val + 1) Thread.rewind).modCore i.val fun c =>
            c.dueFor 0x0C01 lost.stcNs)) ∧
          (bit (s.reg .rstCoresvc) i.val = false → drops lost)) ∧
        (92 ≤ i.val → i.val ≤ 103 → drops ((lost.portLost (i.val - 92)).fault blkClocks clsContained 0x0C02 0 0)) ∧
        (i.val = 105 ∨ i.val = 106 → drops (lost.engineLost (i.val - 105))) ∧
        (i.val = 110 → ∃ u, drops u ∧ (∀ g < 16, u.rf .pmcGctl [g] 63 63 = 0) ∧
          u.rf .fltRec [blkClocks] 61 60 ≠ 0 ∧ u.mem = s.mem) ∧
        (i.val = 112 → ∃ u, drops u ∧ u.cold.ptp.sync = 3 ∧ u.rf .fltRec [blkClocks] 61 60 ≠ 0 ∧
          u.rf .clkLoss [] 31 0 = min (s.rf .clkLoss [] 31 0 + 1) (2 ^ 32 - 1) ∧ u.rf .clkLoss [] 38 32 = 112 ∧ u.mem = s.mem) ∧
        (i.val = 107 → s.rf .scnCtl [] 0 0 = 0 → drops (lost.fault blkClocks clsContained 0x0C02 0 0)) ∧
        (56 ≤ i.val → i.val < 92 ∨ i.val = 104 ∨ (i.val = 107 ∧ s.rf .scnCtl [] 0 0 ≠ 0) ∨ i.val = 108 ∨ i.val = 109 ∨ i.val = 111 →
          ∃ u, drops u ∧ u.rf .fltFatal [] 63 63 = 1 ∧ u.rf .clkLoss [] 38 32 = i.val ∧ u.mem = s.mem)) ∧
      (let does := fun (c : Instr) (z : State) (r : Bool) =>
        (z.blockMay i.val = false → exec c s = .next ((z.setRf .rstBlkctl [] 54 48 i.val).modIsl i.val fun y => { y with status := 4 })) ∧
        (z.blockMay i.val = true → exec c s = .next (((z.setRf .rstBlkctl [] 54 48 i.val).modIsl i.val fun y =>
          { y with gate := 0, status := 1, forced := false, release := r }).blockDisable i.val));
        does (.blockResetAndRelease i) (s.blkWrite i.val 1) true ∧ does (.blockResetAndHold i) (s.blkWrite i.val 2) false) ∧
      (let z := s.blkWrite i.val 3;
        Map.wf Isl.reset z.isls = true → ∃ u, exec (.blockRelease i) s = .next u ∧ u.mem = z.mem ∧
        u.isl i.val = if (z.isl i.val).held = false then z.isl i.val else if (z.isl i.val).valid = true then { z.isl i.val with held := false, status := 0 }
          else { z.isl i.val with status := 3 }) ∧
      (x.status ≠ 1 → exec (.blockIdle i) s = .next s ∧ exec (.blockIdleTimeout i) s = .next s) ∧
      (x.status = 1 → Map.wf Isl.reset s.isls = true → Map.wf regDefault s.regs = true →
        let wiped := fun (u : State) (forced : Bool) => u.mem = s.mem ∧
          u.isl i.val = { x with
            held := !(x.release && x.valid), status := if x.release = false then 2 else if x.valid = true then 0 else 3, forced := forced } ∧
          (i.val = 105 → ∀ c ∈ u.trl.ctxs, 1024 ≤ c.1) ∧ (i.val = 106 → ∀ c ∈ u.trl.ctxs, c.1 < 1024) ∧
          (i.val = 110 → u.gpos = [] ∧ ∀ g < 16, u.reg .pmcGctl [g] = regDefault (Reg.pmcGctl.addr [g])) ∧
          (92 ≤ i.val → i.val ≤ 103 → u.reg .trlPortst [i.val - 92] = regDefault (Reg.trlPortst.addr [i.val - 92]))
        (s.engineBusy i.val = true → exec (.blockIdle i) s = .next s) ∧ (s.engineBusy i.val = false → ∃ u, exec (.blockIdle i) s = .next u ∧ wiped u false) ∧
        ∃ u, exec (.blockIdleTimeout i) s = .next u ∧ wiped u true ∧ u.rf .fltRec [blkReset] 61 60 ≠ 0)) ∧
    (∀ p : PortId, exec (.refclkLoss (.port p)) s = .next (s.clockDrop (92 + p.val))) ∧
    exec (.refclkLoss .aux) s = .next (s.clockDrop 112) ∧
    ((∀ k < 112, k < 92 ∨ 104 ≤ k → (s.isl k).held = true ∨ (s.isl k).gate ≠ 0) → Map.wf Isl.reset s.isls = true →
      ∃ u, exec (.refclkLoss .sys) s = .next u ∧ { s with isls := u.isls } = u ∧
        ∀ k < 112, k < 92 ∨ 104 ≤ k → (u.isl k).valid = false) ∧
    (let z := s.cfgw .pwrCtl [] 1;
      (z.power.state ≠ .run → exec .enterDoze s = .next z) ∧ (z.power.state = .run → refused .enterDoze z)) ∧
    (∀ s0 : State, let s := s0.cfgw .pwrCtl [] 1;
      s.power.state = .run → s.powerRefused = false → s.power.dozeWait = false →
      (s.devicesWait = true → exec .enterDoze s0 = .next { s with power := { s.power with dozeWait := true } }) ∧
      (s.devicesWait = false → s.txns = [] → s.wbs = [] → Map.wf Thread.reset s.threads = true → Map.wf regDefault s.regs = true → Map.wf Mc.reset s.mcs = true → (∀ x ∈ s.l2, x.2.st ≠ .m ∧ x.2.st ≠ .o) →
        (∀ m < 112, (s.thr m).sb = [] ∧ (s.thr m).cb = []) → ∃ u, exec .enterDoze s0 = .next u ∧ u.power.state = .doze ∧ u.power.dozeWait = false ∧
          u.rf .pwrStat [] 63 62 = 1 ∧ u.mem = s.mem ∧
          (∀ m < 112, (u.thr m).active = false ∧ (u.thr m).cur = (s.thr m).cur) ∧
          ∀ n < 12, s.rf .mcCfg [n] 0 0 = 1 → (u.mc n).selfRefresh = true)) ∧
    (let z := s.cfgw .pwrCtl [] 2;
      let up := z.power.state = .run ∨ z.power.state = .doze;
      (¬ up → exec .enterSleep s = .next z) ∧ (up → refused .enterSleep z) ∧
      (up → z.powerRefused = false → z.power.dozeWait = false → ∃ u, exec .enterSleep s = .next u ∧ asleep u none)) ∧
    (∀ src : BitVec 4,
      let dozes := s.power.state = .doze ∧ 1 ≤ src.toNat ∧ src.toNat ≤ 4
      let sleeps := s.power.state = .sleep ∧ s.power.main = true ∧ (src = 1 ∨ src = 2 ∨ src = 5);
      (dozes → Map.wf regDefault s.regs = true → Map.wf Thread.reset s.threads = true → Map.wf Mc.reset s.mcs = true →
        (s.power.dozed.map Prod.fst).Nodup → ∃ u, exec (.wake src) s = .next u ∧ u.power.state = .run ∧ u.mem = s.mem ∧
          u.rf .pwrStat [] 59 56 = src.toNat ∧ (∀ x ∈ s.power.dozed, (u.thr x.1).run = x.2 ∧ (u.thr x.1).cur.rsv = none ∧
            (u.thr x.1).cur.pc = (s.thr x.1).cur.pc) ∧ ∀ n < 12, (u.mc n).selfRefresh = false) ∧
      (sleeps → ∃ u, exec (.wake src) s = .next u ∧ u.power.state = .run ∧ u.power.boot = .rails ∧ u.mem = [] ∧
        u.reg .rstCause [] = s.cause 2 0x0A ∧ u.rf .pwrStat [] 59 56 = src.toNat) ∧
      (¬ dozes → ¬ sleeps → exec (.wake src) s = .next s)) ∧
    (∀ (tile : Fin 4) (celsius : BitVec 7), (¬ up → exec (.issueLimit tile celsius) s = .next s) ∧
      (up → Map.wf regDefault s.regs = true → Map.wf zeroNat s.power.tj = true → ∃ u, exec (.issueLimit tile celsius) s = .next u ∧ u.mem = s.mem ∧
        (∀ t, t ∈ u.power.hot ↔ if t = tile.val then 93 ≤ celsius.toNat ∨ (90 ≤ celsius.toNat ∧ t ∈ s.power.hot) else t ∈ s.power.hot) ∧
        Map.get zeroNat u.power.tj tile.val = celsius.toNat ∧
        u.rf .pwrStat [] 15 8 = (u.power.tj.map Prod.snd).foldl max 0 % 256 ∧
        u.rf .pwrStat [] 16 16 = (if u.power.hot = [] then 0 else 1) ∧
        (93 ≤ celsius.toNat → tile.val ∉ s.power.hot → u.rf .fltRec [blkPower] 61 60 ≠ 0))) ∧
    (¬ up → exec .thermalTrip s = .next s ∧ exec .hardwareBackstop s = .next s) ∧
    (up → Map.wf regDefault s.regs = true → ∃ u, exec .thermalTrip s = .next u ∧ asleep u none ∧ u.pins.thermN = false ∧
      (s.rf .fltFatal [] 63 63 ≠ 1 → ∃ r, (0x80, [r]) ∈ u.fltHist ∧ fld r 63 63 = 1 ∧ fld r 38 32 = blkPower)) ∧
    (up → ∃ u, exec .hardwareBackstop s = .next u ∧ asleep u (some 2) ∧ u.pins.thermN = false)

/-- Coldframe's sessions and requests (R509 to R537, R546, R547). -/
def Obligations.Dictionary : Prop :=
  ∀ s : State,
    (∀ (port : Bool) (mac : BitVec 48) (pdu : List Byte) (d h : Bool),
      let pn := port.toNat
      let req : DictReq := .frame port mac pdu
      let wr := fun (f : Pdu → Bool) (p : Pdu) => p.opc == 2 && f p
      let rows : List (Instr × (Pdu → Bool)) := [(.read req, fun p => p.opc == 1), (.write req d, wr fun p => !ownRow p),
        (.readseg req, fun p => p.opc == 3), (.writeseg req d, fun p => p.opc == 4), (.describe req, fun p => p.opc == 5),
        (.subscribe req, fun p => p.opc == 6), (.unsubscribe req, fun p => p.opc == 7),
        (.powerCommand req d, wr fun p => p.obj == 0x050001), (.moduleResetObject req d, wr fun p => p.obj == 0x050002),
        (.gateRequestObject req d, wr fun p => p.obj == 0x050003), (.kekLoad req d, wr fun p => p.obj == 0x400100),
        (.partitionStart req d, wr (isControl 1)), (.partitionStop req d, wr (isControl 2)), (.controlReset req d, wr (isControl 3)),
        (.makerDebug req d h, wr fun p => p.obj == 0xF00000 && p.payload == [1])]
      (∀ r ∈ rows, parsePdu pdu = none → exec r.1 s = .next s.dropFrame) ∧
      ∀ p tag, parsePdu pdu = some (p, tag) →
        let who := s.cold.sessions.find? fun x => x.num == p.session && x.port == pn && x.mac == mac.toNat
        (∀ r ∈ rows, (p.kind ≠ 1 ∨ tag.length ≠ 16 ∨ r.2 p = false → exec r.1 s = .next s) ∧
          (p.kind = 1 → tag.length = 16 → r.2 p = true → (who = none → exec r.1 s = .next (s.sendPdu pn mac.toNat (respOf p 9 []))) ∧
            ∀ x, who = some x → (tag ≠ macOf x.ks p.bytes → exec r.1 s = .next s) ∧ (tag = macOf x.ks p.bytes →
              (p.seq = x.seq → p.seq ≠ 0 → ∃ u, exec r.1 s = .next u ∧ u.cold.sent = s.cold.sent ++ [.itnov pn mac.toNat x.resp] ∧
                u.mem = s.mem ∧ u.od = s.od ∧ u.regs = s.regs) ∧
              (p.seq ≠ x.seq ∨ p.seq = 0 → p.seq ≠ x.seq + 1 → exec r.1 s = .next (s.sendFrame pn mac.toNat
                ((respOf p 0x0A []).bytes ++ macOf x.ks (respOf p 0x0A []).bytes)))))) ∧
        ∀ x, p.kind = 1 → who = some x → tag = macOf x.ks p.bytes → tag.length = 16 → p.seq = x.seq + 1 →
          let a : Asker := ⟨x.role, x.num, pn, x.ks, none⟩
          let ans := fun (i : Instr) (st : Nat) (v : List Byte) (q : State → Prop) =>
            ∃ u, exec i s = .next u ∧ q u ∧ u.cold.sent = s.cold.sent ++
              [.itnov pn mac.toNat ((respOf p st v).bytes ++ macOf x.ks (respOf p st v).bytes)]
          let same := fun (u : State) => u.mem = s.mem ∧ u.od = s.od ∧ u.regs = s.regs
          let logged := fun (u : State) => u.cold.head = (s.cold.head + 1) % 2 ^ 32
          let plain := p.obj ∉ [0x000010, 0x040000, 0x060001, 0x310006, 0x310007, 0x400100, 0xF00000] ∧ p.obj / 0x10000 ≠ 0x21 ∧
            isAction p.obj = false
          let only := fun (v : List Byte) (u : State) => logged u ∧ u.mem = s.mem ∧ u.regs = s.regs ∧ u.odv p.obj = ofBytes v ∧
            (∀ k, k ≠ p.obj → u.odv k = s.odv k) ∧ (∀ r, keyRole p.obj = some r → ∀ y ∈ u.cold.sessions, y.role ≠ r) ∧
            ∀ r, odRow p.obj = some r → r.eff = .s → s.odv p.obj ≠ ofBytes v → s.cold.chg.length < 256 → u.cold.chg = s.cold.chg ++ [p.obj]
          let v := p.payload
          let passes := d = true ∧ p.opc = 2 ∧ s.writeBad a false p v = none
          let st := s.actionStatus.1
          let n := ofBytes v
          let up := s.power.state = .run ∨ s.power.state = .doze
          let part := p.obj / 0x10000 - 0x60
          let free := (∀ y ∈ s.presets, y.pid ≠ part) ∧ (∀ c < 15, (s.ctx 0 part c).state ≠ 1) ∧ ∀ c < 8, (s.ctx 1 part c).state ≠ 1
          let calm := s.txns = [] ∧ s.wbs = [] ∧ s.devicesWait = false ∧ (∀ y ∈ s.l2, y.2.st ≠ .m ∧ y.2.st ≠ .o) ∧ ∀ m < 112, (s.thr m).sb = [] ∧ (s.thr m).cb = [];
          (p.opc = 1 → (∀ e, s.readBad a p.obj = some e → ans (.read req) e [] same) ∧
            (s.readBad a p.obj = none → (s.odBytes p.obj).length ≤ 1456 → ans (.read req) 0 (s.odBytes p.obj) same)) ∧
          (p.opc = 2 → ownRow p = false →
            (d = true → ∀ e, s.writeBad a false p v = some e → ans (.write req d) e [] fun u => same u ∧ logged u) ∧
            (d = true → s.writeBad a false p v = none → plain → Map.wf odDefault s.od = true → ans (.write req d) 0 [] (only v)) ∧
            (d = false → Map.wf regDefault s.regs = true → ans (.write req d) 5 [] fun u => u.mem = s.mem ∧ u.od = s.od ∧
              u.cold.auditBad = true ∧ u.rf .fltRec [blkColdframe] 61 60 ≠ 0)) ∧
          (p.opc = 3 → (∀ e, s.readBad a p.obj = some e → ans (.readseg req) e [] same) ∧
            (s.readBad a p.obj = none → ∀ r, odRow p.obj = some r → (r.typ ≠ tBlob → ans (.readseg req) 3 [] same) ∧ (r.typ = tBlob →
              (p.off = 0 → s.odBytes p.obj ≠ [] → ans (.readseg req) 0 ((s.odBytes p.obj).take 1024) fun u => same u ∧
                u.seg? x.num p.obj false = some ⟨x.num, p.obj, false, s.odBytes p.obj⟩) ∧
              (p.off ≠ 0 → s.seg? x.num p.obj false = none → ans (.readseg req) 0x0B [] same) ∧
              ∀ g, p.off ≠ 0 → s.seg? x.num p.obj false = some g →
                (p.off % 1024 ≠ 0 ∨ g.data.length ≤ p.off → ans (.readseg req) 0x0B [] same) ∧
                (p.off % 1024 = 0 → p.off < g.data.length → ans (.readseg req) 0 ((g.data.drop p.off).take 1024) same)))) ∧
          (p.opc = 4 → (∀ e, s.stage a p = .error e → d = true → ans (.writeseg req d) e [] fun u => same u ∧ logged u ∧
              (e = 0x0B → u.seg? x.num p.obj true = none)) ∧
            ∀ w r, s.stage a p = .ok w → odRow p.obj = some r →
              (w.length < r.size → ans (.writeseg req d) 0 [] fun u => same u ∧ u.seg? x.num p.obj true = some ⟨x.num, p.obj, true, w⟩) ∧
              (r.size ≤ w.length → d = true → (∀ e, s.writeBad a false p w = some e → ans (.writeseg req d) e [] fun u => same u ∧ logged u) ∧
                (s.writeBad a false p w = none → plain → Map.wf odDefault s.od = true → ans (.writeseg req d) 0 [] (only w)))) ∧
          (p.opc = 5 → (x.role = 4 → ans (.describe req) 2 [] same) ∧
            (x.role ≠ 4 → (odRow p.obj = none → ans (.describe req) 1 [] same) ∧
              ((odRow p.obj).isSome = true → ans (.describe req) 0 ((Config.describeBytes p.obj).take 1456) same))) ∧
          (p.opc = 6 → (∀ e, s.readBad a p.obj = some e → ans (.subscribe req) e [] same) ∧
            (s.readBad a p.obj = none → (s.cold.sessions.filter fun y => y.num == x.num) = [x] →
              ((∃ y ∈ x.subs, y.obj = p.obj) → ans (.subscribe req) 0 [] same) ∧
              ((∀ y ∈ x.subs, y.obj ≠ p.obj) → (32 ≤ x.subs.length → ans (.subscribe req) 6 [] same) ∧
                (x.subs.length < 32 → ans (.subscribe req) 0 [] fun u => same u ∧ ∃ y ∈ u.cold.sessions, y.num = x.num ∧
                  y.subs = x.subs ++ [⟨p.obj, false, s.odBytes p.obj⟩])))) ∧
          (p.opc = 7 → (x.role = 4 → ans (.unsubscribe req) 2 [] same) ∧
            (x.role ≠ 4 → (odRow p.obj = none → ans (.unsubscribe req) 1 [] same) ∧
              ((odRow p.obj).isSome = true → ans (.unsubscribe req) 0 [] fun u => same u ∧ ∀ y ∈ u.cold.sessions, y.num = x.num →
                ∀ z ∈ y.subs, z.obj ≠ p.obj))) ∧
          (passes → p.obj = 0x050001 → Map.wf Thread.reset s.threads = true → Map.wf regDefault s.regs = true →
            let i : Instr := .powerCommand req d
            (n = 1 → s.power.state = .sleep → s.power.main = true → ans i st [] fun u => u.power.state = .run ∧ u.power.boot = .rails) ∧
            (n = 1 → s.power.state = .doze → ans i st [] fun u => u.power.state = .run ∧ u.mem = s.mem) ∧
            (n = 2 → s.power.state = .run → s.powerRefused = false → s.power.dozeWait = false → calm → ans i st [] fun u => u.power.state = .doze ∧ u.mem = s.mem) ∧
            (n = 3 → up → s.powerRefused = false → s.power.dozeWait = false → ans i st [] fun u => u.power.state = .sleep ∧ u.mem = []) ∧
            (1 < n → s.power.state = .run → s.powerRefused = true → ans i st [] fun u => u.power.state = .run ∧ u.mem = s.mem ∧
              u.rf .pwrStat [] 63 62 = 2)) ∧
          (passes → p.obj = 0x050002 →
            let i : Instr := .moduleResetObject req d
            (n = 1 → ans i st [] fun u => u.power.aux = true ∧ u.stc = ⟨0, 0, 0⟩ ∧ u.reg .rstCause [] = pack [(63, 60, 1), (55, 48, 5)]) ∧
            (n = 2 → up → ans i st [] fun u => u.power.boot = .rails ∧ u.mem = [] ∧ u.reg .rstCause [] = s.cause 2 5) ∧
            (n = 3 → up → s.inCold = false → ans i st [] fun u => u.power.boot = .rails ∧ u.power.warmBoot = true ∧
              u.reg .rstCause [] = s.cause 3 5)) ∧
          (passes → p.obj = 0x050003 → Map.wf regDefault s.regs = true →
            let w := BitVec.ofNat 32 n
            fld w 22 16 ≤ 112 → fld w 1 0 ≠ 3 → s.rf .pwrGatereq [] 2 0 ≠ 2 → ans (.gateRequestObject req d) st [] fun u => u.mem = s.mem ∧
              u.rf .pwrGatereq [] 54 48 = fld w 22 16 ∧ u.rf .pwrGatereq [] 39 38 = fld w 1 0 ∧ u.rf .pwrGatereq [] 34 32 = 2 ∧
              (fld w 1 0 = 0 → u.rf .pwrGatereq [] 2 0 = 1 ∧ (Map.wf Isl.reset s.isls = true → (u.isl (fld w 22 16)).gate = 0)) ∧
              (fld w 1 0 ≠ 0 → u.rf .pwrGatereq [] 2 0 = (if s.leased (fld w 22 16) = true then 2 else 0) ∧
                u.power.gateWait = !(s.leased (fld w 22 16)))) ∧
          (passes → p.obj = 0x400100 → s.gnt.inst < 2 ^ 31 → ∀ w, kekOpen x.ks v = some w → ans (.kekLoad req d) st [] fun u =>
            let k := u.slot (ofBytes (v.take 2))
            logged u ∧ k.st = 1 ∧ k.attr = dwordAt v 2 ∧ k.key = w.drop 16 ∧ k.inst = s.gnt.inst ∧ u.gnt.inst = s.gnt.inst + 1) ∧
          (passes → isControl 1 p = true → ans (.partitionStart req d) st [] fun u => u.mem = s.mem ∧ Map.get zeroNat u.cold.pst part = 1 ∧
            part ∉ u.power.again) ∧
          (passes → isControl 2 p = true → free → ans (.partitionStop req d) st [] fun u => u.mem = s.mem ∧
            Map.get zeroNat u.cold.pst part = 4 ∧ ∃ ms, u.presets = s.presets ++ [⟨part, ms, true⟩]) ∧
          (passes → isControl 3 p = true → free → ans (.controlReset req d) st [] fun u => u.mem = s.mem ∧
            Map.get zeroNat u.cold.pst part = 3 ∧ ∃ ms, u.presets = s.presets ++ [⟨part, ms, false⟩]) ∧
          (d = true → p.opc = 2 → s.writeBad a h p v = none → p.obj = 0xF00000 → v = [1] → Map.wf odDefault s.od = true →
            ans (.makerDebug req d h) 7 [] fun u => u.odv 0x010000 = 0 ∧ u.odv 0x010001 = 0 ∧ u.odv 0x310002 = 0 ∧ u.mem = [] ∧
              u.cold.zeroPending = true ∧ u.cold.zeroFresh = true ∧ u.power.boot = .rails ∧ u.reg .rstCause [] = s.cause 2 9 ∧
              ∀ y ∈ u.cold.sessions, y.role ≠ 1 ∧ y.role ≠ 2)) ∧
    (∀ (p : Pid) (q : Nat × InBand) (e : Pdu) (tag : List Byte), (s.cold.inband.find? fun x => x.1 == p.val && x.2.resp.isNone) = some q →
      parsePdu q.2.req = some (e, tag) → e.opc = 1 →
      let a : Asker := ⟨1, 0xFF00 + p.val, 2, [], some p.val⟩
      let holds := fun (st : Nat) (v : List Byte) => ∃ u, exec (.read (.inBand p)) s = .next u ∧ u.mem = s.mem ∧ u.od = s.od ∧
        ∀ y ∈ u.cold.inband, y.1 = p.val → y.2.resp = some (respOf e st v).bytes;
      (∀ st, s.readBad a e.obj = some st → holds st []) ∧
      (s.readBad a e.obj = none → (s.odBytes e.obj).length ≤ 1456 → holds 0 (s.odBytes e.obj))) ∧
    (∀ (port : Bool) (mac : BitVec 48) (pdu : List Byte) (num : BitVec 16) (d : Bool),
      let pn := port.toNat
      let c := s.cold
      let tells := fun (u : State) (p : Pdu) => u.cold.sent = c.sent ++ [.itnov pn mac.toNat p.bytes] ∧ u.mem = s.mem ∧ u.od = s.od;
      (parseOpen 0x10 pdu = none → exec (.openSession port mac pdu num) s = .next (if parsePdu pdu = none then s.dropFrame else s)) ∧
      (∀ p, parseOpen 0x10 pdu = some p →
        let role := ofBytes (p.payload.take 1)
        let fits := c.zeroPending = false ∧ p.payload.length = 17 ∧ 1 ≤ num.toNat ∧ num.toNat ≤ 0xFEFF ∧
          (∀ x ∈ c.sessions, x.num ≠ num.toNat) ∧ ∀ x ∈ c.openings, x.num ≠ num.toNat
        let full := 8 ≤ c.sessions.length + c.openings.length ∨
          (role = 3 ∧ ((∃ x ∈ c.sessions, x.role = 3) ∨ ∃ x ∈ c.openings, x.role = 3))
        let barred := s.roleKey role = none ∨ role ∈ c.locked;
        (¬ fits → exec (.openSession port mac pdu num) s = .next s) ∧
        (fits → full → exec (.openSession port mac pdu num) s = .next (s.sendPdu pn mac.toNat (openPdu 0x11 0 6 []))) ∧
        (fits → ¬ full → barred → ∃ u st, exec (.openSession port mac pdu num) s = .next u ∧ tells u (openPdu 0x11 0 st []) ∧
          u.cold.openings = c.openings) ∧
        (fits → ¬ full → ¬ barred → ∃ u nm, exec (.openSession port mac pdu num) s = .next u ∧ nm.length = 16 ∧
          u.cold.openings = c.openings ++ [⟨num.toNat, role, pn, mac.toNat, p.payload.drop 1, nm⟩] ∧
          tells u (openPdu 0x11 num.toNat 0 (toBytes 8 (s.optNvm 0).toNat ++ nm)))) ∧
      (parseOpen 0x12 pdu = none → exec (.auth port mac pdu d) s = .next (if parsePdu pdu = none then s.dropFrame else s)) ∧
      (∀ p, parseOpen 0x12 pdu = some p →
        let which := c.openings.find? fun x => x.num == p.session && x.port == pn && x.mac == mac.toNat
        (which = none → exec (.auth port mac pdu d) s = .next (s.sendPdu pn mac.toNat (openPdu 0x13 p.session 9 []))) ∧
        ∀ o, which = some o →
          let m := s.openMsg o
          let itnv : List Byte := [0x49, 0x54, 0x4E, 0x56, 0x2D]
          let right := fun (k : List Byte) => s.roleKey o.role = some k ∧ p.payload = hmac256 k (itnv ++ [0x41] ++ m)
          let left := c.openings.filter fun x => x.num != o.num
          let fails := ((c.fails ++ [(o.role, s.stc.sec)]).filter fun f => decide (s.stc.sec < f.2 + 60)).filter fun f => f.1 == o.role
          (∀ k, right k → ∃ u, exec (.auth port mac pdu d) s = .next u ∧ u.cold.openings = left ∧
            u.cold.sessions = c.sessions ++ [⟨o.num, o.role, o.port, o.mac,
              hmac256 k (itnv ++ [0x53] ++ o.ns ++ o.nm ++ toBytes 2 o.num), 0, [], 0, [], s.stc.sec⟩] ∧
            tells u (openPdu 0x13 o.num 0 (hmac256 k (itnv ++ [0x4D] ++ m)))) ∧
          ((∀ k, ¬ right k) → ∃ u, exec (.auth port mac pdu d) s = .next u ∧ u.cold.openings = left ∧ u.cold.sessions = c.sessions ∧
            tells u (openPdu 0x13 o.num 8 []) ∧ (d = true → u.cold.head = (c.head + 1) % 2 ^ 32) ∧
            (5 ≤ fails.length → o.role ∈ u.cold.locked) ∧ (fails.length < 5 → u.cold.locked = c.locked))) ∧
      (parsePdu pdu = none → exec (.close port mac pdu) s = .next s.dropFrame) ∧
      ∀ p tag, parsePdu pdu = some (p, tag) →
        let mine := ∃ x ∈ c.sessions, p.kind = 0x14 ∧ x.num = p.session ∧ x.port = pn ∧ x.mac = mac.toNat ∧ tag = macOf x.ks p.bytes;
        (¬ mine → exec (.close port mac pdu) s = .next s) ∧
        (mine → ∃ u, exec (.close port mac pdu) s = .next u ∧ u.cold.sessions = c.sessions.filter (fun x => x.num != p.session) ∧
          u.cold.sent = c.sent ∧ u.mem = s.mem)) ∧
    (∀ (num : BitVec 16) (obj : BitVec 24) (w : Bool) (role : BitVec 3),
      let c := s.cold;
      exec (.authTimeout num) s = .next { s with cold := { c with openings := c.openings.filter fun x => x.num != num.toNat } } ∧
      exec (.lockoutEnd role) s = .next { s with cold := { c with locked := c.locked.filter (· != role.toNat) } } ∧
      (∃ u, exec (.sessionIdleTimeout num) s = .next u ∧ u.cold.sessions = c.sessions.filter (fun x => x.num != num.toNat) ∧
        u.cold.sent = c.sent ∧ u.mem = s.mem) ∧
      (∃ u, exec (.segmentExpiry num obj w) s = .next u ∧ u.seg? num.toNat obj.toNat w = none ∧ u.cold.sessions = c.sessions ∧
        u.mem = s.mem) ∧
      exec .otherFrame s = .next s.dropFrame ∧ s.dropFrame = { s with cold := { c with dropped := c.dropped + 1 } } ∧
      (∀ x r, (c.sessions.find? fun x => x.num == num.toNat) = some x → odRow obj.toNat = some r → (r.live = false ∨ s.mainAway = false) →
        let v := s.odBytes obj.toNat
        let f : Pdu := ⟨3, x.num, x.nseq + 1, 0, 0, obj.toNat, r.typ, 0, if r.typ = tBlob then [] else v⟩
        let new := ∃ y ∈ x.subs, y.obj = obj.toNat ∧ (y.changed = true ∨ y.value ≠ v);
        (¬ new → exec (.notification num obj) s = .next s) ∧
        (new → ∃ u, exec (.notification num obj) s = .next u ∧ u.mem = s.mem ∧
          u.cold.sent = c.sent ++ [.itnov x.port x.mac (f.bytes ++ macOf x.ks f.bytes)] ∧
          ∀ y ∈ u.cold.sessions, y.num = x.num → ∀ z ∈ y.subs, z.obj = obj.toNat → z.changed = false ∧ z.value = v)) ∧
      ((c.sessions.find? fun x => x.num == num.toNat) = none ∨ odRow obj.toNat = none → exec (.notification num obj) s = .next s)) ∧
    (∀ high : Bool,
      let c := s.cold;
      (c.zeroPending = false ∨ s.power.boot ≠ .training → exec (.zeroisationComplete high) s = .next s) ∧
      (c.zeroPending = true → s.power.boot = .training → Map.wf optDefault s.opt = true → Map.wf regDefault s.regs = true →
        ∃ u, exec (.zeroisationComplete high) s = .next u ∧ u.mem = [] ∧ u.gnt.slots = [] ∧ u.power.boot = .stopped ∧
          u.cold.zeroPending = false ∧ u.cold.makerOpen = (high && c.zeroFresh) ∧
          (high = true → c.zeroFresh = true → s.makerCount < 64 → bit (u.optNvm 0xA8) s.makerCount = true) ∧
          (high = false ∨ c.zeroFresh = false → u.opt = s.opt ∧ u.rf .fltRec [blkColdframe] 61 60 ≠ 0))) ∧
    (∀ port : Bool, exec (.managementPortLinkUp port) s = .next { s with cold :=
        if port then { s.cold with link1 := true } else { s.cold with link0 := true } } ∧
      (Map.wf regDefault s.regs = true → ∃ u, exec (.managementPortLinkDown port) s = .next u ∧ u.mem = s.mem ∧
        u.cold.link0 = (s.cold.link0 && port) ∧ u.cold.link1 = (s.cold.link1 && !port) ∧ u.rf .fltRec [blkColdframe] 61 60 ≠ 0))

/-- Time (R538 to R546) and the registers of the module (R9 to R11). -/
def Obligations.TimeAndRegisters : Prop :=
  ∀ s : State,
    let p := s.cold.ptp
    let ptp := fun (u : State) => u.cold.ptp
    let best := p.best
    let upd := fun (q : Ptp) => { s with cold := { s.cold with ptp := q } }
    let lost := fun (i : Instr) => Map.wf regDefault s.regs = true → ∃ u, exec i s = .next u ∧ (ptp u).sync = 3 ∧ u.mem = s.mem ∧
      u.rf .fltRec [blkColdframe] 61 60 ≠ 0 ∧ u.stc = s.stc
    -- what an offset `o` measured in the state `x` does
    let steers := fun (u x : State) (o : Int) =>
      let g := if o.natAbs ≤ 100 then (ptp x).good + 1 else 0
      (ptp u).offset = o ∧ (ptp u).good = g ∧ (ptp u).sync = (if (ptp x).sync = 2 ∨ 16 ≤ g then 2 else 1) ∧
        (o < -1000000 → u.stc = x.stc.add (o.natAbs * 2 ^ 40) ∧ (ptp u).inc = (ptp x).inc) ∧
        (-1000000 ≤ o → u.stc = x.stc ∧ incNominal - incNominal / 2000 ≤ (ptp u).inc ∧ (ptp u).inc ≤ incNominal + incNominal / 2000)
    (s.power.aux = false → exec .stcAdvance s = .next s) ∧
    (s.power.aux = true → ∃ u, exec .stcAdvance s = .next u ∧ u.mem = s.mem ∧ u.stc.ns < 10 ^ 9 ∧ u.stc.frac < 2 ^ 40 ∧
      u.stc.nanos * 2 ^ 40 + u.stc.frac = s.stc.nanos * 2 ^ 40 + s.stc.frac + p.inc ∧
      u.pins.ppsOut = s.pins.ppsOut - (u.stc.nanos - s.stc.nanos) ∧
      u.power.wdog = s.power.wdog + (if s.rf .rstWdog [] 63 63 = 1 ∧ s.power.state = .run then 1 else 0)) ∧
    (∀ (port : Bool) (source : BitVec 80) (dom : BitVec 8) (t : BitVec 80) (seq : BitVec 16),
      let now : Int := s.stc.nanos
      let n := s.newSource;
      (s.fromMaster port source dom = false → exec (.sync port source dom t) s = .next s ∧ exec (.delayResp port source dom seq t) s = .next s) ∧
      (s.fromMaster port source dom = true → ∃ u, exec (.sync port source dom t) s = .next u ∧ (ptp u).t1 = ptpNanos t ∧ (ptp u).t2 = now ∧
        (ptp u).source = s.odv 0x040001 ∧ u.mem = s.mem ∧ (s.odv 0x040001 = 1 → steers u n (now - ptpNanos t - p.delay)) ∧
        (s.odv 0x040001 ≠ 1 → u.stc = s.stc)) ∧
      (∀ k t3, p.t3 = some (k, t3) → s.fromMaster port source dom = true → exec (.delayResp port source dom seq t) s = .next
        (if k = seq.toNat then upd { p with delay := ((p.t2 - p.t1) + (ptpNanos t - t3)) / 2, t3 := none } else s)) ∧
      (p.t3 = none → exec (.delayResp port source dom seq t) s = .next s)) ∧
    (∀ (port : Bool) (source : BitVec 80) (dom prio1 cls acc : BitVec 8) (var : BitVec 16) (prio2 : BitVec 8) (gm : W64) (steps utc : BitVec 16),
      let i : Instr := .announce port source dom prio1 cls acc var prio2 gm steps utc
      let m : Master := ⟨port.toNat, source.toNat, prio1.toNat, cls.toNat, acc.toNat, var.toNat, prio2.toNat, gm.toNat, steps.toNat, utc.toNat⟩
      let hears := s.power.aux = true ∧ dom.toNat = s.odv 0x040002;
      (¬ hears → exec i s = .next s) ∧ (hears → ∃ u, exec i s = .next u ∧ m ∈ (ptp u).masters ∧
        (∀ x, x.port ≠ m.port ∨ x.source ≠ m.source → (x ∈ (ptp u).masters ↔ x ∈ p.masters)) ∧
        (∀ x ∈ (ptp u).masters, x.port = m.port → x.source = m.source → x = m) ∧ upd (ptp u) = u)) ∧
    (∀ m, best = some m → s.power.aux = true → p.source = 1 → exec .delayRequest s = .next { s with cold := { s.cold with
      ptp := { p with seq := (p.seq + 1) % 2 ^ 16, t3 := some ((p.seq + 1) % 2 ^ 16, s.stc.nanos) },
      sent := s.cold.sent ++ [.delayReq m.port ((p.seq + 1) % 2 ^ 16)] } }) ∧
    (best = none ∨ s.power.aux = false ∨ p.source ≠ 1 → exec .delayRequest s = .next s) ∧
    (s.power.aux = true → p.source = 1 → p.sync = 1 ∨ p.sync = 2 →
      lost (.announceReceiptTimeout false) ∧ lost (.announceReceiptTimeout true)) ∧
    (s.power.aux = false ∨ p.source ≠ 1 ∨ (p.sync ≠ 1 ∧ p.sync ≠ 2) → exec (.announceReceiptTimeout false) s = .next s ∧
      exec (.announceReceiptTimeout true) s = .next (upd { p with masters := p.masters.filter fun m => some m != best })) ∧
    (p.sync = 3 → exec .holdoverLimitExpiry s = .next (upd { p with sync := 0, good := 0 })) ∧
    (p.sync ≠ 3 → exec .holdoverLimitExpiry s = .next s) ∧
    (let at1 := { s with pins := { s.pins with ppsIn := true } }
      let x := at1.newSource
      let e := x.ppsPhase;
      exec (.ppsIn false) s = .next { s with pins := { s.pins with ppsIn := false } } ∧
      (s.pins.ppsIn = true ∨ s.power.aux = false → exec (.ppsIn true) s = .next at1) ∧
      (s.pins.ppsIn = false → s.power.aux = true →
        (s.odv 0x040001 ≠ 2 → exec (.ppsIn true) s = .next x) ∧
        (s.odv 0x040001 = 2 → (2 ≤ (ptp x).sync → 100000 < e.natAbs → ∃ u, exec (.ppsIn true) s = .next u ∧
            (ptp u).ppsIgnored = p.ppsIgnored + 1 ∧ (ptp u).sync = (ptp x).sync ∧ u.stc = s.stc) ∧
          (¬ (2 ≤ (ptp x).sync ∧ 100000 < e.natAbs) → best = none → ∃ u, exec (.ppsIn true) s = .next u ∧ (ptp u).ppsMiss = 0 ∧
            steers u x e)))) ∧
    (p.source ≠ 2 ∨ s.power.aux = false → exec .ppsInMissing s = .next s) ∧
    (p.source = 2 → s.power.aux = true → (p.ppsMiss < 2 → exec .ppsInMissing s = .next (upd { p with ppsMiss := p.ppsMiss + 1 })) ∧
      (2 ≤ p.ppsMiss → p.sync = 1 ∨ p.sync = 2 → lost .ppsInMissing)) ∧
    (let rises := s.odv 0x040007 = 1 ∧ s.power.main = true ∧ s.power.heldReset = false ∧ s.stc.ns * 2 ^ 40 + s.stc.frac < p.inc;
      (rises → exec .ppsOut s = .next { s with pins := { s.pins with ppsOut := 10 ^ 8 } }) ∧ (¬ rises → exec .ppsOut s = .next s)) ∧
    (let a := s.odv 0x04000A;
      (a = alarmOff ∨ s.now96 < a → exec .stcAlarm s = .next s) ∧
      (a ≠ alarmOff → a ≤ s.now96 → Map.wf odDefault s.od = true → ∃ u, exec .stcAlarm s = .next u ∧ u.odv 0x04000A = alarmOff ∧
        (∀ x ∈ u.cold.sessions, ∀ y ∈ x.subs, y.obj = 0x04000A → y.changed = true) ∧
        (s.power.state = .sleep → s.power.main = true → u.power.state = .run ∧ u.rf .pwrStat [] 59 56 = 5) ∧
        (s.power.state ≠ .sleep → u.power.state = s.power.state ∧ u.mem = s.mem))) ∧
    (∀ (addr : BitVec 48) (v : W64),
      let k := addr.toNat
      let reg := isModReg k = true ∧ k % 8 = 0
      let q := if s.scn.running = true then s.scnRecord (.cfgw s.scn.epoch k v) else s;
      (¬ reg → exec (.registerWrite addr v) s = .next s) ∧
      (reg → (regAt k = none → exec (.registerWrite addr v) s = .next q) ∧
        ∀ r ix, regAt k = some (r, ix) → exec (.registerWrite addr v) s = .next (q.regApply r ix v) ∧
          (r ∈ [Reg.fltFcfg, .pmcCtl, .pmcCnt, .pmcSctl, .pmcSbuf, .potPfdis, .trlAckto, .trlAbto, .trlRdwin, .scnEpcfg, .scnJcfg, .mcScrub,
              .rstRtycfg] → r.addr ix = k → Map.wf regDefault q.regs = true → ∃ u, exec (.registerWrite addr v) s = .next u ∧
            u.reg r ix = fieldsWrite r.row.fields false v (q.reg r ix) ∧ u.mem = q.mem ∧ u.scn = q.scn ∧
            ∀ r' ix', r'.addr ix' ≠ k → u.reg r' ix' = q.reg r' ix'))) ∧
    (∀ (t : ThreadId) (addr : BitVec 48),
      let k := addr.toNat
      let secure := (s.thr t.val).run = .running ∧ (s.thr t.val).cur.pl = 3
      let waits := fun (k : Nat) => s.pageBusy t.val (k / 4096) = true
      let stcs := Reg.cfmStcs.addr []
      let chg := Reg.cfmChg.addr []
      let h := s.hardenThr t.val
      let kept := fun (u : State) (k : Nat) (v : W64) => (u.thr t.val).devVal = some (k, v.toNat) ∧ (u.thr t.val).cur = (h.thr t.val).cur ∧
        u.mem = h.mem;
      ((s.thr t.val).groups = [] → (∀ l ∈ (s.thr t.val).cb, l.data.length ≠ 256) → h = s) ∧
      (¬ secure ∨ isModReg k = false ∨ k % 8 ≠ 0 ∨ waits k → exec (.registerRead t addr) s = .next s) ∧
      (¬ secure ∨ waits stcs → exec (.cfmStcs t) s = .next s) ∧ (¬ secure ∨ waits chg → exec (.cfmChg t) s = .next s) ∧
      (secure → Map.wf Thread.reset h.threads = true → isModReg k = true → k % 8 = 0 → ¬ waits k →
        (regAt k = none → ∃ u, exec (.registerRead t addr) s = .next u ∧ kept u k 0 ∧ u.regs = h.regs) ∧
        ∀ r ix, regAt k = some (r, ix) → r ≠ .cfmStcs → r ≠ .cfmStcn → ∃ u, exec (.registerRead t addr) s = .next u ∧
          kept u k (h.regRead r ix) ∧ (r = .pwrGatereq → u.gateEvent = false) ∧
          (r = .scnStat → u.scn.roleEvent = false ∧ u.scn.resends = 0) ∧ (r = .cfmChg → u.cold.chg = h.cold.chg.drop 1)) ∧
      (secure → Map.wf Thread.reset h.threads = true → ¬ waits stcs → ∃ u, exec (.cfmStcs t) s = .next u ∧
        kept u stcs (h.regRead .cfmStcs []) ∧ (u.thr t.val).stcn = h.stampNs) ∧
      (secure → h = s → Map.wf Thread.reset s.threads = true → ¬ waits chg → s.cold.chgOvf = false →
        (s.cold.chg = [] → ∃ u, exec (.cfmChg t) s = .next u ∧ kept u chg (s.regRead .cfmChg []) ∧ u.cold.chg = [] ∧ u.od = s.od) ∧
        ∀ o rest, s.cold.chg = o :: rest → o = 0x080000 ∨ o = 0x110001 → s.scn.running = false → Map.wf regDefault s.regs = true →
          s.odv o < 2 → ∃ u, exec (.cfmChg t) s = .next u ∧ kept u chg (s.regRead .cfmChg []) ∧ u.cold.chg = rest ∧
            (o = 0x080000 → u.rf .fltFcfg [] 16 16 = s.odv o) ∧ (o = 0x110001 → s.odv o = 1 → u.rf .rstRtycfg [] 15 0 = 1)))
end

