-- ==== Sys2Proof/Laws/Map.lean ====
section
/-! SUPPORT. Laws of the sparse maps: what reading after writing gives, and that writing keeps the canonical
form. -/

namespace Sys2Proof.Machine

/-- Below its first key, a map in canonical form reads the default. -/
theorem Map.get_of_lt {α : Type} [DecidableEq α] {d : Nat → α} :
    ∀ {m : Map α} {lo k : Nat}, Map.wfFrom d lo m = true → k < lo → Map.get d m k = d k
  | [], _, _, _, _ => rfl
  | (j, v) :: m, lo, k, h, hk => by
    simp only [Map.wfFrom, Bool.and_eq_true, decide_eq_true_eq] at h
    have h1 : k ≠ j := by omega
    have h2 : k < j := by omega
    simp [Map.get, h1, h2]

theorem Map.wfFrom_mono {α : Type} [DecidableEq α] {d : Nat → α} {m : Map α} {lo lo' : Nat}
    (h : Map.wfFrom d lo m = true) (hl : lo' ≤ lo) : Map.wfFrom d lo' m = true := by
  cases m with
  | nil => rfl
  | cons p m =>
    simp only [Map.wfFrom, Bool.and_eq_true, decide_eq_true_eq] at h ⊢
    exact ⟨⟨by omega, h.1.2⟩, h.2⟩

theorem Map.wfFrom_erase {α : Type} [DecidableEq α] {d : Nat → α} :
    ∀ {m : Map α} {lo : Nat} (k : Nat), Map.wfFrom d lo m = true → Map.wfFrom d lo (Map.erase m k) = true
  | [], _, _, _ => rfl
  | (j, v) :: m, lo, k, h => by
    have h' := h
    simp only [Map.wfFrom, Bool.and_eq_true, decide_eq_true_eq] at h'
    unfold Map.erase
    split
    · exact Map.wfFrom_mono h'.2 (by omega)
    · split
      · exact h
      · simp only [Map.wfFrom, Bool.and_eq_true, decide_eq_true_eq]
        exact ⟨h'.1, Map.wfFrom_erase k h'.2⟩

theorem Map.wfFrom_put {α : Type} [DecidableEq α] {d : Nat → α} :
    ∀ {m : Map α} {lo k : Nat} {v : α}, Map.wfFrom d lo m = true → lo ≤ k → v ≠ d k →
      Map.wfFrom d lo (Map.put m k v) = true
  | [], lo, k, v, _, hk, hv => by simp [Map.put, Map.wfFrom, hk, hv]
  | (j, w) :: m, lo, k, v, h, hk, hv => by
    have h' := h
    simp only [Map.wfFrom, Bool.and_eq_true, decide_eq_true_eq] at h'
    unfold Map.put
    split
    · subst_vars
      simp only [Map.wfFrom, Bool.and_eq_true, decide_eq_true_eq]
      exact ⟨⟨hk, hv⟩, h'.2⟩
    · split
      · simp only [Map.wfFrom, Bool.and_eq_true, decide_eq_true_eq]
        exact ⟨⟨hk, hv⟩, ⟨by omega, h'.1.2⟩, h'.2⟩
      · simp only [Map.wfFrom, Bool.and_eq_true, decide_eq_true_eq]
        exact ⟨h'.1, Map.wfFrom_put h'.2 (by omega) hv⟩

/-- Writing keeps the canonical form. -/
theorem Map.wf_set {α : Type} [DecidableEq α] {d : Nat → α} {m : Map α} (k : Nat) (v : α)
    (h : Map.wf d m = true) : Map.wf d (Map.set d m k v) = true := by
  unfold Map.set
  split
  · exact Map.wfFrom_erase k h
  · exact Map.wfFrom_put h (Nat.zero_le k) ‹_›

theorem Map.get_erase_self {α : Type} [DecidableEq α] {d : Nat → α} :
    ∀ {m : Map α} {lo : Nat} (k : Nat), Map.wfFrom d lo m = true → Map.get d (Map.erase m k) k = d k
  | [], _, _, _ => rfl
  | (j, v) :: m, lo, k, h => by
    simp only [Map.wfFrom, Bool.and_eq_true, decide_eq_true_eq] at h
    unfold Map.erase
    split
    · exact Map.get_of_lt h.2 (by omega)
    · split
      · simp [Map.get, *]
      · simp only [Map.get, *, if_false]
        exact Map.get_erase_self k h.2

theorem Map.get_erase_ne {α : Type} [DecidableEq α] {d : Nat → α} :
    ∀ {m : Map α} {lo k i : Nat}, Map.wfFrom d lo m = true → i ≠ k →
      Map.get d (Map.erase m k) i = Map.get d m i
  | [], _, _, _, _, _ => rfl
  | (j, v) :: m, lo, k, i, h, hi => by
    simp only [Map.wfFrom, Bool.and_eq_true, decide_eq_true_eq] at h
    unfold Map.erase
    split
    · rename_i hkj
      subst hkj
      simp only [Map.get, hi, if_false]
      split
      · exact Map.get_of_lt h.2 (by omega)
      · rfl
    · split
      · rfl
      · simp only [Map.get]
        rw [Map.get_erase_ne h.2 hi]

theorem Map.get_put_self {α : Type} {d : Nat → α} :
    ∀ (m : Map α) (k : Nat) (v : α), Map.get d (Map.put m k v) k = v
  | [], k, v => by simp [Map.put, Map.get]
  | (j, w) :: m, k, v => by
    unfold Map.put
    split
    · simp [Map.get, *]
    · split
      · simp [Map.get]
      · simp only [Map.get, *, if_false]
        exact Map.get_put_self m k v

theorem Map.get_put_ne {α : Type} {d : Nat → α} :
    ∀ (m : Map α) {k i : Nat} (v : α), i ≠ k → Map.get d (Map.put m k v) i = Map.get d m i
  | [], k, i, v, h => by simp [Map.put, Map.get, h]
  | (j, w) :: m, k, i, v, h => by
    unfold Map.put
    split
    · subst_vars; simp [Map.get, h]
    · split
      · rename_i h1 h2
        simp only [Map.get, h, if_false]
        split
        · have h3 : i ≠ j := by omega
          have h4 : i < j := by omega
          simp [h3, h4]
        · rfl
      · simp only [Map.get]
        rw [Map.get_put_ne m v h]

/-- A key reads what was last written to it. -/
theorem Map.get_set_self {α : Type} [DecidableEq α] {d : Nat → α} {m : Map α} (k : Nat) (v : α)
    (h : Map.wf d m = true) : Map.get d (Map.set d m k v) k = v := by
  unfold Map.set
  split
  · rw [Map.get_erase_self k h]; exact Eq.symm ‹_›
  · exact Map.get_put_self m k v

/-- Writing one key leaves every other key. -/
theorem Map.get_set_ne {α : Type} [DecidableEq α] {d : Nat → α} {m : Map α} {k i : Nat} (v : α)
    (h : Map.wf d m = true) (hi : i ≠ k) : Map.get d (Map.set d m k v) i = Map.get d m i := by
  unfold Map.set
  split
  · exact Map.get_erase_ne h hi
  · exact Map.get_put_ne m v hi

/-! ## Sums over a map -/

theorem Map.sum_erase {α : Type} {d : Nat → α} (g : Nat × α → Nat) (hg : ∀ k, g (k, d k) = 0) :
    ∀ (m : Map α) (k : Nat), ((Map.erase m k).map g).sum + g (k, Map.get d m k) = (m.map g).sum
  | [], k => by simp [Map.erase, Map.get, hg]
  | (j, v) :: m, k => by
    have ih := Map.sum_erase g hg m k
    unfold Map.erase Map.get
    split
    · subst_vars; simp; omega
    · split
      · simp [hg]
      · simp only [List.map_cons, List.sum_cons]; omega

theorem Map.sum_put {α : Type} {d : Nat → α} (g : Nat × α → Nat) (hg : ∀ k, g (k, d k) = 0) :
    ∀ (m : Map α) (k : Nat) (v : α), ((Map.put m k v).map g).sum + g (k, Map.get d m k) = (m.map g).sum + g (k, v)
  | [], k, v => by simp [Map.put, Map.get, hg]
  | (j, w) :: m, k, v => by
    have ih := Map.sum_put g hg m k v
    unfold Map.put Map.get
    split
    · subst_vars; simp; omega
    · split
      · simp [hg]; omega
      · simp only [List.map_cons, List.sum_cons]; omega

/-- A sum over a map changes by what its written key contributes. -/
theorem Map.sum_set {α : Type} [DecidableEq α] {d : Nat → α} (g : Nat × α → Nat) (hg : ∀ k, g (k, d k) = 0)
    (m : Map α) (k : Nat) (v : α) :
    ((Map.set d m k v).map g).sum + g (k, Map.get d m k) = (m.map g).sum + g (k, v) := by
  unfold Map.set
  split
  · rename_i h
    subst h
    have := Map.sum_erase g hg m k
    rw [hg]; omega
  · exact Map.sum_put g hg m k v

end Sys2Proof.Machine
end

