-- ==== Sys2Proof/Laws/State.lean ====
section
/-! SUPPORT. Each field of the state after each named update: the one field that the update writes, and every
other as it was. -/

namespace Sys2Proof.Machine

variable (s : State)

/-! ## setThr -/

@[simp] theorem State.setThr_pending (m : Nat) (t : Thread) : (s.setThr m t).pending = s.pending := rfl
@[simp] theorem State.setThr_mem (m : Nat) (t : Thread) : (s.setThr m t).mem = s.mem := rfl
@[simp] theorem State.setThr_poison (m : Nat) (t : Thread) : (s.setThr m t).poison = s.poison := rfl
@[simp] theorem State.setThr_regs (m : Nat) (t : Thread) : (s.setThr m t).regs = s.regs := rfl
@[simp] theorem State.setThr_threads (m : Nat) (t : Thread) : (s.setThr m t).threads = Map.set Thread.reset s.threads m t := rfl
@[simp] theorem State.setThr_cores (m : Nat) (t : Thread) : (s.setThr m t).cores = s.cores := rfl
@[simp] theorem State.setThr_l2 (m : Nat) (t : Thread) : (s.setThr m t).l2 = s.l2 := rfl
@[simp] theorem State.setThr_l3 (m : Nat) (t : Thread) : (s.setThr m t).l3 = s.l3 := rfl
@[simp] theorem State.setThr_txns (m : Nat) (t : Thread) : (s.setThr m t).txns = s.txns := rfl
@[simp] theorem State.setThr_ingress (m : Nat) (t : Thread) : (s.setThr m t).ingress = s.ingress := rfl
@[simp] theorem State.setThr_atRing (m : Nat) (t : Thread) : (s.setThr m t).atRing = s.atRing := rfl
@[simp] theorem State.setThr_prefCmp (m : Nat) (t : Thread) : (s.setThr m t).prefCmp = s.prefCmp := rfl
@[simp] theorem State.setThr_wbs (m : Nat) (t : Thread) : (s.setThr m t).wbs = s.wbs := rfl
@[simp] theorem State.setThr_rcm (m : Nat) (t : Thread) : (s.setThr m t).rcm = s.rcm := rfl
@[simp] theorem State.setThr_pinned (m : Nat) (t : Thread) : (s.setThr m t).pinned = s.pinned := rfl
@[simp] theorem State.setThr_pinRes (m : Nat) (t : Thread) : (s.setThr m t).pinRes = s.pinRes := rfl
@[simp] theorem State.setThr_pinOver (m : Nat) (t : Thread) : (s.setThr m t).pinOver = s.pinOver := rfl
@[simp] theorem State.setThr_potc (m : Nat) (t : Thread) : (s.setThr m t).potc = s.potc := rfl
@[simp] theorem State.setThr_mcq (m : Nat) (t : Thread) : (s.setThr m t).mcq = s.mcq := rfl
@[simp] theorem State.setThr_dram (m : Nat) (t : Thread) : (s.setThr m t).dram = s.dram := rfl
@[simp] theorem State.setThr_ways (m : Nat) (t : Thread) : (s.setThr m t).ways = s.ways := rfl
@[simp] theorem State.setThr_dpc (m : Nat) (t : Thread) : (s.setThr m t).dpc = s.dpc := rfl
@[simp] theorem State.setThr_ranks (m : Nat) (t : Thread) : (s.setThr m t).ranks = s.ranks := rfl
@[simp] theorem State.setThr_x8 (m : Nat) (t : Thread) : (s.setThr m t).x8 = s.x8 := rfl
@[simp] theorem State.setThr_spd (m : Nat) (t : Thread) : (s.setThr m t).spd = s.spd := rfl
@[simp] theorem State.setThr_mcs (m : Nat) (t : Thread) : (s.setThr m t).mcs = s.mcs := rfl
@[simp] theorem State.setThr_od (m : Nat) (t : Thread) : (s.setThr m t).od = s.od := rfl
@[simp] theorem State.setThr_stc (m : Nat) (t : Thread) : (s.setThr m t).stc = s.stc := rfl
@[simp] theorem State.setThr_ownFaults (m : Nat) (t : Thread) : (s.setThr m t).ownFaults = s.ownFaults := rfl
@[simp] theorem State.setThr_fltSeen (m : Nat) (t : Thread) : (s.setThr m t).fltSeen = s.fltSeen := rfl
@[simp] theorem State.setThr_gateEvent (m : Nat) (t : Thread) : (s.setThr m t).gateEvent = s.gateEvent := rfl
@[simp] theorem State.setThr_fltHist (m : Nat) (t : Thread) : (s.setThr m t).fltHist = s.fltHist := rfl
@[simp] theorem State.setThr_scn (m : Nat) (t : Thread) : (s.setThr m t).scn = s.scn := rfl
@[simp] theorem State.setThr_pins (m : Nat) (t : Thread) : (s.setThr m t).pins = s.pins := rfl
@[simp] theorem State.setThr_mmio (m : Nat) (t : Thread) : (s.setThr m t).mmio = s.mmio := rfl
@[simp] theorem State.setThr_trl (m : Nat) (t : Thread) : (s.setThr m t).trl = s.trl := rfl
@[simp] theorem State.setThr_ports (m : Nat) (t : Thread) : (s.setThr m t).ports = s.ports := rfl
@[simp] theorem State.setThr_held (m : Nat) (t : Thread) : (s.setThr m t).held = s.held := rfl
@[simp] theorem State.setThr_rated604 (m : Nat) (t : Thread) : (s.setThr m t).rated604 = s.rated604 := rfl
@[simp] theorem State.setThr_termWait (m : Nat) (t : Thread) : (s.setThr m t).termWait = s.termWait := rfl
@[simp] theorem State.setThr_dmaUse (m : Nat) (t : Thread) : (s.setThr m t).dmaUse = s.dmaUse := rfl
@[simp] theorem State.setThr_dmaHeld (m : Nat) (t : Thread) : (s.setThr m t).dmaHeld = s.dmaHeld := rfl
@[simp] theorem State.setThr_replay (m : Nat) (t : Thread) : (s.setThr m t).replay = s.replay := rfl
@[simp] theorem State.setThr_replayFull (m : Nat) (t : Thread) : (s.setThr m t).replayFull = s.replayFull := rfl
@[simp] theorem State.setThr_sve (m : Nat) (t : Thread) : (s.setThr m t).sve = s.sve := rfl
@[simp] theorem State.setThr_gnt (m : Nat) (t : Thread) : (s.setThr m t).gnt = s.gnt := rfl
@[simp] theorem State.setThr_sparings (m : Nat) (t : Thread) : (s.setThr m t).sparings = s.sparings := rfl
@[simp] theorem State.setThr_isls (m : Nat) (t : Thread) : (s.setThr m t).isls = s.isls := rfl
@[simp] theorem State.setThr_power (m : Nat) (t : Thread) : (s.setThr m t).power = s.power := rfl
@[simp] theorem State.setThr_patch (m : Nat) (t : Thread) : (s.setThr m t).patch = s.patch := rfl
@[simp] theorem State.setThr_opt (m : Nat) (t : Thread) : (s.setThr m t).opt = s.opt := rfl
@[simp] theorem State.setThr_optIn (m : Nat) (t : Thread) : (s.setThr m t).optIn = s.optIn := rfl
@[simp] theorem State.setThr_cold (m : Nat) (t : Thread) : (s.setThr m t).cold = s.cold := rfl
@[simp] theorem State.setThr_gpos (m : Nat) (t : Thread) : (s.setThr m t).gpos = s.gpos := rfl
@[simp] theorem State.setThr_pmcBad (m : Nat) (t : Thread) : (s.setThr m t).pmcBad = s.pmcBad := rfl
@[simp] theorem State.setThr_presets (m : Nat) (t : Thread) : (s.setThr m t).presets = s.presets := rfl
@[simp] theorem State.setThr_offers (m : Nat) (t : Thread) : (s.setThr m t).offers = s.offers := rfl
@[simp] theorem State.setThr_egressIdle (m : Nat) (t : Thread) : (s.setThr m t).egressIdle = s.egressIdle := rfl
@[simp] theorem State.setThr_free (m : Nat) (t : Thread) : (s.setThr m t).free = s.free := rfl

/-! ## setCore -/

@[simp] theorem State.setCore_pending (c : Nat) (x : Core) : (s.setCore c x).pending = s.pending := rfl
@[simp] theorem State.setCore_mem (c : Nat) (x : Core) : (s.setCore c x).mem = s.mem := rfl
@[simp] theorem State.setCore_poison (c : Nat) (x : Core) : (s.setCore c x).poison = s.poison := rfl
@[simp] theorem State.setCore_regs (c : Nat) (x : Core) : (s.setCore c x).regs = s.regs := rfl
@[simp] theorem State.setCore_threads (c : Nat) (x : Core) : (s.setCore c x).threads = s.threads := rfl
@[simp] theorem State.setCore_cores (c : Nat) (x : Core) : (s.setCore c x).cores = Map.set Core.reset s.cores c x := rfl
@[simp] theorem State.setCore_l2 (c : Nat) (x : Core) : (s.setCore c x).l2 = s.l2 := rfl
@[simp] theorem State.setCore_l3 (c : Nat) (x : Core) : (s.setCore c x).l3 = s.l3 := rfl
@[simp] theorem State.setCore_txns (c : Nat) (x : Core) : (s.setCore c x).txns = s.txns := rfl
@[simp] theorem State.setCore_ingress (c : Nat) (x : Core) : (s.setCore c x).ingress = s.ingress := rfl
@[simp] theorem State.setCore_atRing (c : Nat) (x : Core) : (s.setCore c x).atRing = s.atRing := rfl
@[simp] theorem State.setCore_prefCmp (c : Nat) (x : Core) : (s.setCore c x).prefCmp = s.prefCmp := rfl
@[simp] theorem State.setCore_wbs (c : Nat) (x : Core) : (s.setCore c x).wbs = s.wbs := rfl
@[simp] theorem State.setCore_rcm (c : Nat) (x : Core) : (s.setCore c x).rcm = s.rcm := rfl
@[simp] theorem State.setCore_pinned (c : Nat) (x : Core) : (s.setCore c x).pinned = s.pinned := rfl
@[simp] theorem State.setCore_pinRes (c : Nat) (x : Core) : (s.setCore c x).pinRes = s.pinRes := rfl
@[simp] theorem State.setCore_pinOver (c : Nat) (x : Core) : (s.setCore c x).pinOver = s.pinOver := rfl
@[simp] theorem State.setCore_potc (c : Nat) (x : Core) : (s.setCore c x).potc = s.potc := rfl
@[simp] theorem State.setCore_mcq (c : Nat) (x : Core) : (s.setCore c x).mcq = s.mcq := rfl
@[simp] theorem State.setCore_dram (c : Nat) (x : Core) : (s.setCore c x).dram = s.dram := rfl
@[simp] theorem State.setCore_ways (c : Nat) (x : Core) : (s.setCore c x).ways = s.ways := rfl
@[simp] theorem State.setCore_dpc (c : Nat) (x : Core) : (s.setCore c x).dpc = s.dpc := rfl
@[simp] theorem State.setCore_ranks (c : Nat) (x : Core) : (s.setCore c x).ranks = s.ranks := rfl
@[simp] theorem State.setCore_x8 (c : Nat) (x : Core) : (s.setCore c x).x8 = s.x8 := rfl
@[simp] theorem State.setCore_spd (c : Nat) (x : Core) : (s.setCore c x).spd = s.spd := rfl
@[simp] theorem State.setCore_mcs (c : Nat) (x : Core) : (s.setCore c x).mcs = s.mcs := rfl
@[simp] theorem State.setCore_od (c : Nat) (x : Core) : (s.setCore c x).od = s.od := rfl
@[simp] theorem State.setCore_stc (c : Nat) (x : Core) : (s.setCore c x).stc = s.stc := rfl
@[simp] theorem State.setCore_ownFaults (c : Nat) (x : Core) : (s.setCore c x).ownFaults = s.ownFaults := rfl
@[simp] theorem State.setCore_fltSeen (c : Nat) (x : Core) : (s.setCore c x).fltSeen = s.fltSeen := rfl
@[simp] theorem State.setCore_gateEvent (c : Nat) (x : Core) : (s.setCore c x).gateEvent = s.gateEvent := rfl
@[simp] theorem State.setCore_fltHist (c : Nat) (x : Core) : (s.setCore c x).fltHist = s.fltHist := rfl
@[simp] theorem State.setCore_scn (c : Nat) (x : Core) : (s.setCore c x).scn = s.scn := rfl
@[simp] theorem State.setCore_pins (c : Nat) (x : Core) : (s.setCore c x).pins = s.pins := rfl
@[simp] theorem State.setCore_mmio (c : Nat) (x : Core) : (s.setCore c x).mmio = s.mmio := rfl
@[simp] theorem State.setCore_trl (c : Nat) (x : Core) : (s.setCore c x).trl = s.trl := rfl
@[simp] theorem State.setCore_ports (c : Nat) (x : Core) : (s.setCore c x).ports = s.ports := rfl
@[simp] theorem State.setCore_held (c : Nat) (x : Core) : (s.setCore c x).held = s.held := rfl
@[simp] theorem State.setCore_rated604 (c : Nat) (x : Core) : (s.setCore c x).rated604 = s.rated604 := rfl
@[simp] theorem State.setCore_termWait (c : Nat) (x : Core) : (s.setCore c x).termWait = s.termWait := rfl
@[simp] theorem State.setCore_dmaUse (c : Nat) (x : Core) : (s.setCore c x).dmaUse = s.dmaUse := rfl
@[simp] theorem State.setCore_dmaHeld (c : Nat) (x : Core) : (s.setCore c x).dmaHeld = s.dmaHeld := rfl
@[simp] theorem State.setCore_replay (c : Nat) (x : Core) : (s.setCore c x).replay = s.replay := rfl
@[simp] theorem State.setCore_replayFull (c : Nat) (x : Core) : (s.setCore c x).replayFull = s.replayFull := rfl
@[simp] theorem State.setCore_sve (c : Nat) (x : Core) : (s.setCore c x).sve = s.sve := rfl
@[simp] theorem State.setCore_gnt (c : Nat) (x : Core) : (s.setCore c x).gnt = s.gnt := rfl
@[simp] theorem State.setCore_sparings (c : Nat) (x : Core) : (s.setCore c x).sparings = s.sparings := rfl
@[simp] theorem State.setCore_isls (c : Nat) (x : Core) : (s.setCore c x).isls = s.isls := rfl
@[simp] theorem State.setCore_power (c : Nat) (x : Core) : (s.setCore c x).power = s.power := rfl
@[simp] theorem State.setCore_patch (c : Nat) (x : Core) : (s.setCore c x).patch = s.patch := rfl
@[simp] theorem State.setCore_opt (c : Nat) (x : Core) : (s.setCore c x).opt = s.opt := rfl
@[simp] theorem State.setCore_optIn (c : Nat) (x : Core) : (s.setCore c x).optIn = s.optIn := rfl
@[simp] theorem State.setCore_cold (c : Nat) (x : Core) : (s.setCore c x).cold = s.cold := rfl
@[simp] theorem State.setCore_gpos (c : Nat) (x : Core) : (s.setCore c x).gpos = s.gpos := rfl
@[simp] theorem State.setCore_pmcBad (c : Nat) (x : Core) : (s.setCore c x).pmcBad = s.pmcBad := rfl
@[simp] theorem State.setCore_presets (c : Nat) (x : Core) : (s.setCore c x).presets = s.presets := rfl
@[simp] theorem State.setCore_offers (c : Nat) (x : Core) : (s.setCore c x).offers = s.offers := rfl
@[simp] theorem State.setCore_egressIdle (c : Nat) (x : Core) : (s.setCore c x).egressIdle = s.egressIdle := rfl
@[simp] theorem State.setCore_free (c : Nat) (x : Core) : (s.setCore c x).free = s.free := rfl

/-! ## wrByte -/

@[simp] theorem State.wrByte_pending (a : Nat) (b : Byte) : (s.wrByte a b).pending = s.pending := rfl
@[simp] theorem State.wrByte_mem (a : Nat) (b : Byte) : (s.wrByte a b).mem = Map.set memDefault s.mem a b := rfl
@[simp] theorem State.wrByte_poison (a : Nat) (b : Byte) : (s.wrByte a b).poison = s.poison := rfl
@[simp] theorem State.wrByte_regs (a : Nat) (b : Byte) : (s.wrByte a b).regs = s.regs := rfl
@[simp] theorem State.wrByte_threads (a : Nat) (b : Byte) : (s.wrByte a b).threads = s.threads := rfl
@[simp] theorem State.wrByte_cores (a : Nat) (b : Byte) : (s.wrByte a b).cores = s.cores := rfl
@[simp] theorem State.wrByte_l2 (a : Nat) (b : Byte) : (s.wrByte a b).l2 = s.l2 := rfl
@[simp] theorem State.wrByte_l3 (a : Nat) (b : Byte) : (s.wrByte a b).l3 = s.l3 := rfl
@[simp] theorem State.wrByte_txns (a : Nat) (b : Byte) : (s.wrByte a b).txns = s.txns := rfl
@[simp] theorem State.wrByte_ingress (a : Nat) (b : Byte) : (s.wrByte a b).ingress = s.ingress := rfl
@[simp] theorem State.wrByte_atRing (a : Nat) (b : Byte) : (s.wrByte a b).atRing = s.atRing := rfl
@[simp] theorem State.wrByte_prefCmp (a : Nat) (b : Byte) : (s.wrByte a b).prefCmp = s.prefCmp := rfl
@[simp] theorem State.wrByte_wbs (a : Nat) (b : Byte) : (s.wrByte a b).wbs = s.wbs := rfl
@[simp] theorem State.wrByte_rcm (a : Nat) (b : Byte) : (s.wrByte a b).rcm = s.rcm := rfl
@[simp] theorem State.wrByte_pinned (a : Nat) (b : Byte) : (s.wrByte a b).pinned = s.pinned := rfl
@[simp] theorem State.wrByte_pinRes (a : Nat) (b : Byte) : (s.wrByte a b).pinRes = s.pinRes := rfl
@[simp] theorem State.wrByte_pinOver (a : Nat) (b : Byte) : (s.wrByte a b).pinOver = s.pinOver := rfl
@[simp] theorem State.wrByte_potc (a : Nat) (b : Byte) : (s.wrByte a b).potc = s.potc := rfl
@[simp] theorem State.wrByte_mcq (a : Nat) (b : Byte) : (s.wrByte a b).mcq = s.mcq := rfl
@[simp] theorem State.wrByte_dram (a : Nat) (b : Byte) : (s.wrByte a b).dram = s.dram := rfl
@[simp] theorem State.wrByte_ways (a : Nat) (b : Byte) : (s.wrByte a b).ways = s.ways := rfl
@[simp] theorem State.wrByte_dpc (a : Nat) (b : Byte) : (s.wrByte a b).dpc = s.dpc := rfl
@[simp] theorem State.wrByte_ranks (a : Nat) (b : Byte) : (s.wrByte a b).ranks = s.ranks := rfl
@[simp] theorem State.wrByte_x8 (a : Nat) (b : Byte) : (s.wrByte a b).x8 = s.x8 := rfl
@[simp] theorem State.wrByte_spd (a : Nat) (b : Byte) : (s.wrByte a b).spd = s.spd := rfl
@[simp] theorem State.wrByte_mcs (a : Nat) (b : Byte) : (s.wrByte a b).mcs = s.mcs := rfl
@[simp] theorem State.wrByte_od (a : Nat) (b : Byte) : (s.wrByte a b).od = s.od := rfl
@[simp] theorem State.wrByte_stc (a : Nat) (b : Byte) : (s.wrByte a b).stc = s.stc := rfl
@[simp] theorem State.wrByte_ownFaults (a : Nat) (b : Byte) : (s.wrByte a b).ownFaults = s.ownFaults := rfl
@[simp] theorem State.wrByte_fltSeen (a : Nat) (b : Byte) : (s.wrByte a b).fltSeen = s.fltSeen := rfl
@[simp] theorem State.wrByte_gateEvent (a : Nat) (b : Byte) : (s.wrByte a b).gateEvent = s.gateEvent := rfl
@[simp] theorem State.wrByte_fltHist (a : Nat) (b : Byte) : (s.wrByte a b).fltHist = s.fltHist := rfl
@[simp] theorem State.wrByte_scn (a : Nat) (b : Byte) : (s.wrByte a b).scn = s.scn := rfl
@[simp] theorem State.wrByte_pins (a : Nat) (b : Byte) : (s.wrByte a b).pins = s.pins := rfl
@[simp] theorem State.wrByte_mmio (a : Nat) (b : Byte) : (s.wrByte a b).mmio = s.mmio := rfl
@[simp] theorem State.wrByte_trl (a : Nat) (b : Byte) : (s.wrByte a b).trl = s.trl := rfl
@[simp] theorem State.wrByte_ports (a : Nat) (b : Byte) : (s.wrByte a b).ports = s.ports := rfl
@[simp] theorem State.wrByte_held (a : Nat) (b : Byte) : (s.wrByte a b).held = s.held := rfl
@[simp] theorem State.wrByte_rated604 (a : Nat) (b : Byte) : (s.wrByte a b).rated604 = s.rated604 := rfl
@[simp] theorem State.wrByte_termWait (a : Nat) (b : Byte) : (s.wrByte a b).termWait = s.termWait := rfl
@[simp] theorem State.wrByte_dmaUse (a : Nat) (b : Byte) : (s.wrByte a b).dmaUse = s.dmaUse := rfl
@[simp] theorem State.wrByte_dmaHeld (a : Nat) (b : Byte) : (s.wrByte a b).dmaHeld = s.dmaHeld := rfl
@[simp] theorem State.wrByte_replay (a : Nat) (b : Byte) : (s.wrByte a b).replay = s.replay := rfl
@[simp] theorem State.wrByte_replayFull (a : Nat) (b : Byte) : (s.wrByte a b).replayFull = s.replayFull := rfl
@[simp] theorem State.wrByte_sve (a : Nat) (b : Byte) : (s.wrByte a b).sve = s.sve := rfl
@[simp] theorem State.wrByte_gnt (a : Nat) (b : Byte) : (s.wrByte a b).gnt = s.gnt := rfl
@[simp] theorem State.wrByte_sparings (a : Nat) (b : Byte) : (s.wrByte a b).sparings = s.sparings := rfl
@[simp] theorem State.wrByte_isls (a : Nat) (b : Byte) : (s.wrByte a b).isls = s.isls := rfl
@[simp] theorem State.wrByte_power (a : Nat) (b : Byte) : (s.wrByte a b).power = s.power := rfl
@[simp] theorem State.wrByte_patch (a : Nat) (b : Byte) : (s.wrByte a b).patch = s.patch := rfl
@[simp] theorem State.wrByte_opt (a : Nat) (b : Byte) : (s.wrByte a b).opt = s.opt := rfl
@[simp] theorem State.wrByte_optIn (a : Nat) (b : Byte) : (s.wrByte a b).optIn = s.optIn := rfl
@[simp] theorem State.wrByte_cold (a : Nat) (b : Byte) : (s.wrByte a b).cold = s.cold := rfl
@[simp] theorem State.wrByte_gpos (a : Nat) (b : Byte) : (s.wrByte a b).gpos = s.gpos := rfl
@[simp] theorem State.wrByte_pmcBad (a : Nat) (b : Byte) : (s.wrByte a b).pmcBad = s.pmcBad := rfl
@[simp] theorem State.wrByte_presets (a : Nat) (b : Byte) : (s.wrByte a b).presets = s.presets := rfl
@[simp] theorem State.wrByte_offers (a : Nat) (b : Byte) : (s.wrByte a b).offers = s.offers := rfl
@[simp] theorem State.wrByte_egressIdle (a : Nat) (b : Byte) : (s.wrByte a b).egressIdle = s.egressIdle := rfl
@[simp] theorem State.wrByte_free (a : Nat) (b : Byte) : (s.wrByte a b).free = s.free := rfl

/-! ## setPoison -/

@[simp] theorem State.setPoison_pending (l : Nat) (b : Bool) : (s.setPoison l b).pending = s.pending := rfl
@[simp] theorem State.setPoison_mem (l : Nat) (b : Bool) : (s.setPoison l b).mem = s.mem := rfl
@[simp] theorem State.setPoison_poison (l : Nat) (b : Bool) : (s.setPoison l b).poison = Map.set noFlag s.poison l b := rfl
@[simp] theorem State.setPoison_regs (l : Nat) (b : Bool) : (s.setPoison l b).regs = s.regs := rfl
@[simp] theorem State.setPoison_threads (l : Nat) (b : Bool) : (s.setPoison l b).threads = s.threads := rfl
@[simp] theorem State.setPoison_cores (l : Nat) (b : Bool) : (s.setPoison l b).cores = s.cores := rfl
@[simp] theorem State.setPoison_l2 (l : Nat) (b : Bool) : (s.setPoison l b).l2 = s.l2 := rfl
@[simp] theorem State.setPoison_l3 (l : Nat) (b : Bool) : (s.setPoison l b).l3 = s.l3 := rfl
@[simp] theorem State.setPoison_txns (l : Nat) (b : Bool) : (s.setPoison l b).txns = s.txns := rfl
@[simp] theorem State.setPoison_ingress (l : Nat) (b : Bool) : (s.setPoison l b).ingress = s.ingress := rfl
@[simp] theorem State.setPoison_atRing (l : Nat) (b : Bool) : (s.setPoison l b).atRing = s.atRing := rfl
@[simp] theorem State.setPoison_prefCmp (l : Nat) (b : Bool) : (s.setPoison l b).prefCmp = s.prefCmp := rfl
@[simp] theorem State.setPoison_wbs (l : Nat) (b : Bool) : (s.setPoison l b).wbs = s.wbs := rfl
@[simp] theorem State.setPoison_rcm (l : Nat) (b : Bool) : (s.setPoison l b).rcm = s.rcm := rfl
@[simp] theorem State.setPoison_pinned (l : Nat) (b : Bool) : (s.setPoison l b).pinned = s.pinned := rfl
@[simp] theorem State.setPoison_pinRes (l : Nat) (b : Bool) : (s.setPoison l b).pinRes = s.pinRes := rfl
@[simp] theorem State.setPoison_pinOver (l : Nat) (b : Bool) : (s.setPoison l b).pinOver = s.pinOver := rfl
@[simp] theorem State.setPoison_potc (l : Nat) (b : Bool) : (s.setPoison l b).potc = s.potc := rfl
@[simp] theorem State.setPoison_mcq (l : Nat) (b : Bool) : (s.setPoison l b).mcq = s.mcq := rfl
@[simp] theorem State.setPoison_dram (l : Nat) (b : Bool) : (s.setPoison l b).dram = s.dram := rfl
@[simp] theorem State.setPoison_ways (l : Nat) (b : Bool) : (s.setPoison l b).ways = s.ways := rfl
@[simp] theorem State.setPoison_dpc (l : Nat) (b : Bool) : (s.setPoison l b).dpc = s.dpc := rfl
@[simp] theorem State.setPoison_ranks (l : Nat) (b : Bool) : (s.setPoison l b).ranks = s.ranks := rfl
@[simp] theorem State.setPoison_x8 (l : Nat) (b : Bool) : (s.setPoison l b).x8 = s.x8 := rfl
@[simp] theorem State.setPoison_spd (l : Nat) (b : Bool) : (s.setPoison l b).spd = s.spd := rfl
@[simp] theorem State.setPoison_mcs (l : Nat) (b : Bool) : (s.setPoison l b).mcs = s.mcs := rfl
@[simp] theorem State.setPoison_od (l : Nat) (b : Bool) : (s.setPoison l b).od = s.od := rfl
@[simp] theorem State.setPoison_stc (l : Nat) (b : Bool) : (s.setPoison l b).stc = s.stc := rfl
@[simp] theorem State.setPoison_ownFaults (l : Nat) (b : Bool) : (s.setPoison l b).ownFaults = s.ownFaults := rfl
@[simp] theorem State.setPoison_fltSeen (l : Nat) (b : Bool) : (s.setPoison l b).fltSeen = s.fltSeen := rfl
@[simp] theorem State.setPoison_gateEvent (l : Nat) (b : Bool) : (s.setPoison l b).gateEvent = s.gateEvent := rfl
@[simp] theorem State.setPoison_fltHist (l : Nat) (b : Bool) : (s.setPoison l b).fltHist = s.fltHist := rfl
@[simp] theorem State.setPoison_scn (l : Nat) (b : Bool) : (s.setPoison l b).scn = s.scn := rfl
@[simp] theorem State.setPoison_pins (l : Nat) (b : Bool) : (s.setPoison l b).pins = s.pins := rfl
@[simp] theorem State.setPoison_mmio (l : Nat) (b : Bool) : (s.setPoison l b).mmio = s.mmio := rfl
@[simp] theorem State.setPoison_trl (l : Nat) (b : Bool) : (s.setPoison l b).trl = s.trl := rfl
@[simp] theorem State.setPoison_ports (l : Nat) (b : Bool) : (s.setPoison l b).ports = s.ports := rfl
@[simp] theorem State.setPoison_held (l : Nat) (b : Bool) : (s.setPoison l b).held = s.held := rfl
@[simp] theorem State.setPoison_rated604 (l : Nat) (b : Bool) : (s.setPoison l b).rated604 = s.rated604 := rfl
@[simp] theorem State.setPoison_termWait (l : Nat) (b : Bool) : (s.setPoison l b).termWait = s.termWait := rfl
@[simp] theorem State.setPoison_dmaUse (l : Nat) (b : Bool) : (s.setPoison l b).dmaUse = s.dmaUse := rfl
@[simp] theorem State.setPoison_dmaHeld (l : Nat) (b : Bool) : (s.setPoison l b).dmaHeld = s.dmaHeld := rfl
@[simp] theorem State.setPoison_replay (l : Nat) (b : Bool) : (s.setPoison l b).replay = s.replay := rfl
@[simp] theorem State.setPoison_replayFull (l : Nat) (b : Bool) : (s.setPoison l b).replayFull = s.replayFull := rfl
@[simp] theorem State.setPoison_sve (l : Nat) (b : Bool) : (s.setPoison l b).sve = s.sve := rfl
@[simp] theorem State.setPoison_gnt (l : Nat) (b : Bool) : (s.setPoison l b).gnt = s.gnt := rfl
@[simp] theorem State.setPoison_sparings (l : Nat) (b : Bool) : (s.setPoison l b).sparings = s.sparings := rfl
@[simp] theorem State.setPoison_isls (l : Nat) (b : Bool) : (s.setPoison l b).isls = s.isls := rfl
@[simp] theorem State.setPoison_power (l : Nat) (b : Bool) : (s.setPoison l b).power = s.power := rfl
@[simp] theorem State.setPoison_patch (l : Nat) (b : Bool) : (s.setPoison l b).patch = s.patch := rfl
@[simp] theorem State.setPoison_opt (l : Nat) (b : Bool) : (s.setPoison l b).opt = s.opt := rfl
@[simp] theorem State.setPoison_optIn (l : Nat) (b : Bool) : (s.setPoison l b).optIn = s.optIn := rfl
@[simp] theorem State.setPoison_cold (l : Nat) (b : Bool) : (s.setPoison l b).cold = s.cold := rfl
@[simp] theorem State.setPoison_gpos (l : Nat) (b : Bool) : (s.setPoison l b).gpos = s.gpos := rfl
@[simp] theorem State.setPoison_pmcBad (l : Nat) (b : Bool) : (s.setPoison l b).pmcBad = s.pmcBad := rfl
@[simp] theorem State.setPoison_presets (l : Nat) (b : Bool) : (s.setPoison l b).presets = s.presets := rfl
@[simp] theorem State.setPoison_offers (l : Nat) (b : Bool) : (s.setPoison l b).offers = s.offers := rfl
@[simp] theorem State.setPoison_egressIdle (l : Nat) (b : Bool) : (s.setPoison l b).egressIdle = s.egressIdle := rfl
@[simp] theorem State.setPoison_free (l : Nat) (b : Bool) : (s.setPoison l b).free = s.free := rfl

/-! ## setMc -/

@[simp] theorem State.setMc_pending (n : Nat) (x : Mc) : (s.setMc n x).pending = s.pending := rfl
@[simp] theorem State.setMc_mem (n : Nat) (x : Mc) : (s.setMc n x).mem = s.mem := rfl
@[simp] theorem State.setMc_poison (n : Nat) (x : Mc) : (s.setMc n x).poison = s.poison := rfl
@[simp] theorem State.setMc_regs (n : Nat) (x : Mc) : (s.setMc n x).regs = s.regs := rfl
@[simp] theorem State.setMc_threads (n : Nat) (x : Mc) : (s.setMc n x).threads = s.threads := rfl
@[simp] theorem State.setMc_cores (n : Nat) (x : Mc) : (s.setMc n x).cores = s.cores := rfl
@[simp] theorem State.setMc_l2 (n : Nat) (x : Mc) : (s.setMc n x).l2 = s.l2 := rfl
@[simp] theorem State.setMc_l3 (n : Nat) (x : Mc) : (s.setMc n x).l3 = s.l3 := rfl
@[simp] theorem State.setMc_txns (n : Nat) (x : Mc) : (s.setMc n x).txns = s.txns := rfl
@[simp] theorem State.setMc_ingress (n : Nat) (x : Mc) : (s.setMc n x).ingress = s.ingress := rfl
@[simp] theorem State.setMc_atRing (n : Nat) (x : Mc) : (s.setMc n x).atRing = s.atRing := rfl
@[simp] theorem State.setMc_prefCmp (n : Nat) (x : Mc) : (s.setMc n x).prefCmp = s.prefCmp := rfl
@[simp] theorem State.setMc_wbs (n : Nat) (x : Mc) : (s.setMc n x).wbs = s.wbs := rfl
@[simp] theorem State.setMc_rcm (n : Nat) (x : Mc) : (s.setMc n x).rcm = s.rcm := rfl
@[simp] theorem State.setMc_pinned (n : Nat) (x : Mc) : (s.setMc n x).pinned = s.pinned := rfl
@[simp] theorem State.setMc_pinRes (n : Nat) (x : Mc) : (s.setMc n x).pinRes = s.pinRes := rfl
@[simp] theorem State.setMc_pinOver (n : Nat) (x : Mc) : (s.setMc n x).pinOver = s.pinOver := rfl
@[simp] theorem State.setMc_potc (n : Nat) (x : Mc) : (s.setMc n x).potc = s.potc := rfl
@[simp] theorem State.setMc_mcq (n : Nat) (x : Mc) : (s.setMc n x).mcq = s.mcq := rfl
@[simp] theorem State.setMc_dram (n : Nat) (x : Mc) : (s.setMc n x).dram = s.dram := rfl
@[simp] theorem State.setMc_ways (n : Nat) (x : Mc) : (s.setMc n x).ways = s.ways := rfl
@[simp] theorem State.setMc_dpc (n : Nat) (x : Mc) : (s.setMc n x).dpc = s.dpc := rfl
@[simp] theorem State.setMc_ranks (n : Nat) (x : Mc) : (s.setMc n x).ranks = s.ranks := rfl
@[simp] theorem State.setMc_x8 (n : Nat) (x : Mc) : (s.setMc n x).x8 = s.x8 := rfl
@[simp] theorem State.setMc_spd (n : Nat) (x : Mc) : (s.setMc n x).spd = s.spd := rfl
@[simp] theorem State.setMc_mcs (n : Nat) (x : Mc) : (s.setMc n x).mcs = Map.set Mc.reset s.mcs n x := rfl
@[simp] theorem State.setMc_od (n : Nat) (x : Mc) : (s.setMc n x).od = s.od := rfl
@[simp] theorem State.setMc_stc (n : Nat) (x : Mc) : (s.setMc n x).stc = s.stc := rfl
@[simp] theorem State.setMc_ownFaults (n : Nat) (x : Mc) : (s.setMc n x).ownFaults = s.ownFaults := rfl
@[simp] theorem State.setMc_fltSeen (n : Nat) (x : Mc) : (s.setMc n x).fltSeen = s.fltSeen := rfl
@[simp] theorem State.setMc_gateEvent (n : Nat) (x : Mc) : (s.setMc n x).gateEvent = s.gateEvent := rfl
@[simp] theorem State.setMc_fltHist (n : Nat) (x : Mc) : (s.setMc n x).fltHist = s.fltHist := rfl
@[simp] theorem State.setMc_scn (n : Nat) (x : Mc) : (s.setMc n x).scn = s.scn := rfl
@[simp] theorem State.setMc_pins (n : Nat) (x : Mc) : (s.setMc n x).pins = s.pins := rfl
@[simp] theorem State.setMc_mmio (n : Nat) (x : Mc) : (s.setMc n x).mmio = s.mmio := rfl
@[simp] theorem State.setMc_trl (n : Nat) (x : Mc) : (s.setMc n x).trl = s.trl := rfl
@[simp] theorem State.setMc_ports (n : Nat) (x : Mc) : (s.setMc n x).ports = s.ports := rfl
@[simp] theorem State.setMc_held (n : Nat) (x : Mc) : (s.setMc n x).held = s.held := rfl
@[simp] theorem State.setMc_rated604 (n : Nat) (x : Mc) : (s.setMc n x).rated604 = s.rated604 := rfl
@[simp] theorem State.setMc_termWait (n : Nat) (x : Mc) : (s.setMc n x).termWait = s.termWait := rfl
@[simp] theorem State.setMc_dmaUse (n : Nat) (x : Mc) : (s.setMc n x).dmaUse = s.dmaUse := rfl
@[simp] theorem State.setMc_dmaHeld (n : Nat) (x : Mc) : (s.setMc n x).dmaHeld = s.dmaHeld := rfl
@[simp] theorem State.setMc_replay (n : Nat) (x : Mc) : (s.setMc n x).replay = s.replay := rfl
@[simp] theorem State.setMc_replayFull (n : Nat) (x : Mc) : (s.setMc n x).replayFull = s.replayFull := rfl
@[simp] theorem State.setMc_sve (n : Nat) (x : Mc) : (s.setMc n x).sve = s.sve := rfl
@[simp] theorem State.setMc_gnt (n : Nat) (x : Mc) : (s.setMc n x).gnt = s.gnt := rfl
@[simp] theorem State.setMc_sparings (n : Nat) (x : Mc) : (s.setMc n x).sparings = s.sparings := rfl
@[simp] theorem State.setMc_isls (n : Nat) (x : Mc) : (s.setMc n x).isls = s.isls := rfl
@[simp] theorem State.setMc_power (n : Nat) (x : Mc) : (s.setMc n x).power = s.power := rfl
@[simp] theorem State.setMc_patch (n : Nat) (x : Mc) : (s.setMc n x).patch = s.patch := rfl
@[simp] theorem State.setMc_opt (n : Nat) (x : Mc) : (s.setMc n x).opt = s.opt := rfl
@[simp] theorem State.setMc_optIn (n : Nat) (x : Mc) : (s.setMc n x).optIn = s.optIn := rfl
@[simp] theorem State.setMc_cold (n : Nat) (x : Mc) : (s.setMc n x).cold = s.cold := rfl
@[simp] theorem State.setMc_gpos (n : Nat) (x : Mc) : (s.setMc n x).gpos = s.gpos := rfl
@[simp] theorem State.setMc_pmcBad (n : Nat) (x : Mc) : (s.setMc n x).pmcBad = s.pmcBad := rfl
@[simp] theorem State.setMc_presets (n : Nat) (x : Mc) : (s.setMc n x).presets = s.presets := rfl
@[simp] theorem State.setMc_offers (n : Nat) (x : Mc) : (s.setMc n x).offers = s.offers := rfl
@[simp] theorem State.setMc_egressIdle (n : Nat) (x : Mc) : (s.setMc n x).egressIdle = s.egressIdle := rfl
@[simp] theorem State.setMc_free (n : Nat) (x : Mc) : (s.setMc n x).free = s.free := rfl

/-! ## setOdv -/

@[simp] theorem State.setOdv_pending (k v : Nat) : (s.setOdv k v).pending = s.pending := rfl
@[simp] theorem State.setOdv_mem (k v : Nat) : (s.setOdv k v).mem = s.mem := rfl
@[simp] theorem State.setOdv_poison (k v : Nat) : (s.setOdv k v).poison = s.poison := rfl
@[simp] theorem State.setOdv_regs (k v : Nat) : (s.setOdv k v).regs = s.regs := rfl
@[simp] theorem State.setOdv_threads (k v : Nat) : (s.setOdv k v).threads = s.threads := rfl
@[simp] theorem State.setOdv_cores (k v : Nat) : (s.setOdv k v).cores = s.cores := rfl
@[simp] theorem State.setOdv_l2 (k v : Nat) : (s.setOdv k v).l2 = s.l2 := rfl
@[simp] theorem State.setOdv_l3 (k v : Nat) : (s.setOdv k v).l3 = s.l3 := rfl
@[simp] theorem State.setOdv_txns (k v : Nat) : (s.setOdv k v).txns = s.txns := rfl
@[simp] theorem State.setOdv_ingress (k v : Nat) : (s.setOdv k v).ingress = s.ingress := rfl
@[simp] theorem State.setOdv_atRing (k v : Nat) : (s.setOdv k v).atRing = s.atRing := rfl
@[simp] theorem State.setOdv_prefCmp (k v : Nat) : (s.setOdv k v).prefCmp = s.prefCmp := rfl
@[simp] theorem State.setOdv_wbs (k v : Nat) : (s.setOdv k v).wbs = s.wbs := rfl
@[simp] theorem State.setOdv_rcm (k v : Nat) : (s.setOdv k v).rcm = s.rcm := rfl
@[simp] theorem State.setOdv_pinned (k v : Nat) : (s.setOdv k v).pinned = s.pinned := rfl
@[simp] theorem State.setOdv_pinRes (k v : Nat) : (s.setOdv k v).pinRes = s.pinRes := rfl
@[simp] theorem State.setOdv_pinOver (k v : Nat) : (s.setOdv k v).pinOver = s.pinOver := rfl
@[simp] theorem State.setOdv_potc (k v : Nat) : (s.setOdv k v).potc = s.potc := rfl
@[simp] theorem State.setOdv_mcq (k v : Nat) : (s.setOdv k v).mcq = s.mcq := rfl
@[simp] theorem State.setOdv_dram (k v : Nat) : (s.setOdv k v).dram = s.dram := rfl
@[simp] theorem State.setOdv_ways (k v : Nat) : (s.setOdv k v).ways = s.ways := rfl
@[simp] theorem State.setOdv_dpc (k v : Nat) : (s.setOdv k v).dpc = s.dpc := rfl
@[simp] theorem State.setOdv_ranks (k v : Nat) : (s.setOdv k v).ranks = s.ranks := rfl
@[simp] theorem State.setOdv_x8 (k v : Nat) : (s.setOdv k v).x8 = s.x8 := rfl
@[simp] theorem State.setOdv_spd (k v : Nat) : (s.setOdv k v).spd = s.spd := rfl
@[simp] theorem State.setOdv_mcs (k v : Nat) : (s.setOdv k v).mcs = s.mcs := rfl
@[simp] theorem State.setOdv_od (k v : Nat) : (s.setOdv k v).od = Map.set odDefault s.od k v := rfl
@[simp] theorem State.setOdv_stc (k v : Nat) : (s.setOdv k v).stc = s.stc := rfl
@[simp] theorem State.setOdv_ownFaults (k v : Nat) : (s.setOdv k v).ownFaults = s.ownFaults := rfl
@[simp] theorem State.setOdv_fltSeen (k v : Nat) : (s.setOdv k v).fltSeen = s.fltSeen := rfl
@[simp] theorem State.setOdv_gateEvent (k v : Nat) : (s.setOdv k v).gateEvent = s.gateEvent := rfl
@[simp] theorem State.setOdv_fltHist (k v : Nat) : (s.setOdv k v).fltHist = s.fltHist := rfl
@[simp] theorem State.setOdv_scn (k v : Nat) : (s.setOdv k v).scn = s.scn := rfl
@[simp] theorem State.setOdv_pins (k v : Nat) : (s.setOdv k v).pins = s.pins := rfl
@[simp] theorem State.setOdv_mmio (k v : Nat) : (s.setOdv k v).mmio = s.mmio := rfl
@[simp] theorem State.setOdv_trl (k v : Nat) : (s.setOdv k v).trl = s.trl := rfl
@[simp] theorem State.setOdv_ports (k v : Nat) : (s.setOdv k v).ports = s.ports := rfl
@[simp] theorem State.setOdv_held (k v : Nat) : (s.setOdv k v).held = s.held := rfl
@[simp] theorem State.setOdv_rated604 (k v : Nat) : (s.setOdv k v).rated604 = s.rated604 := rfl
@[simp] theorem State.setOdv_termWait (k v : Nat) : (s.setOdv k v).termWait = s.termWait := rfl
@[simp] theorem State.setOdv_dmaUse (k v : Nat) : (s.setOdv k v).dmaUse = s.dmaUse := rfl
@[simp] theorem State.setOdv_dmaHeld (k v : Nat) : (s.setOdv k v).dmaHeld = s.dmaHeld := rfl
@[simp] theorem State.setOdv_replay (k v : Nat) : (s.setOdv k v).replay = s.replay := rfl
@[simp] theorem State.setOdv_replayFull (k v : Nat) : (s.setOdv k v).replayFull = s.replayFull := rfl
@[simp] theorem State.setOdv_sve (k v : Nat) : (s.setOdv k v).sve = s.sve := rfl
@[simp] theorem State.setOdv_gnt (k v : Nat) : (s.setOdv k v).gnt = s.gnt := rfl
@[simp] theorem State.setOdv_sparings (k v : Nat) : (s.setOdv k v).sparings = s.sparings := rfl
@[simp] theorem State.setOdv_isls (k v : Nat) : (s.setOdv k v).isls = s.isls := rfl
@[simp] theorem State.setOdv_power (k v : Nat) : (s.setOdv k v).power = s.power := rfl
@[simp] theorem State.setOdv_patch (k v : Nat) : (s.setOdv k v).patch = s.patch := rfl
@[simp] theorem State.setOdv_opt (k v : Nat) : (s.setOdv k v).opt = s.opt := rfl
@[simp] theorem State.setOdv_optIn (k v : Nat) : (s.setOdv k v).optIn = s.optIn := rfl
@[simp] theorem State.setOdv_cold (k v : Nat) : (s.setOdv k v).cold = s.cold := rfl
@[simp] theorem State.setOdv_gpos (k v : Nat) : (s.setOdv k v).gpos = s.gpos := rfl
@[simp] theorem State.setOdv_pmcBad (k v : Nat) : (s.setOdv k v).pmcBad = s.pmcBad := rfl
@[simp] theorem State.setOdv_presets (k v : Nat) : (s.setOdv k v).presets = s.presets := rfl
@[simp] theorem State.setOdv_offers (k v : Nat) : (s.setOdv k v).offers = s.offers := rfl
@[simp] theorem State.setOdv_egressIdle (k v : Nat) : (s.setOdv k v).egressIdle = s.egressIdle := rfl
@[simp] theorem State.setOdv_free (k v : Nat) : (s.setOdv k v).free = s.free := rfl

/-! ## modIsl -/

@[simp] theorem State.modIsl_pending (i : Nat) (f : Isl → Isl) : (s.modIsl i f).pending = s.pending := rfl
@[simp] theorem State.modIsl_mem (i : Nat) (f : Isl → Isl) : (s.modIsl i f).mem = s.mem := rfl
@[simp] theorem State.modIsl_poison (i : Nat) (f : Isl → Isl) : (s.modIsl i f).poison = s.poison := rfl
@[simp] theorem State.modIsl_regs (i : Nat) (f : Isl → Isl) : (s.modIsl i f).regs = s.regs := rfl
@[simp] theorem State.modIsl_threads (i : Nat) (f : Isl → Isl) : (s.modIsl i f).threads = s.threads := rfl
@[simp] theorem State.modIsl_cores (i : Nat) (f : Isl → Isl) : (s.modIsl i f).cores = s.cores := rfl
@[simp] theorem State.modIsl_l2 (i : Nat) (f : Isl → Isl) : (s.modIsl i f).l2 = s.l2 := rfl
@[simp] theorem State.modIsl_l3 (i : Nat) (f : Isl → Isl) : (s.modIsl i f).l3 = s.l3 := rfl
@[simp] theorem State.modIsl_txns (i : Nat) (f : Isl → Isl) : (s.modIsl i f).txns = s.txns := rfl
@[simp] theorem State.modIsl_ingress (i : Nat) (f : Isl → Isl) : (s.modIsl i f).ingress = s.ingress := rfl
@[simp] theorem State.modIsl_atRing (i : Nat) (f : Isl → Isl) : (s.modIsl i f).atRing = s.atRing := rfl
@[simp] theorem State.modIsl_prefCmp (i : Nat) (f : Isl → Isl) : (s.modIsl i f).prefCmp = s.prefCmp := rfl
@[simp] theorem State.modIsl_wbs (i : Nat) (f : Isl → Isl) : (s.modIsl i f).wbs = s.wbs := rfl
@[simp] theorem State.modIsl_rcm (i : Nat) (f : Isl → Isl) : (s.modIsl i f).rcm = s.rcm := rfl
@[simp] theorem State.modIsl_pinned (i : Nat) (f : Isl → Isl) : (s.modIsl i f).pinned = s.pinned := rfl
@[simp] theorem State.modIsl_pinRes (i : Nat) (f : Isl → Isl) : (s.modIsl i f).pinRes = s.pinRes := rfl
@[simp] theorem State.modIsl_pinOver (i : Nat) (f : Isl → Isl) : (s.modIsl i f).pinOver = s.pinOver := rfl
@[simp] theorem State.modIsl_potc (i : Nat) (f : Isl → Isl) : (s.modIsl i f).potc = s.potc := rfl
@[simp] theorem State.modIsl_mcq (i : Nat) (f : Isl → Isl) : (s.modIsl i f).mcq = s.mcq := rfl
@[simp] theorem State.modIsl_dram (i : Nat) (f : Isl → Isl) : (s.modIsl i f).dram = s.dram := rfl
@[simp] theorem State.modIsl_ways (i : Nat) (f : Isl → Isl) : (s.modIsl i f).ways = s.ways := rfl
@[simp] theorem State.modIsl_dpc (i : Nat) (f : Isl → Isl) : (s.modIsl i f).dpc = s.dpc := rfl
@[simp] theorem State.modIsl_ranks (i : Nat) (f : Isl → Isl) : (s.modIsl i f).ranks = s.ranks := rfl
@[simp] theorem State.modIsl_x8 (i : Nat) (f : Isl → Isl) : (s.modIsl i f).x8 = s.x8 := rfl
@[simp] theorem State.modIsl_spd (i : Nat) (f : Isl → Isl) : (s.modIsl i f).spd = s.spd := rfl
@[simp] theorem State.modIsl_mcs (i : Nat) (f : Isl → Isl) : (s.modIsl i f).mcs = s.mcs := rfl
@[simp] theorem State.modIsl_od (i : Nat) (f : Isl → Isl) : (s.modIsl i f).od = s.od := rfl
@[simp] theorem State.modIsl_stc (i : Nat) (f : Isl → Isl) : (s.modIsl i f).stc = s.stc := rfl
@[simp] theorem State.modIsl_ownFaults (i : Nat) (f : Isl → Isl) : (s.modIsl i f).ownFaults = s.ownFaults := rfl
@[simp] theorem State.modIsl_fltSeen (i : Nat) (f : Isl → Isl) : (s.modIsl i f).fltSeen = s.fltSeen := rfl
@[simp] theorem State.modIsl_gateEvent (i : Nat) (f : Isl → Isl) : (s.modIsl i f).gateEvent = s.gateEvent := rfl
@[simp] theorem State.modIsl_fltHist (i : Nat) (f : Isl → Isl) : (s.modIsl i f).fltHist = s.fltHist := rfl
@[simp] theorem State.modIsl_scn (i : Nat) (f : Isl → Isl) : (s.modIsl i f).scn = s.scn := rfl
@[simp] theorem State.modIsl_pins (i : Nat) (f : Isl → Isl) : (s.modIsl i f).pins = s.pins := rfl
@[simp] theorem State.modIsl_mmio (i : Nat) (f : Isl → Isl) : (s.modIsl i f).mmio = s.mmio := rfl
@[simp] theorem State.modIsl_trl (i : Nat) (f : Isl → Isl) : (s.modIsl i f).trl = s.trl := rfl
@[simp] theorem State.modIsl_ports (i : Nat) (f : Isl → Isl) : (s.modIsl i f).ports = s.ports := rfl
@[simp] theorem State.modIsl_held (i : Nat) (f : Isl → Isl) : (s.modIsl i f).held = s.held := rfl
@[simp] theorem State.modIsl_rated604 (i : Nat) (f : Isl → Isl) : (s.modIsl i f).rated604 = s.rated604 := rfl
@[simp] theorem State.modIsl_termWait (i : Nat) (f : Isl → Isl) : (s.modIsl i f).termWait = s.termWait := rfl
@[simp] theorem State.modIsl_dmaUse (i : Nat) (f : Isl → Isl) : (s.modIsl i f).dmaUse = s.dmaUse := rfl
@[simp] theorem State.modIsl_dmaHeld (i : Nat) (f : Isl → Isl) : (s.modIsl i f).dmaHeld = s.dmaHeld := rfl
@[simp] theorem State.modIsl_replay (i : Nat) (f : Isl → Isl) : (s.modIsl i f).replay = s.replay := rfl
@[simp] theorem State.modIsl_replayFull (i : Nat) (f : Isl → Isl) : (s.modIsl i f).replayFull = s.replayFull := rfl
@[simp] theorem State.modIsl_sve (i : Nat) (f : Isl → Isl) : (s.modIsl i f).sve = s.sve := rfl
@[simp] theorem State.modIsl_gnt (i : Nat) (f : Isl → Isl) : (s.modIsl i f).gnt = s.gnt := rfl
@[simp] theorem State.modIsl_sparings (i : Nat) (f : Isl → Isl) : (s.modIsl i f).sparings = s.sparings := rfl
@[simp] theorem State.modIsl_isls (i : Nat) (f : Isl → Isl) : (s.modIsl i f).isls = Map.set Isl.reset s.isls i (f (s.isl i)) := rfl
@[simp] theorem State.modIsl_power (i : Nat) (f : Isl → Isl) : (s.modIsl i f).power = s.power := rfl
@[simp] theorem State.modIsl_patch (i : Nat) (f : Isl → Isl) : (s.modIsl i f).patch = s.patch := rfl
@[simp] theorem State.modIsl_opt (i : Nat) (f : Isl → Isl) : (s.modIsl i f).opt = s.opt := rfl
@[simp] theorem State.modIsl_optIn (i : Nat) (f : Isl → Isl) : (s.modIsl i f).optIn = s.optIn := rfl
@[simp] theorem State.modIsl_cold (i : Nat) (f : Isl → Isl) : (s.modIsl i f).cold = s.cold := rfl
@[simp] theorem State.modIsl_gpos (i : Nat) (f : Isl → Isl) : (s.modIsl i f).gpos = s.gpos := rfl
@[simp] theorem State.modIsl_pmcBad (i : Nat) (f : Isl → Isl) : (s.modIsl i f).pmcBad = s.pmcBad := rfl
@[simp] theorem State.modIsl_presets (i : Nat) (f : Isl → Isl) : (s.modIsl i f).presets = s.presets := rfl
@[simp] theorem State.modIsl_offers (i : Nat) (f : Isl → Isl) : (s.modIsl i f).offers = s.offers := rfl
@[simp] theorem State.modIsl_egressIdle (i : Nat) (f : Isl → Isl) : (s.modIsl i f).egressIdle = s.egressIdle := rfl
@[simp] theorem State.modIsl_free (i : Nat) (f : Isl → Isl) : (s.modIsl i f).free = s.free := rfl

/-! ## setReg -/

@[simp] theorem State.setReg_pending (r : Reg) (ix : List Nat) (v : W64) : (s.setReg r ix v).pending = s.pending := rfl
@[simp] theorem State.setReg_mem (r : Reg) (ix : List Nat) (v : W64) : (s.setReg r ix v).mem = s.mem := rfl
@[simp] theorem State.setReg_poison (r : Reg) (ix : List Nat) (v : W64) : (s.setReg r ix v).poison = s.poison := rfl
@[simp] theorem State.setReg_regs (r : Reg) (ix : List Nat) (v : W64) : (s.setReg r ix v).regs = Map.set regDefault s.regs (r.addr ix) v := rfl
@[simp] theorem State.setReg_threads (r : Reg) (ix : List Nat) (v : W64) : (s.setReg r ix v).threads = s.threads := rfl
@[simp] theorem State.setReg_cores (r : Reg) (ix : List Nat) (v : W64) : (s.setReg r ix v).cores = s.cores := rfl
@[simp] theorem State.setReg_l2 (r : Reg) (ix : List Nat) (v : W64) : (s.setReg r ix v).l2 = s.l2 := rfl
@[simp] theorem State.setReg_l3 (r : Reg) (ix : List Nat) (v : W64) : (s.setReg r ix v).l3 = s.l3 := rfl
@[simp] theorem State.setReg_txns (r : Reg) (ix : List Nat) (v : W64) : (s.setReg r ix v).txns = s.txns := rfl
@[simp] theorem State.setReg_ingress (r : Reg) (ix : List Nat) (v : W64) : (s.setReg r ix v).ingress = s.ingress := rfl
@[simp] theorem State.setReg_atRing (r : Reg) (ix : List Nat) (v : W64) : (s.setReg r ix v).atRing = s.atRing := rfl
@[simp] theorem State.setReg_prefCmp (r : Reg) (ix : List Nat) (v : W64) : (s.setReg r ix v).prefCmp = s.prefCmp := rfl
@[simp] theorem State.setReg_wbs (r : Reg) (ix : List Nat) (v : W64) : (s.setReg r ix v).wbs = s.wbs := rfl
@[simp] theorem State.setReg_rcm (r : Reg) (ix : List Nat) (v : W64) : (s.setReg r ix v).rcm = s.rcm := rfl
@[simp] theorem State.setReg_pinned (r : Reg) (ix : List Nat) (v : W64) : (s.setReg r ix v).pinned = s.pinned := rfl
@[simp] theorem State.setReg_pinRes (r : Reg) (ix : List Nat) (v : W64) : (s.setReg r ix v).pinRes = s.pinRes := rfl
@[simp] theorem State.setReg_pinOver (r : Reg) (ix : List Nat) (v : W64) : (s.setReg r ix v).pinOver = s.pinOver := rfl
@[simp] theorem State.setReg_potc (r : Reg) (ix : List Nat) (v : W64) : (s.setReg r ix v).potc = s.potc := rfl
@[simp] theorem State.setReg_mcq (r : Reg) (ix : List Nat) (v : W64) : (s.setReg r ix v).mcq = s.mcq := rfl
@[simp] theorem State.setReg_dram (r : Reg) (ix : List Nat) (v : W64) : (s.setReg r ix v).dram = s.dram := rfl
@[simp] theorem State.setReg_ways (r : Reg) (ix : List Nat) (v : W64) : (s.setReg r ix v).ways = s.ways := rfl
@[simp] theorem State.setReg_dpc (r : Reg) (ix : List Nat) (v : W64) : (s.setReg r ix v).dpc = s.dpc := rfl
@[simp] theorem State.setReg_ranks (r : Reg) (ix : List Nat) (v : W64) : (s.setReg r ix v).ranks = s.ranks := rfl
@[simp] theorem State.setReg_x8 (r : Reg) (ix : List Nat) (v : W64) : (s.setReg r ix v).x8 = s.x8 := rfl
@[simp] theorem State.setReg_spd (r : Reg) (ix : List Nat) (v : W64) : (s.setReg r ix v).spd = s.spd := rfl
@[simp] theorem State.setReg_mcs (r : Reg) (ix : List Nat) (v : W64) : (s.setReg r ix v).mcs = s.mcs := rfl
@[simp] theorem State.setReg_od (r : Reg) (ix : List Nat) (v : W64) : (s.setReg r ix v).od = s.od := rfl
@[simp] theorem State.setReg_stc (r : Reg) (ix : List Nat) (v : W64) : (s.setReg r ix v).stc = s.stc := rfl
@[simp] theorem State.setReg_ownFaults (r : Reg) (ix : List Nat) (v : W64) : (s.setReg r ix v).ownFaults = s.ownFaults := rfl
@[simp] theorem State.setReg_fltSeen (r : Reg) (ix : List Nat) (v : W64) : (s.setReg r ix v).fltSeen = s.fltSeen := rfl
@[simp] theorem State.setReg_gateEvent (r : Reg) (ix : List Nat) (v : W64) : (s.setReg r ix v).gateEvent = s.gateEvent := rfl
@[simp] theorem State.setReg_fltHist (r : Reg) (ix : List Nat) (v : W64) : (s.setReg r ix v).fltHist = s.fltHist := rfl
@[simp] theorem State.setReg_scn (r : Reg) (ix : List Nat) (v : W64) : (s.setReg r ix v).scn = s.scn := rfl
@[simp] theorem State.setReg_pins (r : Reg) (ix : List Nat) (v : W64) : (s.setReg r ix v).pins = s.pins := rfl
@[simp] theorem State.setReg_mmio (r : Reg) (ix : List Nat) (v : W64) : (s.setReg r ix v).mmio = s.mmio := rfl
@[simp] theorem State.setReg_trl (r : Reg) (ix : List Nat) (v : W64) : (s.setReg r ix v).trl = s.trl := rfl
@[simp] theorem State.setReg_ports (r : Reg) (ix : List Nat) (v : W64) : (s.setReg r ix v).ports = s.ports := rfl
@[simp] theorem State.setReg_held (r : Reg) (ix : List Nat) (v : W64) : (s.setReg r ix v).held = s.held := rfl
@[simp] theorem State.setReg_rated604 (r : Reg) (ix : List Nat) (v : W64) : (s.setReg r ix v).rated604 = s.rated604 := rfl
@[simp] theorem State.setReg_termWait (r : Reg) (ix : List Nat) (v : W64) : (s.setReg r ix v).termWait = s.termWait := rfl
@[simp] theorem State.setReg_dmaUse (r : Reg) (ix : List Nat) (v : W64) : (s.setReg r ix v).dmaUse = s.dmaUse := rfl
@[simp] theorem State.setReg_dmaHeld (r : Reg) (ix : List Nat) (v : W64) : (s.setReg r ix v).dmaHeld = s.dmaHeld := rfl
@[simp] theorem State.setReg_replay (r : Reg) (ix : List Nat) (v : W64) : (s.setReg r ix v).replay = s.replay := rfl
@[simp] theorem State.setReg_replayFull (r : Reg) (ix : List Nat) (v : W64) : (s.setReg r ix v).replayFull = s.replayFull := rfl
@[simp] theorem State.setReg_sve (r : Reg) (ix : List Nat) (v : W64) : (s.setReg r ix v).sve = s.sve := rfl
@[simp] theorem State.setReg_gnt (r : Reg) (ix : List Nat) (v : W64) : (s.setReg r ix v).gnt = s.gnt := rfl
@[simp] theorem State.setReg_sparings (r : Reg) (ix : List Nat) (v : W64) : (s.setReg r ix v).sparings = s.sparings := rfl
@[simp] theorem State.setReg_isls (r : Reg) (ix : List Nat) (v : W64) : (s.setReg r ix v).isls = s.isls := rfl
@[simp] theorem State.setReg_power (r : Reg) (ix : List Nat) (v : W64) : (s.setReg r ix v).power = s.power := rfl
@[simp] theorem State.setReg_patch (r : Reg) (ix : List Nat) (v : W64) : (s.setReg r ix v).patch = s.patch := rfl
@[simp] theorem State.setReg_opt (r : Reg) (ix : List Nat) (v : W64) : (s.setReg r ix v).opt = s.opt := rfl
@[simp] theorem State.setReg_optIn (r : Reg) (ix : List Nat) (v : W64) : (s.setReg r ix v).optIn = s.optIn := rfl
@[simp] theorem State.setReg_cold (r : Reg) (ix : List Nat) (v : W64) : (s.setReg r ix v).cold = s.cold := rfl
@[simp] theorem State.setReg_gpos (r : Reg) (ix : List Nat) (v : W64) : (s.setReg r ix v).gpos = s.gpos := rfl
@[simp] theorem State.setReg_pmcBad (r : Reg) (ix : List Nat) (v : W64) : (s.setReg r ix v).pmcBad = s.pmcBad := rfl
@[simp] theorem State.setReg_presets (r : Reg) (ix : List Nat) (v : W64) : (s.setReg r ix v).presets = s.presets := rfl
@[simp] theorem State.setReg_offers (r : Reg) (ix : List Nat) (v : W64) : (s.setReg r ix v).offers = s.offers := rfl
@[simp] theorem State.setReg_egressIdle (r : Reg) (ix : List Nat) (v : W64) : (s.setReg r ix v).egressIdle = s.egressIdle := rfl
@[simp] theorem State.setReg_free (r : Reg) (ix : List Nat) (v : W64) : (s.setReg r ix v).free = s.free := rfl

/-! ## What the other updates stand for -/

theorem State.modThr_eq (m : Nat) (f : Thread → Thread) : s.modThr m f = s.setThr m (f (s.thr m)) := rfl
theorem State.modCore_eq (c : Nat) (f : Core → Core) : s.modCore c f = s.setCore c (f (s.core c)) := rfl
theorem State.modMc_eq (n : Nat) (f : Mc → Mc) : s.modMc n f = s.setMc n (f (s.mc n)) := rfl
theorem State.setRf_eq (r : Reg) (ix : List Nat) (hi lo v : Nat) :
    s.setRf r ix hi lo v = s.setReg r ix (setFld (s.reg r ix) hi lo v) := rfl

end Sys2Proof.Machine
end

