-- ==== Sys2Proof/Laws/Memory.lean ====
section
/-! SUPPORT. Laws of memory: reading after writing, and that every memory operation keeps the canonical form. -/

namespace Sys2Proof.Machine

theorem State.reset_mem_wf : Memory.wf State.reset.mem = true := rfl

/-- Writing one byte keeps the canonical form. -/
theorem State.wrByte_mem_wf (s : State) (a : Nat) (b : Byte) (h : Memory.wf s.mem = true) :
    Memory.wf (s.wrByte a b).mem = true := Map.wf_set a b h

/-- A byte reads what was last written to it. -/
theorem State.rdByte_wrByte_self (s : State) (a : Nat) (b : Byte) (h : Memory.wf s.mem = true) :
    (s.wrByte a b).rdByte a = b := Map.get_set_self a b h

/-- Writing one byte leaves every other byte. -/
theorem State.rdByte_wrByte_ne (s : State) {a i : Nat} (b : Byte) (h : Memory.wf s.mem = true) (hi : i ≠ a) :
    (s.wrByte a b).rdByte i = s.rdByte i := Map.get_set_ne b h hi

/-- Writing bytes keeps the canonical form. -/
theorem State.wr_mem_wf (bs : List Byte) : ∀ (s : State) (a : Nat), Memory.wf s.mem = true →
    Memory.wf (s.wr a bs).mem = true := by
  induction bs with
  | nil => exact fun _ _ h => h
  | cons b bs ih => exact fun s a h => ih _ _ (s.wrByte_mem_wf a b h)

/-- Writing bytes leaves every byte outside them. -/
theorem State.rdByte_wr_out (bs : List Byte) : ∀ (s : State) (a i : Nat), Memory.wf s.mem = true →
    (i < a ∨ a + bs.length ≤ i) → (s.wr a bs).rdByte i = s.rdByte i := by
  induction bs with
  | nil => exact fun _ _ _ _ _ => rfl
  | cons b bs ih =>
    intro s a i h hi
    simp only [List.length_cons] at hi
    rw [State.wr, ih _ _ _ (s.wrByte_mem_wf a b h) (by omega)]
    exact s.rdByte_wrByte_ne b h (by omega)

/-- A written byte reads back. -/
theorem State.rdByte_wr_in (bs : List Byte) : ∀ (s : State) (a k : Nat) (hk : k < bs.length),
    Memory.wf s.mem = true → (s.wr a bs).rdByte (a + k) = bs[k] := by
  induction bs with
  | nil => intro _ _ k hk _; simp at hk
  | cons b bs ih =>
    intro s a k hk h
    have hw := s.wrByte_mem_wf a b h
    cases k with
    | zero =>
      rw [State.wr, State.rdByte_wr_out bs _ _ _ hw (by omega)]
      exact s.rdByte_wrByte_self a b h
    | succ k =>
      have := ih (s.wrByte a b) (a + 1) k (by simpa using hk) hw
      simpa [State.wr, Nat.add_assoc, Nat.add_comm 1 k] using this

theorem State.wrD_mem_wf (s : State) (a : Nat) (v : W64) (h : Memory.wf s.mem = true) :
    Memory.wf (s.wrD a v).mem = true := State.wr_mem_wf _ s a h

/-- Writing memory changes only memory. -/
theorem State.wr_regs (bs : List Byte) : ∀ (s : State) (a : Nat), (s.wr a bs).regs = s.regs := by
  induction bs with
  | nil => exact fun _ _ => rfl
  | cons b bs ih => exact fun s a => ih _ _

theorem State.wr_threads (bs : List Byte) : ∀ (s : State) (a : Nat), (s.wr a bs).threads = s.threads := by
  induction bs with
  | nil => exact fun _ _ => rfl
  | cons b bs ih => exact fun s a => ih _ _

end Sys2Proof.Machine
end

