-- ==== Sys2Proof/Laws/Run.lean ====
section
/-! SUPPORT. Laws of the shared operations that every instruction goes through: what fetching, retiring and
writing a register can do. -/

namespace Sys2Proof.Machine

/-! ## Threads and registers -/

theorem State.thr_setThr_self {s : State} (m : Nat) (t : Thread) (h : Map.wf Thread.reset s.threads = true) :
    (s.setThr m t).thr m = t := Map.get_set_self m t h

theorem State.thr_setThr_ne {s : State} {m n : Nat} (t : Thread) (h : Map.wf Thread.reset s.threads = true)
    (hn : n ≠ m) : (s.setThr m t).thr n = s.thr n := Map.get_set_ne t h hn

theorem State.threads_wf_setThr {s : State} (m : Nat) (t : Thread) (h : Map.wf Thread.reset s.threads = true) :
    Map.wf Thread.reset (s.setThr m t).threads = true := Map.wf_set m t h

/-- Two window-relative numbers below 40 name one slot only if they are one number (R28, R29). -/
theorem physReg_inj {cwp m n : Nat} (hc : cwp < 28) (hm : m < 40) (hn : n < 40)
    (h : physReg cwp m = physReg cwp n) : m = n := by
  unfold physReg at h
  repeat' split at h
  all_goals omega

theorem Arch.raw_setG_ne {a : Arch} {m n : Nat} (v : W64) (hw : Map.wf zero64 a.regs = true) (hc : a.cwp < 28)
    (hm : m < 40) (hn : n < 40) (h : n ≠ m) : (a.setG m v).raw n = a.raw n := by
  unfold Arch.setG
  split
  · rfl
  · unfold Arch.raw
    split
    · rfl
    · exact Map.get_set_ne v hw fun e => h (physReg_inj hc hn hm e)

theorem Arch.raw_setG_self {a : Arch} {n : Nat} (v : W64) (hw : Map.wf zero64 a.regs = true) (h : n ≠ 0) :
    (a.setG n v).raw n = v := by
  simp only [Arch.setG, Arch.raw, h, if_false]
  exact Map.get_set_self _ v hw

@[simp] theorem Arch.setG_pc (a : Arch) (n : Nat) (v : W64) : (a.setG n v).pc = a.pc := by
  unfold Arch.setG; split <;> rfl
@[simp] theorem Arch.setG_sr (a : Arch) (n : Nat) (v : W64) : (a.setG n v).sr = a.sr := by
  unfold Arch.setG; split <;> rfl
@[simp] theorem Arch.setG_fregs (a : Arch) (n : Nat) (v : W64) : (a.setG n v).fregs = a.fregs := by
  unfold Arch.setG; split <;> rfl
@[simp] theorem Arch.setG_lvls (a : Arch) (n : Nat) (v : W64) : (a.setG n v).lvls = a.lvls := by
  unfold Arch.setG; split <;> rfl
@[simp] theorem Arch.setG_rsv (a : Arch) (n : Nat) (v : W64) : (a.setG n v).rsv = a.rsv := by
  unfold Arch.setG; split <;> rfl
@[simp] theorem Arch.setG_delay (a : Arch) (n : Nat) (v : W64) : (a.setG n v).delay = a.delay := by
  unfold Arch.setG; split <;> rfl
@[simp] theorem Arch.next_pc (a : Arch) : a.next.pc = a.pc + 4 := rfl
@[simp] theorem Arch.next_regs (a : Arch) : a.next.regs = a.regs := rfl
@[simp] theorem Arch.next_sr (a : Arch) : a.next.sr = a.sr := rfl

/-- g0 is never written (R28). -/
@[simp] theorem Arch.setG_zero (a : Arch) (v : W64) : a.setG 0 v = a := rfl
@[simp] theorem Arch.raw_zero (a : Arch) : a.raw 0 = 0 := rfl

/-! ## The backlog -/

/-- What one thread contributes to the backlog (R377). -/
def growth (p : Nat × Thread) : Nat :=
  if (ckDelta p.2.snap p.2.cur).isEmpty then 0 else 136 + 8 * (ckDelta p.2.snap p.2.cur).length

theorem growth_reset (k : Nat) : growth (k, Thread.reset k) = 0 := by
  have : ckDelta (Thread.reset k).snap (Thread.reset k).cur = [] := if_pos rfl
  simp [growth, this]

/-- Changing a thread apart from its state and its snapshot leaves the growth of the register deltas. -/
theorem State.deltaBytes_setThr {s : State} {m : Nat} {t : Thread} (h1 : t.cur = (s.thr m).cur)
    (h2 : t.snap = (s.thr m).snap) : (s.setThr m t).deltaBytes = s.deltaBytes := by
  have h := Map.sum_set (d := Thread.reset) growth growth_reset s.threads m t
  have h3 : Map.get Thread.reset s.threads m = s.thr m := rfl
  rw [h3] at h
  have h4 : growth (m, t) = growth (m, s.thr m) := by simp only [growth, h1, h2]
  rw [h4] at h
  exact Nat.add_right_cancel h

/-- It therefore leaves the stall of the commit loop as it was. -/
theorem State.stalled_setThr {s : State} {m : Nat} {t : Thread} (h1 : t.cur = (s.thr m).cur)
    (h2 : t.snap = (s.thr m).snap) : (s.setThr m t).stalled = s.stalled := by
  have hd := State.deltaBytes_setThr h1 h2
  unfold State.stalled State.backlog
  rw [hd]
  rfl

/-- Below T the backlog is below the budget too. -/
theorem State.stalledC0_of_stalled {s : State} (h : s.stalled = false) : s.stalledC0 = false := by
  cases hr : s.scn.running with
  | false => simp [State.stalledC0, hr]
  | true =>
    have h1 : s.backlog < s.budgetT := by simpa [State.stalled, hr] using h
    have h2 : s.budgetT ≤ s.budget := Nat.sub_le _ _
    simpa [State.stalledC0, hr] using Nat.lt_of_lt_of_le h1 h2

/-! ## Fetching and retiring -/

/-- What a fetch that succeeds says: the thread can run, its fetch passes, and no backlog stalls it. -/
theorem State.fetched_spec {s s1 : State} {m : Nat} (h : s.fetched m = some s1) :
    s.canRun m = true ∧ fetchAt m s = .ok s1 ∧ s1.stalled = false := by
  unfold State.fetched at h
  split at h
  · cases h
  · split at h
    · split at h
      · cases h
      · cases h; simp_all
    · cases h

/-- An instruction that passes its checks and whose body answers retires with the body's result. -/
theorem runInstr_retires {s s1 s2 : State} {t : ThreadId} {lvl : Nat} {fp legal : Bool} {rs : List (BitVec 6)}
    {body : Arch → State → R (Arch × State)} {a : Arch} {k : InstrEnd} (hk : k ≠ .stat) (h : s.fetched t.val = some s1)
    (hl : legal = true) (hr : regsOk rs = true) (hp : lvl ≤ (s1.thr t.val).cur.pl)
    (hf : fp = true → (s1.thr t.val).cur.fpe = true)
    (hb : body (s1.thr t.val).cur s1 = .ok (a, s2)) (hs : s2.stalled = false) :
    runInstr t lvl fp legal rs body s k = s2.retireTo t.val a k := by
  obtain ⟨h1, h2, -⟩ := State.fetched_spec h
  have h3 : ¬ (s1.thr t.val).cur.pl < lvl := by omega
  have h4 : (fp && !(s1.thr t.val).cur.fpe) = false := by
    cases fp with
    | false => rfl
    | true => simp [hf rfl]
  simp only [runInstr, h1, h2, hl, hr, h3, h4, bind, Except.bind, Bool.not_true, Bool.false_or, if_false]
  simp [State.settle, hb, hs, hk, State.stalledC0_of_stalled hs]

/-- An instruction that passes its checks and whose body raises an exception takes it. -/
theorem runInstr_takes {s s1 s2 : State} {t : ThreadId} {lvl : Nat} {fp legal : Bool} {rs : List (BitVec 6)}
    {body : Arch → State → R (Arch × State)} {e : Exc} {k : InstrEnd} (h : s.fetched t.val = some s1)
    (hl : legal = true) (hr : regsOk rs = true) (hp : lvl ≤ (s1.thr t.val).cur.pl)
    (hf : fp = true → (s1.thr t.val).cur.fpe = true)
    (hb : body (s1.thr t.val).cur s1 = .error (.exc e s2)) (hi : e.isFault = true → (s.thr t.val).abandoned < 8 → s.irqAt t.val = none) :
    runInstr t lvl fp legal rs body s k = s.entryOr (s2.takeExc t.val e) t.val := by
  obtain ⟨h1, h2, -⟩ := State.fetched_spec h
  have h3 : ¬ (s1.thr t.val).cur.pl < lvl := by omega
  have h4 : (fp && !(s1.thr t.val).cur.fpe) = false := by
    cases fp with
    | false => rfl
    | true => simp [hf rfl]
  simp only [runInstr, h1, h2, hl, hr, h3, h4, bind, Except.bind, Bool.not_true, Bool.false_or, if_false]
  have h5 : (if e.isFault && decide ((s.thr t.val).abandoned < 8) then s.irqAt t.val else none) = none := by
    split
    · next h6 => simp only [Bool.and_eq_true, decide_eq_true_eq] at h6; exact hi h6.1 h6.2
    · rfl
  simp only [State.settle, hb, if_neg Bool.false_ne_true, h5]

/-- An instruction that only changes its thread's architected state retires. -/
theorem runPure_retires {s s1 : State} {t : ThreadId} {fp legal : Bool} {rs : List (BitVec 6)} {f : Arch → Arch}
    {k : InstrEnd} (hk : k ≠ .stat) (h : s.fetched t.val = some s1) (hl : legal = true) (hr : regsOk rs = true)
    (hf : fp = true → (s1.thr t.val).cur.fpe = true) :
    runPure t fp legal rs f s k = s1.retireTo t.val (f (s1.thr t.val).cur) k :=
  runInstr_retires hk h hl hr (Nat.zero_le _) hf rfl (State.fetched_spec h).2.2

/-- An exception entry waits for the backlog only while the commit loop stalls. -/
theorem State.entryOr_of_not_stalled {s s1 : State} {m : Nat} (h : s.stalled = false) : s.entryOr s1 m = s1 := by
  simp [State.entryOr, h]

/-! ## What a retirement leaves -/

theorem Thread.endMid_mid (t : Thread) : t.endMid.mid = none := by
  unfold Thread.endMid
  cases h : t.mid with
  | none => exact h
  | some d => rfl

theorem Thread.endMid_same (t : Thread) : t.endMid.cur = t.cur ∧ t.endMid.groups = t.groups ∧ t.endMid.seq = t.seq ∧
    t.endMid.sb = t.sb ∧ t.endMid.cb = t.cb ∧ t.endMid.hard = t.hard ∧ t.endMid.hseq = t.hseq := by
  unfold Thread.endMid
  cases t.mid <;> exact ⟨rfl, rfl, rfl, rfl, rfl, rfl, rfl⟩

/-- A retirement that moves on, or that is no unit of a patched routine, changes its thread and its stall, and nothing
else: the thread holds the new state as its newest group, but for a reservation that ends with its loop. -/
theorem State.retireTo_spec {s : State} {m : Nat} {a : Arch} (k : InstrEnd)
    (h : a.pc ≠ (s.thr m).cur.pc ∨ (s.thr m).mid = none) :
    ∃ t b, s.retireTo m a k =
        { s.setThr m t with scn := { s.scn with stalled := s.scn.stalled.filter (· != m) } } ∧
      (b = a ∨ b = { a with rsv := none }) ∧ t.cur = b ∧ t.groups = (s.thr m).groups ++ [b] ∧ t.seq = (s.thr m).seq + 1 ∧
      t.sb = (s.thr m).sb ∧ t.cb = (s.thr m).cb ∧ t.hard = (s.thr m).hard ∧ t.hseq = (s.thr m).hseq := by
  obtain ⟨-, h2, h3, h4, h5, h6, h7⟩ := Thread.endMid_same (s.thr m)
  unfold State.retireTo
  by_cases hp : a.pc = (s.thr m).cur.pc
  · have hm : (s.thr m).mid = none := h.resolve_left (not_not_intro hp)
    simp only [hp, if_true, hm, Option.isSome_none, Bool.false_eq_true, if_false]
    refine ⟨_, _, rfl, ?_, rfl, rfl, rfl, rfl, rfl, rfl, rfl⟩
    split
    · exact .inr rfl
    · exact .inl rfl
  · simp only [hp, if_false, Thread.endMid_mid, Option.isSome_none, Bool.false_eq_true]
    refine ⟨_, _, rfl, ?_, rfl, ?_, ?_, h4, h5, h6, h7⟩
    · split
      · exact .inr rfl
      · exact .inl rfl
    · exact congrArg (· ++ _) h2
    · exact congrArg (· + 1) h3

theorem State.retireTo_frame {s : State} {m : Nat} {a : Arch} (k : InstrEnd)
    (h : a.pc ≠ (s.thr m).cur.pc ∨ (s.thr m).mid = none) :
    (s.retireTo m a k).mem = s.mem ∧ (s.retireTo m a k).regs = s.regs ∧ (s.retireTo m a k).l2 = s.l2 ∧
      (s.retireTo m a k).trl = s.trl := by
  obtain ⟨t, b, e, -⟩ := s.retireTo_spec k h
  rw [e]
  exact ⟨rfl, rfl, rfl, rfl⟩

theorem State.retireTo_thr_ne {s : State} {m n : Nat} {a : Arch} (k : InstrEnd)
    (h : a.pc ≠ (s.thr m).cur.pc ∨ (s.thr m).mid = none) (hw : Map.wf Thread.reset s.threads = true) (hn : n ≠ m) :
    (s.retireTo m a k).thr n = s.thr n := by
  obtain ⟨t, b, e, -⟩ := s.retireTo_spec k h
  rw [e]
  exact State.thr_setThr_ne _ hw hn

end Sys2Proof.Machine
end

