-- ==== Sys2Proof/WellFormed.lean ====
section
/-! DEFINITION. What a sender may put into a command: the lengths and ranges of operands that no type fixes. -/

namespace Sys2Proof

/-- Sizes of one access (09 R222). -/
def accessSize (n : Nat) : Bool := n == 1 || n == 2 || n == 4 || n == 8 || n == 16

/-- An Itnov frame holds at most a PDU of 1,496 bytes and its MAC (20 R523). -/
def pduFits (pdu : List Byte) : Bool := decide (pdu.length ≤ 1512)

def DictReq.wf : DictReq → Bool
  | .frame _ _ pdu => pduFits pdu
  | .inBand p => p.val != 0

/-- Strictly rising. -/
def rising : List Nat → Bool
  | a :: b :: l => decide (a < b) && rising (b :: l)
  | _ => true

/-- Registers lie in the module register space and on the control pages of the engines, on doublewords (00 R9,
R13; 15 R417; 16 R444). -/
def regAddr (a : Nat) : Bool := decide (0xF00000000000 ≤ a) && decide (a < 0xFF0100000000) && a % 8 == 0

/-- Is a command well formed? -/
def Instr.wellFormed : Instr → Bool
  | .gatereq _ island action => decide (island.toNat ≤ 112) && action != 3
  | .wrinv _ _ dat => dat.length == 256
  | .wrinvpart _ _ dat => !dat.isEmpty && rising (dat.map fun p => p.1.toNat)
  | .deviceLoadComplete _ good dat => !good || accessSize dat.length
  | .adapterDmaRead _ _ _ _ len => decide (1 ≤ len.toNat) && decide (len.toNat ≤ 4096)
  | .adapterDmaWrite _ _ _ _ dat => decide (1 ≤ dat.length) && decide (dat.length ≤ 4096)
  | .trellisLinkUp _ speed width => decide (1 ≤ speed.toNat) && decide (speed.toNat ≤ 5) && (width == 1 || width == 4 || width == 8)
  | .hello _ _ nonce => nonce.length == 32
  | .scionAuth mac => mac.length == 32
  | .line _ _ _ dat => dat.length == 256
  | .regd _ thr entries => decide (thr.toNat < 112) && rising (entries.map fun e => e.1.toNat)
  | .mmio _ _ dat _ thr => accessSize dat.length && decide (thr.toNat < 112)
  | .mmiop _ port _ => decide (port.toNat < 12)
  | .comp _ frame => decide (frame.length < 0x4000)
  | .img _ dat => dat.length == 4096
  | .bindEnable e _ c set level => (e == .sieve || decide (c.val < 8)) && decide (set.toNat ≤ 1024) && decide (level.toNat ≤ 7)
  | .bindDisable e _ c => e == .sieve || decide (c.val < 8)
  | .rstCmdPartition p _ => decide (p.toNat ≤ 48)
  | .rstCmdCore c _ => decide (c.toNat < 56)
  | .rootstockImageVerified _ _ _ image record _ _ => decide (image.length ≤ 0x800000) && decide (record.length ≤ 0x100000)
  | .openSession _ _ pdu _ => pduFits pdu
  | .auth _ _ pdu _ => pduFits pdu
  | .close _ _ pdu => pduFits pdu
  | .read req | .readseg req | .describe req | .subscribe req | .unsubscribe req => req.wf
  | .write req _ | .writeseg req _ | .powerCommand req _ | .moduleResetObject req _ | .gateRequestObject req _ => req.wf
  | .kekLoad req _ | .partitionStart req _ | .partitionStop req _ | .controlReset req _ | .makerDebug req _ _ => req.wf
  | .registerWrite addr _ => regAddr addr.toNat
  | .registerRead _ addr => regAddr addr.toNat
  | _ => true

end Sys2Proof
end

