-- ==== Sys2Proof/Tests/Slice0.lean ====
section
/-! SUPPORT. Tests: ill-formed commands are refused, words of the spec decode, and for every statement with
hypotheses a state and operands that meet them. -/

namespace Sys2Proof.Machine

set_option maxRecDepth 100000

/-! ## States -/

/-- The state after a fetch of thread `m`. -/
def got (s : State) (m : Nat) : State := (s.fetched m).getD s

/-- A thread that can issue does so, with the state after its fetch. -/
theorem issues_got {s : State} {t : ThreadId} {rs : List (BitVec 6)} (h : (s.fetched t.val).isSome = true) (h1 : s.stalled = false)
    (h2 : regsOk rs = true) : Issues t rs s (got s t.val) := by
  refine ⟨?_, h1, h2⟩
  unfold got
  cases hf : s.fetched t.val with
  | none => rw [hf] at h; exact absurd h (by decide)
  | some x => rfl

/-- The architected state of thread 0 in the Secure World, at pc 0x100000, with FPE and four registers. -/
def secArch : Arch :=
  { (((((Arch.reset 0).setG 1 0x200008).setG 2 7).setG 3 0x300000).setG 4 0x200001).setSr 1
      (setFld ((Arch.reset 0).srv 1) 12 12 1) with pc := 0x100000 }

def withArch (s : State) (a : Arch) : State := s.setThr 0 { Thread.reset 0 with cur := a, hard := a, run := .running }

/-- The boot thread, with values in g1 to g4. -/
def boot : State := withArch State.reset secArch

/-- The architected state of a tenant's thread at a level: PID 1. -/
def tenantArch (lvl : Nat) : Arch :=
  let a := (secArch.setSr 1 (setFld (secArch.srv 1) 15 14 lvl)).setSr 4 (pack [(31, 26, 1)])
  { a with lvls := [(0, lvl)] }

/-- The POT at 0x200000 is in force, and granule 0x10 is owned by partition 1. -/
def potOn : State := (State.reset.setReg .potBase [] 0x200001).wr 0x200080 [0x04, 0x40]

/-- Thread 0 runs in partition 1 at Supervisor level. -/
def tenant : State := withArch potOn (tenantArch 1)

def withSr (a : Arch) (n : Nat) (v : W64) : Arch := a.setSr n v

/-- Pairing and Scion are on. -/
def paired (f : Scion → Scion) : State :=
  let s := (State.reset.setReg .scnCtl [] 1).setReg .scnPriv [] 1
  { s with scn := f s.scn }

/-- An access of thread 0 to a target that `kind` admits succeeds, and what it gives has a property. -/
def reaches (lvl : Nat) (acs : Acs) (kind : Nat → Bool) (va : Nat) (s : State) (p : Nat → State → Bool) : Bool :=
  match accessAs 0 lvl acs kind va s with
  | .ok (pa, s2) => p pa s2
  | _ => false

/-- A result that is there has a property. -/
def okAnd {α : Type} (r : R α) (p : α → Bool) : Bool :=
  match r with
  | .ok x => p x
  | _ => false

/-- Is it the outcome of a run that goes on? -/
def goesOn (o : Host.Outcome State Fault Refusal) : Bool :=
  match o with
  | .next _ => true
  | _ => false

/-! ## Encodings -/

/-- Every check of `Instr.wellFormed` refuses an ill-formed command. -/
theorem test_ill_formed :
    (([.gatereq true 113 1, .gatereq true 3 3, .wrinv (.hub .trellis) 0 [0], .wrinvpart (.hub .trellis) 0 [],
      .wrinvpart (.hub .trellis) 0 [(3, 0), (3, 1)], .deviceLoadComplete 0 true [0, 0, 0], .adapterDmaRead 0 0 none 0 0,
      .adapterDmaRead 0 0 none 0 4097, .adapterDmaWrite 0 0 none 0 [], .trellisLinkUp 0 0 1, .trellisLinkUp 0 6 1, .trellisLinkUp 0 1 2,
      .hello false 0 [0], .scionAuth [0], .line 0 0 false [0], .regd 0 112 [], .regd 0 0 [(5, 0), (5, 0)], .mmio 0 0 [0, 0, 0] 0 0,
      .mmio 0 0 [0] 0 112, .mmiop 0 12 0, .img 0 [0], .bindEnable .garnet 1 8 0 0, .bindEnable .sieve 1 0 1025 0,
      .bindEnable .sieve 1 0 0 8, .bindDisable .garnet 1 8] : List Instr).any Instr.wellFormed) = false := by decide

theorem test_ill_formed_lengths :
    Instr.wellFormed (.adapterDmaWrite 0 0 none 0 (List.replicate 4097 0)) = false ∧ Instr.wellFormed (.comp 0 (List.replicate 0x4000 0)) = false ∧
    Instr.wellFormed (.openSession false 0 (List.replicate 1513 0) 1) = false ∧ Instr.wellFormed (.auth false 0 (List.replicate 1513 0) true) = false ∧
    Instr.wellFormed (.close false 0 (List.replicate 1513 0)) = false ∧ Instr.wellFormed (.read (.frame false 0 (List.replicate 1513 0))) = false := by
  decide

theorem test_ill_formed_resets :
    (([.rstCmdPartition 49 0, .rstCmdCore 56 0, .read (.inBand 0), .readseg (.inBand 0), .describe (.inBand 0), .subscribe (.inBand 0),
      .unsubscribe (.inBand 0), .write (.inBand 0) true, .writeseg (.inBand 0) true, .powerCommand (.inBand 0) true,
      .moduleResetObject (.inBand 0) true, .gateRequestObject (.inBand 0) true, .kekLoad (.inBand 0) true, .partitionStart (.inBand 0) true,
      .partitionStop (.inBand 0) true, .controlReset (.inBand 0) true, .makerDebug (.inBand 0) true true, .registerWrite 0x1000 0,
      .registerWrite 0xFF0000000001 0, .registerRead 0 0xFF0100000000] : List Instr).any Instr.wellFormed) = false := by decide

theorem test_well_formed :
    (([.gatereq true 112 2, .wrinvpart (.hub .trellis) 0 [(3, 0), (4, 1)], .deviceLoadComplete 0 true [0, 0], .adapterDmaRead 0 0 none 0 4096,
      .trellisLinkUp 0 5 8, .regd 0 111 [(5, 0), (6, 0)], .mmiop 0 11 0, .bindEnable .garnet 1 7 1024 7, .rstCmdPartition 48 0,
      .rstCmdCore 55 0, .read (.inBand 48), .registerWrite 0xFF0000000008 0] : List Instr).all Instr.wellFormed) = true := by decide

/-- The image and its start record have their limits. -/
theorem test_ill_formed_image (image record : List Byte) (h : 0x800000 < image.length ∨ 0x100000 < record.length) :
    Instr.wellFormed (.rootstockImageVerified [] true true image record 0 0) = false := by
  simp only [Instr.wellFormed, Bool.and_eq_false_iff, decide_eq_false_iff_not]
  omega

/-- Words of the integer formats, field by field as R58 to R70 write them. -/
theorem test_decode_integer :
    decodeKza 0 (0x01#6 ++ 1#6 ++ 2#6 ++ 3#6 ++ 0x03#8) = some (.aluGroup 0 .sub true 1 2 3) ∧
    decodeKza 0 (0x01#6 ++ 1#6 ++ 2#6 ++ 3#6 ++ 0x17#8) = none ∧
    decodeKza 0 (0x05#6 ++ 1#6 ++ 2#6 ++ 0x2FFF#14) = some (.immediate 0 .andi 1 2 0x2FFF) ∧
    decodeKza 0 (0x09#6 ++ 1#6 ++ 2#6 ++ 0x08#6 ++ 0#2 ++ 63#6) = some (.shifti 0 .rori 1 2 63) ∧
    decodeKza 0 (0x0A#6 ++ 1#6 ++ 2#6 ++ 0#6 ++ 0x0C#8) = some (.bitGroup 0 .clz 1 2) ∧
    decodeKza 0 (0x0B#6 ++ 1#6 ++ 2#6 ++ 3#6 ++ 0x10#8) = some (.crc 0 .crc32c 0 1 2 3) ∧
    decodeKza 0 (0x0C#6 ++ 1#6 ++ 2#6 ++ 3#6 ++ 0x0B#8) = some (.muldiv 0 .divu true 1 2 3) ∧
    decodeKza 0 (0x0D#6 ++ 1#6 ++ 0xFFFFF#20) = some (.ldi 0 1 0xFFFFF) ∧
    decodeKza 0 (0x0E#6 ++ 1#6 ++ 0x80000#20) = some (.ldu 0 1 0x80000) ∧
    decodeKza 0 (0x0F#6 ++ 1#6 ++ 2#20) = some (.addpc 0 1 2) ∧
    decodeKza 0 (0x01#6 ++ 40#6 ++ 2#6 ++ 3#6 ++ 0x00#8) = none := by decide

/-- Words of the memory formats (R72 to R79). -/
theorem test_decode_memory :
    decodeKza 0 0x5D344018 = some (.load 0 .ldd 19 (.disp 17 0x18)) ∧
    decodeKza 0 (0x10#6 ++ 5#6 ++ 3#20) = some (.ldpc 0 5 3) ∧
    decodeKza 0 (0x22#6 ++ 1#6 ++ 2#6 ++ 3#6 ++ 0x0B#8) = some (.store 0 .std 1 (.index 2 3)) ∧
    decodeKza 0 (0x1E#6 ++ 63#6 ++ 2#6 ++ 16#14) = some (.load 0 .ldfq 63 (.disp 2 16)) ∧
    decodeKza 0 (0x23#6 ++ 1#6 ++ 2#6 ++ 8#14) = some (.ldrv 0 1 2 8) ∧
    decodeKza 0 (0x24#6 ++ 1#6 ++ 2#6 ++ 3#6 ++ 0x10#8) = some (.stcd 0 false 1 3 2) ∧
    decodeKza 0 (0x24#6 ++ 1#6 ++ 2#6 ++ 3#6 ++ 0x03#8) = some (.atomGroup 0 .cas true 1 2 3) ∧
    decodeKza 0 (0x26#6 ++ 50#6 ++ 2#6 ++ 16#14) = some (.stnt 0 true 50 2 16) ∧
    decodeKza 0 (0x27#6 ++ 1#6 ++ 2#6 ++ 0#14) = some (.pref 0 1 2 0) := by decide

/-- Words of transfers, SYS, state registers, routines and floating point (R80 to R93). -/
theorem test_decode_control :
    decodeKza 0 0xA040FFFD = some (.bcc 0 1 (-3)) ∧
    decodeKza 0 (0x29#6 ++ 6#4 ++ 9#6 ++ 4#16) = some (.brr 0 6 9 4) ∧
    decodeKza 0 (0x2A#6 ++ 0x3FFFFFF#26) = some (.br 0 (-1)) ∧
    decodeKza 0 (0x2B#6 ++ 16#26) = some (.call 0 (.rel 16)) ∧
    decodeKza 0 (0x2C#6 ++ 0#6 ++ 7#6 ++ 4#14) = some (.jr 0 0 7 4) ∧
    decodeKza 0 (0x2D#6 ++ 0#6 ++ 7#6 ++ 4#14) = some (.call 0 (.reg 7 4)) ∧
    decodeKza 0 (0x2E#6 ++ 0#26) = some (.ret 0) ∧
    decodeKza 0 (0x2F#6 ++ 0#12 ++ 0x04#6 ++ 0x2A#8) = some (.trap 0 0x2A) ∧
    decodeKza 0 (0x2F#6 ++ 0#12 ++ 0x0A#6 ++ 0x03#8) = some (.barS 0 3) ∧
    decodeKza 0 (0x2F#6 ++ 0#12 ++ 0x0A#6 ++ 0x00#8) = none ∧
    decodeKza 0 (0x30#6 ++ 3#6 ++ 0#6 ++ 0#2 ++ 0x041#12) = some (.mfsr 0 3 0x041) ∧
    decodeKza 0 (0x31#6 ++ 0#6 ++ 3#6 ++ 0#2 ++ 0x008#12) = some (.ipisend 0 3) ∧
    decodeKza 0 (0x39#6 ++ 1#6 ++ 2#6 ++ 3#6 ++ 0x01#8) = some (.ecall 0 .garnet 1 2 3) ∧
    decodeKza 0 (0x3A#6 ++ 1#6 ++ 2#6 ++ 2#6 ++ 0#8) = none ∧
    decodeKza 0 (0x32#6 ++ 1#6 ++ 2#6 ++ 3#6 ++ 1#2 ++ 0x03#6) = some (.fpb 0 .b64 .div 1 2 3) ∧
    decodeKza 0 (0x33#6 ++ 1#6 ++ 2#6 ++ 0#6 ++ 1#2 ++ 0x14#6) = some (.fpd 0 .d128 (.cvt .d128) 1 2 0) ∧
    decodeKza 0 (0x33#6 ++ 6#6 ++ 6#6 ++ 7#6 ++ 0#2 ++ 0x30#6) = some (.dquant 0 .d64 6 6 7) ∧
    decodeKza 0 0xD8610506 = some (.fma 0 .d64 false 6 4 5 6) ∧ decodeKza 0 0 = none := by decide


/-! ## Hypotheses of the statements on instructions -/

/-- A step that goes on, from memory in canonical form. -/
theorem test_MemoryStaysCanonical_hyps :
    Memory.wf boot.mem = true ∧ goesOn (step (boot.withFront (.nop 0))) = true ∧ State.reset.pending = [] := by decide

theorem test_Kza_hyps : (encodeKza (.nop 0)).isSome = true ∧ (decodeKza 0 0x5D344018).isSome = true := by decide

/-- The boot thread issues an instruction with registers 1 to 3. -/
theorem test_issues : Issues 0 [1, 2, 3] boot (got boot 0) := issues_got (by decide) (by decide) (by decide)

theorem test_AluResults_hyps : Issues 0 [1, 2, 3] boot (got boot 0) := test_issues

theorem test_ImmediateResults_hyps : Issues 0 [1, 2] boot (got boot 0) := issues_got (by decide) (by decide) (by decide)

theorem test_MulDivBitResults_hyps : Issues 0 [1, 2, 3] boot (got boot 0) ∧ ((got boot 0).arch 0).g 3 ≠ 0 :=
  ⟨test_issues, by decide⟩

theorem test_CrcResult_hyps : Issues 0 [1, 2, 3] boot (got boot 0) := test_issues

theorem test_StepRunsFront_hyps : State.reset.pending = [] ∧ step State.reset = .next State.reset := ⟨rfl, rfl⟩

/-- So do AluResults, FlagsOfFForms, ImmediateResults, MulDivBitResults and CrcResult: a divisor other than zero. -/
theorem test_FlagsOfFForms_hyps :
    ((got boot 0).arch 0).g 3 ≠ 0 ∧ Map.wf Thread.reset (got boot 0).threads = true ∧ ((got boot 0).arch 0).g 1 = 0x200008 ∧
    goesOn (exec (.aluGroup 0 .add false 1 2 3) boot) = true ∧ goesOn (exec (.muldiv 0 .mul false 1 2 3) boot) = true ∧
    goesOn (exec (.immediate 0 .addi 1 2 3) boot) = true ∧ goesOn (exec (.shifti 0 .slli 1 2 3) boot) = true := by decide

theorem test_RegisterWriteFrame_hyps :
    Map.wf Thread.reset boot.threads = true ∧ Map.wf zero64 (boot.arch 0).regs = true ∧ (boot.arch 0).cwp < 28 ∧
    (39 : BitVec 6).toNat < 40 := by decide

/-- Conditions at the ends of both tables; what follows them is illegal. -/
theorem test_ConditionalBranches_hyps :
    (14 : BitVec 4).toNat < 15 ∧ (7 : BitVec 4).toNat < 8 ∧ 8 ≤ (8 : BitVec 4).toNat := by decide

/-- Thread 0 with `n` resident frames and all of the Secure World, and a save stack at 0x400000 whose top record is a frame's. -/
def framed (n : Nat) : State :=
  let a := withSr (withSr (withSr secArch 2 (setFld (secArch.srv 2) 12 8 n)) 0x13 0x400000) 0x17 0x3F0000
  (withArch State.reset { withSr a 0x0A (pack [(63, 48, 1)]) with lvls := (List.range 28).map fun w => (w, 3) }).wr 0x4000C0 (dwords [pack [(63, 56, 0xA5), (9, 8, 3)]])

/-- Each number of frames at which a transfer spills, fills, or does neither. -/
theorem test_TransfersWithinWindows_hyps :
    (∀ n ∈ [1, 2, 25, 26, 27], ((framed n).fetched 0).isSome = true ∧ (framed n).stalled = false ∧ ((got (framed n) 0).arch 0).res = n) ∧
    okAnd (spill 0 ((got (framed 26) 0).arch 0) (got (framed 26) 0)) (fun x => !x.2.stalled) = true ∧
    okAnd (spill 0 ((got (framed 27) 0).arch 0) (got (framed 27) 0)) (fun x => okAnd (spill 0 x.1 x.2) fun y => !y.2.stalled) = true ∧
    okAnd (fillFrame 1 0 3 ((got (framed 1) 0).arch 0) (got (framed 1) 0)) (fun x => !x.2.stalled) = true := by decide

/-- Threads with free banks, in the Secure World and in a partition. -/
theorem test_ExceptionsAreEntered_hyps :
    (∀ s ∈ [boot, tenant], (s.fetched 0).isSome = true ∧ s.stalled = false ∧
      Map.wf Thread.reset (got s 0).threads = true ∧ Map.wf srDefault ((got s 0).arch 0).sr = true ∧ ((got s 0).core 0).attempts = 0 ∧
      ((got s 0).thr 0).kept = [] ∧ ((got s 0).arch 0).res < 27 ∧
      ∀ b ∈ [1, 2, 3], bit (((got s 0).arch 0).srv (bankBase b + 2)) 63 = false) ∧
    decodeKza 0 0 = none ∧ (tenant.arch 0).pl = 1 ∧ ((got tenant 0).arch 0).pl = 1 ∧ tenant.csOk 0 0x2F0 = true ∧
    (got tenant 0).override 0 0x2F0 = none := by decide

/-- A busy bank. -/
def busyBank : State := withArch State.reset (withSr secArch 0x42 (pack [(63, 63, 1), (7, 0, 0x13)]))

theorem test_DoubleExceptionStops_hyps :
    bit ((busyBank.thr 0).cur.srv (bankBase 3 + 2)) 63 = true ∧ (busyBank.thr 0).kept = [] ∧
    Map.wf Thread.reset busyBank.threads = true := by decide

/-- A thread in bank X with a caller at Supervisor level in partition 1. -/
def leaving : State := withArch State.reset
  (withSr (withSr (withSr secArch 2 (setFld (secArch.srv 2) 12 8 2)) 0x41 (pack [(45, 45, 1), (43, 38, 4), (15, 14, 1)])) 0x40 0x100100)

/-- A supervisor that goes back to User level. -/
def toUser : State := withArch potOn (withSr (tenantArch 1) 2 (setFld (secArch.srv 2) 12 8 2))

theorem test_EretRestores_hyps :
    ∀ s ∈ [leaving, toUser], (s.fetched 0).isSome = true ∧ s.stalled = false ∧ Map.wf Thread.reset (got s 0).threads = true ∧
      let a := (got s 0).arch 0
      Map.wf srDefault a.sr = true ∧ 1 ≤ a.pl ∧ fld (a.srv (bankBase a.pl + 1)) 15 14 ≤ a.pl ∧ a.res ≠ 1 ∧ a.res < 32 ∧ a.cwp < 28 ∧
      (got s 0).rf .fltFatal [] 63 63 ≠ 1 := by decide

/-- A thread at User level. -/
def user : State := withArch potOn (tenantArch 0)

/-- A register with levels, one without a write level, one that is none. -/
theorem test_StateRegisterMoves_hyps :
    (user.fetched 0).isSome = true ∧ ((got user 0).arch 0).pl = 0 ∧ (user.arch 0).pl = 0 ∧ user.csOk 0 0x2F1 = true ∧
    (srRow 6).any (fun r => decide (0 < r.rd) && decide (r.rd < 4)) = true ∧ (srRow 1).any (fun r => decide (0 < r.wr) && decide (r.wr < 4)) = true ∧
    (srRow 5).any (fun r => r.wr == 4) = true ∧ (srRow 0xFFF).isNone = true ∧ (boot.arch 0).fpe = true ∧
    (srRow 0).any (fun r => decide (r.rd ≤ 0) && decide (r.wr ≤ 0)) = true := by decide

theorem test_StateRegisterMoves_write_only : (List.range 0x60).any (fun n => (srRow n).any fun r => r.rd == 4) = true := by decide

/-- No interrupt may be taken: what the clauses on faults of ExceptionsAreEntered, ConditionalBranches,
StateRegisterMoves, WaitsBarriersMessages, MisalignedAccesses and FloatResults ask. -/
theorem test_calm : (boot.irqAt 0).isNone = true ∧ (tenant.irqAt 0).isNone = true ∧ (user.irqAt 0).isNone = true := by decide

/-- A thread that waits with level 9 pending and enabled. -/
def waits : State := potOn.setThr 0 { Thread.reset 0 with
  cur := withSr (tenantArch 1) 1 (pack [(15, 14, 1), (13, 13, 1)]), hard := tenantArch 1, run := .waiting, ipi := true }

theorem test_WaitsBarriersMessages_hyps :
    1 ≤ ((got boot 0).arch 0).pl ∧ ((got boot 0).core 0).attempts = 0 ∧ boot.csOk 0 0x2F1 = true ∧ ((got boot 0).arch 0).res = 1 ∧
    (got boot 0).override 0 0x2F1 = none ∧
    (waits.thr 0).run = .waiting ∧ waits.islRuns 0 = true ∧ waits.power.state = .run ∧ (waits.takeable 0 15).isSome = true ∧
    ((got boot 0).thr 0).sb = [] ∧ ((got boot 0).thr 0).cb = [] ∧ ((got boot 0).thr 0).losses = [] ∧
    (∀ p < 12, (got boot 0).portStores 0 p = false) ∧ (15 : BitVec 8).toNat < 16 ∧ (16 : BitVec 8).toNat = 16 := by decide

/-- A thread that may take level 9, and one that may take nothing. -/
def pendingIrq : State := waits.modThr 0 fun t => { t with run := .running }

theorem test_InterruptEntry_hyps :
    (∀ s ∈ [pendingIrq, boot], s.canRun 0 = true ∧ s.stalled = false ∧ (s.core 0).attempts = 0 ∧ (s.thr 0).devVal = none ∧
      (s.thr 0).kept = [] ∧ Map.wf Thread.reset s.threads = true ∧ Map.wf srDefault (s.arch 0).sr = true ∧ (s.arch 0).res < 27) ∧
    (boot.takeable 0 15).isNone = true ∧ (pendingIrq.irqAt 0).isSome = true ∧ (pendingIrq.fetched 0).isSome = true ∧
    decodeKza 0 0 = none ∧ (pendingIrq.thr 0).abandoned < 8 ∧ (pendingIrq.takeable 0 15).any (fun x => x.1 == 9 && !bit ((pendingIrq.arch 0).srv (bankBase x.2 + 2)) 63) = true := by decide

/-- A DRAM access of thread 0 by whose line the L2 gains ownership. -/
def ownsLine (s : State) (acs : Acs) (kind : Nat → Bool) (va : Nat) (excl : Bool) (p : Nat → State → State → Bool) : Bool :=
  reaches 3 acs kind va s fun pa s2 => decide (pa < s2.dram) && (s2.inCb 0 (pa / 256)).isNone && decide ((s2.thr 0).groups = []) &&
    (s2.acquire 0 (s2.arch 0).chkPid (pa / 256) excl).any fun s3 => !s3.poisoned (pa / 256) && !s3.stalled && p pa s2 s3

/-- A doubleword in the Secure World, and the last byte of a line. -/
theorem test_LoadsFromMemory_hyps : ∀ x ∈ [(0x200008, 8), (0x2000FF, 1)], ownsLine (got boot 0) .read ((got boot 0).takes x.2) x.1 false
    (fun pa _ s3 => !(s3.l1Read false 0 (pa / 256)).stalled) = true := by decide

theorem test_LoadDelay_hyps : Map.wf zero64 secArch.regs = true ∧ Map.wf zero128 secArch.fregs = true ∧ secArch.cwp < 28 := by decide

theorem test_StoresEnterTheBuffer_hyps : reaches 3 .write ((got boot 0).takes 8) 0x200008 (got boot 0) (fun pa s2 => decide (pa < s2.dram) &&
    decide (pa % 8 = 0) && (s2.inCb 0 (pa / 256)).isNone && !s2.stalled && decide ((s2.thr 0).sb = []) &&
    Map.wf Thread.reset s2.threads) = true := by decide

/-- g4 holds an odd address. -/
theorem test_MisalignedAccesses_hyps : ((got boot 0).arch 0).g 4 = 0x200001 ∧ ((got boot 0).arch 0).fpe = true ∧
    (((got boot 0).arch 0).g 4).toNat % 2 ≠ 0 := by decide

/-- Thread 0 holds a reservation of the line of 0x200008. -/
def reserving : State := withArch State.reset { secArch with rsv := some 0x2000 }

theorem test_AtomicsUnderOwnership_hyps :
    (∀ acs ∈ [Acs.read, .write], ownsLine (got reserving 0) acs (got reserving 0).isDram 0x200008 true (fun pa s2 s3 =>
      decide ((s2.thr 0).olderGen (s2.thr 0).barGen = false) && decide ((s2.thr 0).cb = []) &&
      decide (((s3.modThr 0 Thread.fence).core 0).attempts = 0) && decide ((s3.thr 0).sb = []) && Map.wf Thread.reset s3.threads &&
      !s3.storeStalls 0 (pa / 256) && decide (pa / 256 = 0x2000) &&
      (let w := (s3.modThr 0 Thread.fence).l2Write 0 pa (toBytes 8 7)
       Map.wf Thread.reset w.threads && !w.stalled && decide ((w.core 0).attempts = 0))) = true) ∧
    ((got reserving 0).arch 0).rsv = some 0x2000 ∧ (boot.arch 0).rsv ≠ some 0x2000 ∧
    (∀ n ∈ [0, 1], let s := reserving.modThr 0 fun t => { t with loop := some ⟨0xFFFF8, 0x2000, 2, n, []⟩ }
      ((s.thr 0).loopSure && (s.thr 0).inLoop 0x2000) = (n == 1)) := by decide

theorem test_NonTemporalAndPrefetch_hyps : reaches 3 .write (got boot 0).isDram 0x200010 (got boot 0) (fun pa s2 => decide (pa < s2.dram) && !s2.stalled &&
    decide ((s2.thr 0).sb = []) && decide ((s2.thr 0).cb = []) && Map.wf Thread.reset s2.threads) = true ∧
    (prefBody 0 1 0x200010 ((got boot 0).arch 0) (got boot 0)).stalled = false := by decide

theorem test_BmovUnit_hyps : okAnd (bytesAt 0 .read secArch 3 0x2000F0 5 (got boot 0)) (fun (sp, s2) =>
    okAnd (bytesAt 0 .write secArch 3 0x3000FB 5 s2) fun (dp, s3) => okAnd (readAt 0 sp s3) fun (bs, s4) =>
      okAnd (storeMem 0 (dp.headD 0) (copyUp [] (sp.zip (dp.zip bs))) false s4) fun s5 =>
        !s5.stalled && decide ((s5.core 0).attempts = 0) && Map.wf Thread.reset s5.threads) = true ∧ boot.csOk 0 0x3A0 = true ∧
    (got boot 0).override 0 0x3A0 = none ∧ Map.wf Thread.reset (got boot 0).threads = true := by decide

/-- Half a unit, in either base. -/
theorem test_OneRounding_hyps : roundAt 2 .rne false ⟨3, 2, 0, false⟩ 0 = (2, true) ∧ roundAt 10 .rna false ⟨25, 1, 0, false⟩ 1 = (3, true) ∧
    roundAt 2 .dn true ⟨5, 2, 0, false⟩ 0 = (3, true) ∧ roundAt 10 .up false ⟨7, 1, 0, false⟩ 0 = (7, false) := by decide

/-- No trap is enabled, or all of them are. -/
theorem test_FloatResults_hyps : fld ((withSr secArch 3 (pack [(12, 8, 31)])).srv 3) 12 8 &&& Fl.inv.bits ≠ 0 ∧
    fld (secArch.srv 3) 12 8 = 0 ∧ secArch.fpe = true ∧ (Arch.reset 0).fpe = false ∧ boot.csOk 0 0x334 = true ∧ (got boot 0).override 0 0x334 = none ∧
    (fmtOf .b64).dec = false ∧ (fmtOf .d128).dec = true := by decide

/-! ## Postings and retries -/

/-- The set 0 of partition 1 is enabled; a queue of 2^`k` slots at 0x104000. -/
def withQueue (s : State) (x : Sq) : State :=
  let s1 := (s.setReg .trlCtxbase [] 1).setReg .trlPcfg [1] (pack [(63, 63, 1)])
  { s1 with trl := { s1.trl with sqs := [x] } }

/-- The tenant's image at 0x108000 has one descriptor, at 0x109000. -/
def poster : State :=
  (((withQueue potOn ⟨1, 0, 0, 0x104000, 2, 0, 0, true, .empty, 0, none⟩).wr 0x108005 [0x40]).wr 0x10803D [0x10, 0x90]).setThr 0
    { Thread.reset 0 with cur := tenantArch 1, hard := tenantArch 1, run := .running }

/-- A doorbell that names no queue, and one of the queue. -/
theorem test_PostingRoutines_hyps :
    okAnd (accessAs 0 1 .read (got poster 0).isDram 0x108000 (got poster 0)) (fun (pa, s2) => decide (pa < s2.dram) &&
      okAnd (loadMem 0 pa 128 s2) fun (img, s3) => okAnd (access 0 1 .write 0xF00000800000 s3) fun (db, s4) =>
        isDoorbell db && (dbPage db).mine 1 && (s4.postQueue (some 1) db).isNone && !s4.stalled && (s4.postQueue none db).any fun q => q.on &&
        (s4.postSlot 0 db q.ref).any fun (slot, s5) => decide (postShape none img = (0x38, 1)) &&
          okAnd (arrayAt 0 0x109000 16 (tenantArch 1) s5) fun (arr, s6) => arr == some 0x109000 &&
            okAnd (flagsFree 0 0x109000 0x109000 (tenantArch 1) 1 0 s6) fun (bad, s7) => bad.isNone &&
              decide (q.base + 128 * (slot % q.size) < s7.dram) && s7.ownOk (some 0) false 1 false (q.base + 128 * (slot % q.size)) &&
              okAnd (postCommit 0 db (q.base + 128 * (slot % q.size)) 0x109000 1 slot img s7) fun u => !u.stalled) = true ∧
    (poster.arch 0).pl = 1 ∧ (poster.arch 0).pid = 1 ∧ ((got poster 0).arch 0).chkPid = 1 ∧ poster.csOk 0 0x380 = true ∧ (got poster 0).override 0 0x380 = none ∧
    ((({ poster with trl := { poster.trl with sqs := [⟨1, 0, 0, 0, 2, 0, 0, false, .empty, 0, none⟩] } } : State).postQueue none 0xF00000800000).any
      fun q => !q.on) = true := by decide

/-- The first attempt and the third. -/
theorem test_RetryRestoresTheCheckpoint_hyps :
    ∀ n ∈ [0, 3], let s := boot.modCore 0 fun x => { x with attempts := n }
      Map.wf Thread.reset s.threads = true ∧ Map.wf Core.reset s.cores = true ∧ s.islRuns 0 = true ∧ (s.core 0).due = none ∧
      (s.thr 0).active = true ∧ (s.thr 1).hardStore 0x200000 = false ∧ (s.core 0).attempts = n := by decide

/-- One group to harden, one hardened store and one full combining line. -/
def draining : State := boot.modThr 0 fun t => { t with
  groups := [secArch], hseq := 1, seq := 2, sb := [⟨false, 0x2000, [⟨0x200008, [7], 1, 0, 0, 0, 0, false⟩], none, 0⟩],
  cb := [⟨0x2001, [⟨0x200100, [7], 1, 0, 0, 0, 0, false⟩]⟩], hold := some 0x2002 }

theorem test_HardeningAndDrains_hyps :
    (draining.thr 0).groups = [secArch] ∧ draining.islRuns 0 = true ∧ (draining.core 0).attempts = 0 ∧ draining.stalled = false ∧
    (∀ l ∈ (draining.thr 0).cb, l.data.length ≠ 256) ∧ Map.wf Thread.reset draining.threads = true ∧ (draining.thr 0).hold = some 0x2002 ∧
    ((draining.thr 0).sb.find? fun e => !e.device && e.line == 0x2000).any (fun e => (draining.thr 0).hardened e &&
      (draining.thr 0).sb.all (fun y => decide (e.gen ≤ y.gen)) && (draining.acquire 0 0 0x2000 true).any fun s => Map.wf Thread.reset s.threads) = true ∧
    (draining.inCb 0 0x2001).any (fun l => (draining.combLeave 0 l).isSome) = true := by decide

/-- Core 0 is due for sparing, with a spare. -/
def dueCore : State := ((boot.setReg .rstCorespare [] 2).setReg .rstCoresvc [] 1).modCore 0 fun x => { x with due := some 0x0101 }

/-- A sparing to end, with its spare; the partition of its thread 1 was reset. -/
def sparingDone (spare : Option Nat) : State :=
  { State.reset with sparings := [⟨0, 0, 0x0101, true, true, spare, .held, .held, false, true, 0⟩], rcm := 1 }

theorem test_SparingAndPatches_hyps :
    (dueCore.core 0).due = some 0x0101 ∧ dueCore.sparings = [] ∧ dueCore.pickSpare 0 = some 1 ∧ (dueCore.thr 0).active = true ∧
    Map.wf Thread.reset dueCore.threads = true ∧ Map.wf regDefault dueCore.regs = true ∧
    (∀ i ∈ [0, 1], Map.wf srDefault (dueCore.thr i).hard.sr = true) ∧ dueCore.islRuns 0 = true ∧
    (∀ d < 56, (dueCore.core d).due.isSome = true → eventBefore (dueCore.core d).dueAt d (dueCore.core 0).dueAt 0 = false) ∧
    Map.wf Core.reset dueCore.cores = true ∧ ∀ k ∈ [none, some 1], let s := sparingDone k
      s.drained 0 = true ∧ s.linesIn 0 = [] ∧ Map.wf regDefault s.regs = true ∧ Map.wf Thread.reset s.threads = true := by decide

/-- Patch loads: before the checks, during them, and one that a check turns away. -/
theorem test_SparingAndPatches_patch :
    State.reset.rf .rstCsctl [] 1 1 ≠ 1 ∧ State.reset.rf .rstCsstat [] 7 0 ≠ 1 ∧ State.reset.rf .potBase [] 0 0 = 0 ∧
    (let s := (State.reset.setRf .rstCsstat [] 7 0 1).setRf .rstCsver [] 0 0 1
     s.rf .rstCsstat [] 7 0 = 1 ∧ s.patchCheck true ≠ 2 ∧ Map.wf regDefault s.regs = true) := by decide

/-! ## Coherence -/

/-- Line 5 with its active transaction, still to snoop core 1, whose L2 has it in a state. -/
def asked (k : ReqKind) (st : L2State) : State :=
  ({ State.reset with txns := [⟨⟨k, .core 0, 5, []⟩, false, [1], [], [], [], false, false, false, []⟩] }).setL2 1 5 ⟨st, false, 0⟩

/-- Each state of the snooped L2, and a line with no transaction. -/
theorem test_SnoopAnswers_hyps : ∀ st ∈ [L2State.i, .s, .f, .e, .o, .m, .ep],
    let s := asked .rdOwn st
    (s.txn 5).any (fun t => t.toSnoop.contains 1) = true ∧ s.holds 1 5 = false ∧ Map.wf L2Line.none s.l2 = true ∧ (s.l2l 1 5).st = st := by decide

theorem test_RequestsAreOrdered_hyps :
    5 * 256 < State.reset.dram ∧ State.reset.txn 5 = none ∧ State.reset.trackerFree 5 = true ∧ State.reset.poisoned 5 = false ∧
    State.reset.trackers (sliceOf 5) ≤ 224 ∧ (State.reset.l2l 0 5).st = .i ∧ State.reset.ingress ++ State.reset.atRing = [] ∧ State.reset.txns = [] ∧
    State.reset.prefCmp = [] ∧ State.reset.l2Requests 0 ≤ 56 ∧ bit (State.reset.reg .potPfdis []) (State.reset.prefPid 0 0) = false ∧
    ((asked .rdOwn .i).txn 5).isSome = true ∧ (asked .rdOwn .i).l2Requests 1 ≤ 56 ∧
    ((State.reset.setL2 0 5 ⟨.s, false, 0⟩).l2l 0 5).st = .s ∧ ((asked .rdOwn .i).txn 5).any (fun t => decide (t.queue.length < 16)) = true := by decide

/-- A transaction whose responses are in. -/
def answered (k : ReqKind) (filled : Bool) : State :=
  { State.reset with txns := [⟨⟨k, if k = .wrInv ∨ k = .rdOnce then .hub 0 else .core 0, 5, []⟩, false, [], [], [], [(1, .i)], false, filled, false, []⟩] }

theorem test_TransactionsComplete_hyps :
    Map.wf L2Line.none State.reset.l2 = true ∧ Memory.wf State.reset.mem = true ∧ Map.wf noLines State.reset.mcq = true ∧
    (∀ k ∈ [ReqKind.rdOwn, .upgrade, .wrInv, .rdOnce], let s := answered k false
      (s.txn 5).any (fun t => t.complete && !t.filled && t.queue.isEmpty && decide (t.req.kind = k)) = true ∧ s.ingress = [] ∧ s.stalled = false) ∧
    ((answered .rdOwn true).txn 5).any (fun t => t.filled) = true ∧ (((State.reset.setL2 1 5 ⟨.m, false, 0⟩).l2l 1 5).st = .m) ∧
    (((State.reset.setL2 1 5 ⟨.ep, false, 0⟩).l2l 1 5).st = .ep) ∧
    (∀ r ∈ [Rsp.i, .data true], let t : Txn := ⟨⟨.rdOwn, .core 0, 5, []⟩, false, [], [(1, r)], [], [], false, false, false, []⟩
      let s : State := { State.reset with txns := [t] }
      let t1 := { t with flying := [], got := [(1, r)] }
      s.txn 5 = some t ∧ t1.complete = true ∧ (match (s.setTxn t1).way 0 5 with
        | .ready _ => true
        | _ => false) = true) := by decide

/-- A requester whose way is free, and a dropped prefetch. -/
theorem test_TransactionsComplete_fills :
    (let s := answered .rdOwn false
     s.prefCmp = [] ∧ (∀ k < 56, (s.l2l k 5).st ≠ .ep) ∧ ((s.txn 5).any fun t => t.req.core? == some 0 && !t.supplied) = true ∧
       (match (s.l3Use 5 true).way 0 5 with
        | .ready _ => true
        | _ => false) = true) ∧ ∃ x ∈ ({ State.reset with prefCmp := [(0, 5)] } : State).prefCmp, x.2 = 5 := by decide

/-! ## The POT, services, leases -/

/-- Granule 0x10 may go from Owned to Window and not to Scrub's successor; while busy; with the POT off. -/
theorem test_PotCommandsAreChecked_hyps :
    Memory.wf potOn.mem = true ∧ Map.wf regDefault potOn.regs = true ∧ potOn.rf .potCmdstat [] 1 0 ≠ 1 ∧ potOn.rf .potBase [] 0 0 = 1 ∧
    fld (potOn.rdD 0x200080) 56 54 = 1 ∧ 0x10 * 0x10000 < potOn.dram ∧ fld (pack [(56, 54, 2), (47, 16, 0x10)]) 56 54 = 2 ∧
    State.reset.rf .potBase [] 0 0 = 0 ∧ potOn.txns = [] ∧ State.reset.patch.granules = 0 ∧ ¬ 0x180000 * 0x10000 < potOn.dram ∧
    (potOn.setRf .potCmdstat [] 1 0 1).rf .potCmdstat [] 1 0 = 1 ∧ (potOn.setRf .potCmdstat [] 1 0 1).potDrained 0 = true ∧
    fld ((potOn.wr 0x200081 [0xC0]).potEntry 0x100000) 56 54 = 3 ∧ fld ((potOn.wr 0x200080 [0x05, 0x00]).potEntry 0x100000) 56 54 = 4 := by decide

/-- Thread 0 stands at the SECALL entry, called from a level of partition 1 with a service's number and its arguments. -/
def caller (lvl n x y z : Nat) : State :=
  let a := withSr (withSr (withSr (tenantArch 3) 0x41 (pack [(15, 14, lvl)])) 0x42 (pack [(63, 63, 1), (7, 0, 0x13)])) 2
    (setFld (secArch.srv 2) 12 8 2)
  let a := (((a.setG 1 (BitVec.ofNat 64 n)).setG 2 (BitVec.ofNat 64 x)).setG 3 (BitVec.ofNat 64 y)).setG 4 (BitVec.ofNat 64 z)
  withArch potOn { a with pc := a.srv 0x46 + 0x1300 }

theorem test_ServicesAnswer_hyps :
    (∀ c ∈ [(1, 0x00), (1, 0x02), (0, 0x10), (2, 0x11), (2, 0x13), (2, 0x70)], let s := caller c.1 c.2 0 0 0
      s.called 0 = true ∧ (s.thr 0).groups = [] ∧ Map.wf Core.reset s.cores = true ∧ Map.wf Thread.reset s.threads = true ∧
      ((s.arch 0).g 1).toNat = c.2 ∧ s.callerLvl 0 = c.1 ∧ (s.arch 0).pid = 1) ∧
    State.granuleStatus potOn 1 0x100000 = 0 ∧ potOn.coresOf 1 = [] ∧ (caller 1 0x40 0 0 0).coresOf 1 = [0] ∧
    (caller 1 0x40 0 0 0).coreFor 1 0 = some 0 ∧ ((caller 1 0x30 0 1 0).thr 0).svcWait = false ∧ potOn.rf .pwrGatereq [] 2 0 ≠ 2 ∧
    potOn.leased 0 = false ∧ potOn.runForm 0x100000 1 = true ∧ potOn.runStatus 1 0x10 1 [1] = 0 ∧ potOn.runsFull 1 = false ∧
    (potOn.potSet 1 2 63 0x10 1).isSome = true ∧ (potOn.potSet 1 2 63 0x10 1).any (fun s => s.runStatus 1 0x10 1 [2] == 0) = true := by decide

/-- A run shared with partition 2, and a request of partition 1 in the buffer at 0x108000 with its response ready. -/
def sharing : State := potOn.wr 0x200080 [0x04, 0xC2]
def posting : State := potOn.wr 0x108000 [1, 1]

theorem test_ServicesAnswer_shared :
    (∀ k ∈ granules 0x10 1, fld (sharing.granule k) 56 54 = 3 ∧ bit (sharing.granule k) 57 = false ∧ fld (sharing.granule k) 53 48 = 2 ∧
      fld (sharing.granule k) 63 58 = 1) ∧ (sharing.potSet 1 2 63 0x10 1).isSome = true ∧
    potOn.runStatus 1 0x10 1 [1, 2] = 0 ∧ (potOn.potSet 1 3 2 0x10 1).isSome = true ∧ potOn.bufferStatus 1 0x108000 = 0 ∧
    potOn.offers = [] ∧ potOn.cold.inband = [] ∧ ((potOn.rootWrite 0 0x108000 (lineChunks [1, 2])).isSome = true) ∧
    (parsePdu (posting.rd 0x108000 2048)).any (fun p => decide (p.1.kind = 1) && decide (p.1.session = 0)) = true := by decide

theorem test_ServiceReturns_hyps : let s := caller 1 0 0 0 0
    let a := s.arch 0
    a.pl = 3 ∧ fld (a.srv 0x41) 15 14 ≠ 3 ∧ a.res ≠ 1 ∧ a.res < 32 ∧ s.rf .fltFatal [] 63 63 ≠ 1 ∧ (s.core 0).attempts = 0 ∧ (s.thr 0).cb = [] ∧
    Map.wf Thread.reset s.threads = true ∧ Map.wf srDefault a.sr = true ∧ Map.wf zero64 a.regs = true := by decide

/-- A request that waits for island 0, alone and with a lease written. -/
def gateWaiting : State :=
  let s := State.reset.setReg .pwrGatereq [] (pack [(39, 38, 1)])
  { s with power := { s.power with gateWait := true } }

theorem test_LeasesAndGates_hyps :
    State.reset.rf .pwrGatereq [] 2 0 ≠ 2 ∧ State.reset.leased 112 = false ∧ (State.reset.setReg .pwrLease0 [] 1).leased 0 = true ∧
    gateWaiting.power.gateWait = true ∧ Map.wf Isl.reset gateWaiting.isls = true ∧ Map.wf regDefault gateWaiting.regs = true ∧
    State.reset.power.gateWait = false ∧ (∀ i < 113, (State.reset.isl i).gate = 0) ∧ gateWaiting.rf .pwrGatereq [] 2 0 ≠ 2 ∧
    (gateWaiting.setReg .pwrLease0 [] (fieldsWrite Reg.pwrLease0.row.fields false 1 (gateWaiting.reg .pwrLease0))).leased 0 = true := by decide

/-! ## Devices and memory controllers -/

/-- A hardened device store at the head of its page, tracked stores and a flush under way. -/
def deviceStore : State := boot.modThr 0 fun t => { t with
  hseq := 1, seq := 1, sb := [⟨true, 0xE00000000000 / 256, [⟨0xE00000000000, [1, 2, 3, 4], 1, 0, 0, 0, 0, false⟩], none, 0⟩] }

theorem test_DeviceAccesses_hyps :
    (((deviceStore.thr 0).sb.find? fun e => e.device && e.line / 16 == 0xE00000000).any fun e => (deviceStore.thr 0).hardened e &&
      decide (e.stores = [⟨0xE00000000000, [1, 2, 3, 4], 1, 0, 0, 0, 0, false⟩])) = true ∧ isMmio 0xE00000000000 = true ∧ deviceStore.scn.running = false ∧
    deviceStore.scn.role ≠ 1 ∧ (deviceStore.mmioPort 0).lost = false ∧ deviceStore.power.dozeWait = false ∧
    (deviceStore.mmioPort 0).tracked = [] ∧ deviceStore.islRuns 0 = true ∧ Map.wf MmioPort.reset deviceStore.mmio = true ∧
    (∀ f ∈ [[], [1]], let x := { MmioPort.reset 0 with tracked := [⟨0xE00000000000, [1], 0, 0⟩], flushes := f }
     let s : State := { State.reset with mmio := Map.set MmioPort.reset [] 0 x }
     (s.mmioPort 0).flushes = f ∧ (s.mmioPort 0).held = [] ∧ Map.wf MmioPort.reset s.mmio = true ∧
       Map.wf MmioPort.reset (s.loseStores (s.mmioPort 0).tracked).mmio = true) ∧
    (let s : State := { deviceStore with presets := [⟨1, [0], false⟩] }
     s.presets.find? (fun x => x.pid == 1) = some ⟨1, [0], false⟩ ∧ s.buffered 0 = [(⟨0xE00000000000, [1, 2, 3, 4], 1, 0, 0, 0, 0, false⟩, 0)]) := by decide

/-- A line of controller 1, one of no written population, and a line in error. -/
theorem test_MemoryControllerTraffic_hyps :
    let s := potOn
    let l := 0x100000 / 256
    (∃ n ∈ List.range 12, l * 256 < s.dram ∧ s.mcOf (l * 256) = n ∧ l ∉ Map.get noLines s.mcq n ∧ s.poisoned l = false ∧ s.mark n (s.rankOf n l) = none ∧ s.readQueue n = [] ∧
      (s.mc n).selfRefresh = false ∧ ¬ (s.ways = 6 ∧ n % 2 = 1)) ∧ Map.wf Mc.reset s.mcs = true ∧ Map.wf noFlag s.poison = true ∧
    s.x8 = false ∧ s.dirtyLine l = false ∧ fld (s.potEntry (l * 256)) 57 57 = 0 ∧ fld (s.potEntry (l * 256)) 56 54 = 1 ∧
    ((s.modMc 0 fun x => { x with draining := true, scrubs := [l] }).mc 0).draining = true ∧ Map.wf noLines s.mcq = true ∧
    Map.wf regDefault s.regs = true ∧ s.rf .potBase [] 0 0 = 1 := by decide

/-- A DIMM of the default population, and one with two ranks and a stack. -/
theorem test_MemoryControllerTraffic_dimms :
    ∀ d ∈ [⟨true, 4, 1, 1, 16, 64, 3, 1, 11, true⟩, (⟨true, 4, 2, 2, 128, 64, 3, 2, 11, true⟩ : Dimm)],
      1 ≤ d.stack ∧ (d.ranks = 1 ∨ d.ranks = 2) ∧ 7 ≤ d.colBits := by decide

theorem test_MemoryControllerUpkeep_hyps :
    let s := State.reset
    (s.mc 0).selfRefresh = false ∧ s.power.state = .run ∧ s.rf .mcTrain [0] 7 0 = 2 ∧ s.rf .mcCfg [0] 0 0 = 1 ∧ 0 < s.ranks ∧
    s.rf .mcTrain [0] 7 0 ≠ 3 ∧ ¬ (s.ways = 6 ∧ 0 % 2 = 1) ∧ Map.wf regDefault s.regs = true ∧ s.odv 0x100002 < (0xFFFFFFFF : BitVec 32).toNat ∧
    (90 : Int) ≤ (95 : BitVec 8).toInt ∧ (95 : BitVec 8).toInt ≤ 95 ∧ Map.wf Mc.reset s.mcs = true ∧
    (let t := s.setRf .mcTemp [0] 7 0 0xF6
     10 ≤ ((BitVec.ofNat 8 (t.rf .mcTemp [0] 7 0)).toInt - (BitVec.ofNat 8 (Map.get zeroNat (t.mc 0).trained 0)).toInt).natAbs) ∧
    Map.wf zeroNat (s.mc 0).trained = true ∧
    (∀ b ∈ [Boot.done, .training], ((({ s with power := { s.power with boot := b } } : State).fault (blkMc 0) clsCorrected 0x030A 0 0).power.boot) = b) ∧
    (s.setRf .mcTrain [0] 7 0 3).rf .mcTrain [0] 7 0 = 3 ∧ (s.mc 0).waiting = [] ∧
    (let t : State := { s.setRf .mcTrain [0] 7 0 1 with power := { s.power with boot := .training } }
     t.power.boot = .training ∧ t.rf .mcTrain [0] 7 0 = 1 ∧ Map.wf regDefault t.regs = true) ∧
    ((s.modMc 0 fun x => { x with refreshed := some 3 }).mc 0).refreshed = some 3 := by decide

/-! ## Trellis -/

/-- Granule 0x11 is a window of partition 1; ledger at 0x100000, one device with a path through port 0. -/
def trellis : State :=
  let s := (potOn.wr 0x200088 [0x04, 0x80]).wr 0x300000 [0x80, 0, 0, 0, 0, 0, 0, 5]
  ((((s.setReg .trlCtxbase [] 1).setReg .trlPcfg [1] (pack [(63, 63, 1), (14, 0, 1)])).setReg .trlLbase [1] (pack [(47, 16, 0x10), (4, 0, 11)])).setReg
    .trlDtbase [] 0x300000).setReg .trlPortst [0] (pack [(63, 63, 1)])

def sq0 : Sq := ⟨1, 0, 0, 0x104000, 2, 1, 0, true, ⟨0, 1, [⟨0, 0, .ready⟩], 0⟩, 1, none⟩

/-- A ready slot with a legal ECB of no segment. -/
def readySlot : State := { trellis.wr 0x104000 [1] with trl := { trellis.trl with sqs := [sq0] } }

/-- The exchange of that slot in a state. -/
def xchIn (st : Nat) : Xch := { newXch sq0 0 0 0 ⟨0, 0, 0⟩ (List.replicate 128 0) with
  state := st, handle := some 7, segs := [⟨0x109000, false, false, 0x110000, 16, 0, 2, 0⟩, ⟨0x109010, true, false, 0x110100, 16, 0, 2, 0⟩] }

def withXch (x : Xch) : State :=
  { trellis with trl := { trellis.trl with xchs := [x], sqs := [{ sq0 with ring := ⟨1, 1, [], 0⟩, nextXsn := 2 }] } }

/-- A queue that takes reservations, one slot held; a full one; one of a set that is off. -/
theorem test_RingsAndDoorbells_hyps :
    ((withQueue potOn { sq0 with ring := ⟨0, 1, [⟨0, 0, .reserved⟩], 0⟩ }).ringOf (.sq 1 0 0)).any (fun r => r.2.2 && decide (r.2.1 = 4) &&
      decide (r.1.skip.tail < r.1.skip.head + r.2.1) && r.1.slots.any fun x => decide (x.st = .reserved ∧ x.idx = 0)) = true ∧
    ((withQueue potOn { sq0 with ring := ⟨0, 4, [⟨0, 0, .reserved⟩], 0⟩ }).ringOf (.sq 1 0 0)).any (fun r =>
      decide (r.1.skip.head + r.2.1 ≤ r.1.skip.tail)) = true ∧
    ((withQueue potOn { sq0 with enabled := false }).ringOf (.sq 1 0 0)).any (fun r => !r.2.2) = true ∧ trellis.pageOn (.sq 1 0 0) = true ∧
    State.reset.pageOn (.sq 1 0 0) = false ∧ State.reset.cq? 1 0 0 = none ∧ State.reset.setOn 1 0 = false ∧ (tenant.thr 0).run = .running ∧ (tenant.arch 0).pid = queuePid (.sq 1 0 0) ∧ trellis.setOn 1 0 = true ∧
    (({ trellis with trl := { trellis.trl with cqs := [⟨1, 0, 0, 0, 4, 1, 1, true, 0, 2, [⟨0, true⟩, ⟨1, true⟩], []⟩] } } : State).cq? 1 0 0).any
      (fun c => decide (c.head ≤ 2) && decide (2 ≤ c.tail) && c.waiting.isEmpty) = true ∧
    (trellis.admin 1).cqHead ≤ 0 ∧ 0 ≤ (trellis.admin 1).cqTail ∧ Map.wf AdminQ.empty trellis.trl.admin = true ∧
    Map.wf JobCtx.empty trellis.trl.ctxs = true ∧ (trellis.ctx 1 1 15).cqHead ≤ (0 : BitVec 32).toNat := by decide

theorem test_ExchangesReachTheWire_hyps :
    readySlot.sq? 1 0 0 = some sq0 ∧ sq0.ring.front = some ⟨0, 0, .ready⟩ ∧ readySlot.trlOn = true ∧ readySlot.scn.role ≠ 2 ∧
    readySlot.acceptWaits 1 0 1 = false ∧ readySlot.entryFits 1 1 0 = true ∧ readySlot.entryFree 1 0 = true ∧ readySlot.setOn 1 0 = true ∧
    readySlot.c0Ready = false ∧ sq0.cls ≠ 0 ∧
    (let s := { readySlot with trl := { readySlot.trl with sqs := [sq0, { sq0 with q := 1, cls := 0 }] } }.setReg .trlPcfg [1]
       (pack [(63, 62, 3), (14, 0, 1)])
     s.c0Ready = true ∧ s.sq? 1 0 0 = some sq0 ∧ s.acceptWaits 1 0 1 = false ∧ s.entryFits 1 1 0 = true) ∧
    (let r := readySlot.trlRead 1 none 0x104000 128
     r.1.any fun b => !b.2 && ecbLegal 0 0 b.1 && decide (ecbNseg b.1 = 0) && decide (fld (dwordAt b.1 0) 51 48 = 0) &&
       decide (fld (dwordAt b.1 0) 45 32 < r.2.rf .trlPcfg [1] 14 0) && inMask (fld (dwordAt b.1 0) 15 8) 0 && bit (r.2.pathWord 1 0 0) 63) = true ∧
    (let x := { xchIn 1 with xf := 8 }
     let s := withXch x
     s.xch? 1 0 = some x ∧ x.outbound = true ∧ x.frame = none ∧ s.outDone { x with blocksTaken := 1 } = true ∧
       okAnd (α := List Byte) (match readSegs 1 (x.segs.filter fun g => !g.dir) s with
         | (.ok inp, _) => .ok inp
         | _ => .error .wait) (fun inp => !inp.isEmpty && (match (x.outFrame inp).1 with
           | .ok _ => true
           | _ => false)) = true) ∧
    (let s := withXch (xchIn 1)
     s.firstPath (xchIn 1) = some 0 ∧ s.sendWaits (xchIn 1) 0 = false ∧ s.termWait = none) ∧
    (let s := trellis.modPort 0 fun p => { p with outbox := [⟨1, 0, 0, 0, 0, 1, 0, 0, 0, [], 0, none⟩] }
     Map.wf Port.empty s.ports = true ∧ ((s.port 0).outbox.find? fun m => m.cls == 1 && m.typ == 1).isSome = true ∧ s.canSend 0 = true ∧
       (s.port 0).outbox.all (fun y => y.cls != 0) = true) := by decide

/-- A message for the exchange, one for an exchange that is over, one of a higher TERM. -/
def msgOf (xsn term : Nat) : AdapterMsg :=
  { gen := 0, stream := BitVec.ofNat 32 (xchIn 2).stream, xsn := BitVec.ofNat 64 xsn, term := BitVec.ofNat 16 term, path := 0, adev := 5, status := 0, handle := 7 }

theorem test_AdapterMessages_hyps :
    (∀ st ∈ [2, 3], (withXch (xchIn st)).linkOn 0 = true ∧ (withXch (xchIn st)).trlOn = true ∧ (withXch (xchIn st)).scn.role ≠ 2 ∧
      (match (withXch (xchIn st)).msgFor (msgOf 1 0) with
        | .exch x => x == xchIn st
        | _ => false) = true) ∧
    (match trellis.msgFor (msgOf 1 0) with
      | .malformed 0 => true
      | _ => false) = true ∧
    (match ({ withXch (xchIn 2) with trl := { (withXch (xchIn 2)).trl with xchs := [] } } : State).msgFor (msgOf 1 0) with
      | .late 1 0 => true
      | _ => false) = true ∧
    (msgOf 1 0).term.toNat ≤ trellis.term ∧ trellis.term < (msgOf 1 0xFFFF).term.toNat ∧ Map.wf regDefault trellis.regs = true ∧
    bit (trellis.pathWord 1 0 0) 63 = true ∧ bit (trellis.pathWord 1 0 0) 62 = false ∧ fld (trellis.pathWord 1 0 0) 59 56 < 12 ∧
    (let x := { xchIn 3 with cmpl := some (0, 9), staged := [(0, 1), (1, 2)] }
     (withXch x).xch? 1 0 = some x ∧ (withXch x).inDone x = true ∧ (match (withXch x).inTransform x ((withXch x).stagedBytes x).1 with
       | .ok out => (writeSegs 1 0 (spread (x.segs.filter fun g => g.dir) out) ((withXch x).stagedBytes x).2).1
       | _ => false) = true) := by decide

theorem test_PathsAndTimeouts_hyps :
    (8 : BitVec 4).toNat ≤ maxWidth ((State.reset.setRf .trlPlink [0] 47 46 0).rf .trlPlink [0] 47 46) ∧
    maxWidth ((State.reset.setRf .trlPlink [0] 47 46 2).rf .trlPlink [0] 47 46) < (4 : BitVec 4).toNat ∧ (State.reset.setRf .trlPlink [0] 41 41 1).rf .trlPlink [0] 41 41 = 1 ∧
    ((State.reset.setRf .trlPlink [0] 41 41 0).rf .trlPlink [0] 41 41 = 0) ∧ (State.reset.port 0).withdrawing = false ∧
    State.reset.egressIdle = false ∧ trellis.linkOn 0 = true ∧ State.reset.linkOn 0 = false ∧
    (withXch (xchIn 2)).xch? 1 0 = some (xchIn 2) ∧ (xchIn 1).state ≠ 2 ∧
    (∀ st ∈ [1, 2], let x := { xchIn st with window := true }
     let s := (withXch x).wr 0x300000 [0]
     s.xch? 1 0 = some x ∧ s.mute = false ∧ x.window = true ∧ x.aborting = false ∧ s.firstPath x = none ∧ s.usable x x.path = false) ∧
    State.reset.scn.role = 7 ∧ trellis.trl.xchs = [] ∧
    trellis.vPaths = [(1, 0, 0)] ∧ trellis.canSend 0 = true ∧
    (let s := trellis.wr 0x300000 [0xC0]
     bit (s.pathWord 1 0 0) 62 = true ∧ fld (s.pathWord 1 0 0) 59 56 = 0 ∧ fld (s.pathWord 1 0 0) 31 0 = 5 ∧ s.termWait = none) ∧
    max trellis.term 5 + 1 ≤ 0xFFFF ∧ 0xFFFF < max trellis.term 0xFFFF + 1 ∧ inScope 1 .partition { xchIn 2 with aborting := true } = true ∧ State.reset.trl.xchs = [] := by decide

theorem test_PathsAndTimeouts_resets :
    (let s : State := { withXch (xchIn 1) with presets := [⟨1, [], false⟩] }
     s.presets.find? (fun x => x.pid == 1) = some ⟨1, [], false⟩ ∧ s.resetDrained ⟨1, [], false⟩ = true ∧ s.trlOn = true ∧ s.trl.sets = [] ∧ Map.wf regDefault s.regs = true) ∧
    (let r : Refused := ⟨1, 0, 0, 0, some (List.replicate 128 1), true, List.replicate 32 2⟩
     let s : State := { trellis with trl := { trellis.trl with refused := [r], cqs := [⟨1, 0, 0, 0x106000, 4, 1, 1, true, 0, 0, [], []⟩] } }
     s.trl.refused.filter (fun r => r.pid == 1) = [r] ∧
     (let w := State.trlWrite { s with trl := { s.trl with refused := [] } } 1 none (s.ledgerAt 1 0) (List.replicate 128 1)
      w.1 = true ∧ (w.2.cq? 1 0 0).any (fun c => decide (c.tail - c.head < 2 ^ c.k) &&
        (w.2.setWrite 1 0 none (c.base + 32 * (c.tail % 2 ^ c.k)) (withPhase 53 c.tail (2 ^ c.k) r.entry)).1) = true)) := by decide

/-- Inside a granted segment, outside every grant, the staged frame, staging. -/
theorem test_AdapterAccesses_hyps :
    (let x := xchIn 2
     let s := withXch x
     let rd : DmaReq := ⟨0, 0, some (2 ^ 21 + 7), 0x110008, 8, none⟩
     let wr : DmaReq := ⟨0, 0, some (2 ^ 21 + 7), 0x110108, 8, some (List.replicate 8 1)⟩
     s.dmaXch rd = some x ∧ x.cmpl = none ∧ x.grant rd = some (.seg 0) ∧ s.dmaHolds x 8 = false ∧
     ((s.dmaCount x 8).trlRead 1 (some 0) 0x110008 8).1.any (fun b => !b.2) = true ∧ s.dmaXch { rd with tag := none } = none ∧
     x.grant { rd with addr := 0x110010 } = none ∧ x.grant wr = some (.seg 1) ∧
     ((s.dmaCount x 8).setWrite 1 0 (some 0) 0x110108 (List.replicate 8 1)).1 = true ∧
     ({ x with frame := some [1, 2, 3], frameAddr := 0x400000 } : Xch).grant { rd with addr := 0x400001, len := 2 } = some (.frame 1) ∧
     ({ x with xf := 1, stageAddr := 0x400000, stageLen := 16 } : Xch).grant { wr with addr := 0x400008 } = some (.stage 8) ∧
     Map.wf zeroNat s.dmaUse = true ∧ s.dmaHeld = [] ∧ s.txns = [] ∧ s.linkOn 0 = true ∧ s.trlOn = true ∧ s.scn.role ≠ 2 ∧
       Map.wf Port.empty s.ports = true) := by decide

/-- The command at the head of partition 1's Admin Queue, in the ring at 0x108000. -/
def adminWith (bytes : List Byte) : State :=
  let s := (trellis.wr 0x108000 bytes).setReg .trlAq [1] (pack [(47, 14, 0x42), (0, 0, 1)])
  s.modAdmin 1 fun a => { a with ring := ⟨0, 1, [⟨0, 0, .ready⟩], 0⟩ }

theorem test_AdminCommands_hyps :
    (∀ e ∈ [(4, 0), (0x11, 0), (0x16, 0)], ((adminWith [e.1]).adminNext 1).any (fun r => decide (r.1.opc = e.1.toNat) && r.1.ok) = true) ∧
    ((adminWith [1, 1]).adminNext 1).any (fun r => !r.1.ok) = true ∧ Map.wf zeroNat trellis.trl.gens = true ∧
    -- CREATE_CQ of 16 entries at 0x106000, Class 1, level 1
    ((adminWith [1, 0, 0, 0, 0, 0, 0, 0, 0, 0, 0, 0, 0, 0, 0, 0x40, 0, 0, 0, 0, 0, 0x10, 0x60, 0, 0, 0, 0, 0, 0, 1, 4, 1]).adminNext 1).any
      (fun r => r.1.cqf && (match createCq 1 r.1 r.2 with
        | .ok _ => true
        | _ => false)) = true ∧
    -- DLOG_START of 64 pages from 0, its bitmap at 0x10A000
    ((adminWith [0x20, 0, 0, 0, 0, 0, 0, 0, 0, 0, 0, 0, 0, 0, 0, 0, 0, 0, 0, 0, 0, 0, 0, 0, 0, 0, 0, 0, 0, 0, 0, 64, 0, 0, 0, 0, 0, 0x10, 0xA0, 0]).adminNext 1).any
      (fun r => match dlogStart 1 r.1 r.2 with
        | .ok _ => true
        | _ => false) = true := by decide

/-- CREATE_VCS with room in the pool; a set and its queue, to enable, resize, swap the log of, stop. -/
theorem test_AdminCommands_sets :
    (let s := ((adminWith [0x10]).setReg .trlPoolb [1] (pack [(42, 32, 4)]))
     (s.adminNext 1).any (fun r => match createVcs 1 r.1 r.2 with
       | .ok _ => true
       | _ => false) = true) ∧
    (let v : VSet := ⟨1, 3, false, 1, 1, 0, 0, 0, 8, 0, 0⟩
     let s : State := { trellis with trl := { trellis.trl with sets := [v], sqs := [{ sq0 with set := 3 }] } }
     s.vset? 1 3 = some v ∧ s.noVcs 1 3 = false ∧ s.hasSet 1 3 = true ∧ s.inUse 1 3 none = false ∧ s.sq? 1 3 0 = some { sq0 with set := 3 } ∧
       s.cqEnabled { sq0 with set := 3 } = false ∧
       (match deleteQ 1 ⟨5, 0, 3, false, 0, 0, 0, 0, true⟩ { s with trl := { s.trl with sqs := [{ sq0 with set := 3, enabled := false, ring := .empty }] } } with
         | .ok _ => true
         | _ => false) = true ∧
       (match resizeVcs 1 ⟨0x15, 0, 3, false, 0, pack [(63, 57, 1)], 8, 0, true⟩ (s.setReg .trlPoola [1] (pack [(63, 57, 8), (20, 0, 64)])) with
         | .ok _ => true
         | _ => false) = true ∧
       (match dlogSwap 1 ⟨0x21, 0, 0, false, 0, 0, 0, 0x10A000, true⟩ { s with trl := { s.trl with dlogs := [(dlogKey 1 0, ⟨0, 64, 0x10A100, true⟩)] } } with
         | .ok _ => true
         | _ => false) = true) := by decide

/-! ## Scion -/

/-- Each role of the clauses, with the link up and down. -/
theorem test_PairingLink_hyps :
    State.reset.scn.role = 7 ∧ State.reset.scn.confirming = false ∧ State.reset.pairOn = false ∧ (paired id).pairOn = true ∧
    (paired id).scnOn = true ∧ (paired id).islRuns 107 = true ∧ (paired id).scn.grpA = false ∧ (paired id).scn.grpB = false ∧
    State.reset.pins.peerActive = false ∧ State.reset.pins.fenceIn = false ∧
    (let s := paired fun x => { x with role := 0, grpA := true, grpB := true, mine := some ⟨false, 1, List.replicate 32 0⟩, peer := some ⟨true, 2, List.replicate 32 1⟩ }
     s.scn.role ≤ 2 ∧ s.scn.carries = true ∧ s.scn.mine.isSome = true ∧ s.scn.peer.isSome = true ∧ s.scn.authed = false ∧
       s.scn.authRetry = false ∧ s.scn.grpA = true) ∧
    (let s := paired fun x => { x with role := 1, grpA := true, authed := true, confirming := true, authRetry := true }
     s.scn.carries = true ∧ s.scn.authed = true ∧ s.scn.confirming = true ∧ s.scn.authRetry = true ∧ s.term < (0xFFFF : BitVec 16).toNat) ∧
    (let s := paired fun x => { x with role := 1, grpA := true, authRetry := true, peer := some ⟨true, 1, []⟩ }
     s.scn.carries = true ∧ s.scn.authRetry = true ∧ s.scn.peer.isSome = true ∧ s.scn.authed = false ∧ s.pairOn = true) := by decide

/-- An Active with an epoch open, a line frozen, and what each clause asks of its partner. -/
def active : State := (paired fun x => { x with
  role := 1, running := true, epoch := 5, authed := true, grpA := true, frozen := [⟨0, 0x2000⟩] }).setL2 0 0x2000 ⟨.m, true, 0⟩

theorem test_EpochsAndTakeover_hyps :
    active.scn.running = true ∧ active.scn.switchOver = none ∧ active.scn.joinSrc = none ∧ Map.wf Thread.reset active.threads = true ∧
    active.scn.frozen = [⟨0, 0x2000⟩] ∧ Map.wf L2Line.none active.l2 = true ∧ (active.l2l 0 0x2000).ps = true ∧
    (active.l2l 0 0x2000).se = (active.scn.epoch + 1) % 2 ∧ (4 : W64).toNat < active.scn.epoch ∧ Map.wf regDefault active.regs = true ∧
    active.rf .fltRec [blkScion] 63 62 ≠ 3 ∧ State.reset.scn.running = false ∧
    (let s : State := { active with scn := { active.scn with switchOver := some 4, hbMiss := 15 } }
     s.scn.switchOver = some 4 ∧ s.scn.switchOver.isSome = true ∧ 15 ≤ s.scn.hbMiss) ∧
    (let s : State := { active with scn := { active.scn with joinSrc := some (.switching 4) } }
     s.scn.joinSrc = some (.switching (4 : W64).toNat)) ∧
    (let s := paired fun x => { x with role := 2, authed := true, grpA := true, hbMiss := 15, peerTerm := 9 }
     s.scn.role = 2 ∧ s.scn.takeover = none ∧ 15 ≤ s.scn.hbMiss ∧ s.scn.carries = true ∧ s.scn.undo = [] ∧ s.scn.comm = [] ∧ s.replay = [] ∧
       s.rf .gntKsbase [] 0 0 = 0 ∧ max s.term s.scn.peerTerm < 0xFFFF) ∧
    (let s := paired fun x => { x with role := 3, joining := true, takeover := some .declared }
     s.scn.role = 3 ∧ s.scn.joining = true ∧ s.scn.takeover = some .declared) := by decide

/-- No epoch is closing, and no retry or sparing is under way. -/
theorem test_EpochsAndTakeover_calm : active.scn.closing = none ∧ active.sparings = [] ∧ ∀ c, (active.core c).attempts = 0 :=
  ⟨rfl, rfl, fun _ => rfl⟩

/-- A takeover without an exchange in the context area, whatever else the free reading of an empty area (log 27) gives. -/
theorem test_EpochsAndTakeover_takeover (h : (trellisContext []).xchs = []) : State.reset.mirrorTrl.trl.xchs = [] := by
  have e : (State.reset.mem.filter fun p : Host.Cell => decide (State.reset.rf .trlCtxbase [] 47 26 * 2 ^ 26 ≤ p.1) &&
      decide (p.1 < State.reset.rf .trlCtxbase [] 47 26 * 2 ^ 26 + 2 ^ 26)) = [] := by decide
  simp only [State.mirrorTrl, e, List.map_nil, h]

/-- A Standby that receives epoch 5, a joiner, and a source. -/
def standby : State := paired fun x => { x with role := 2, running := true, authed := true, grpA := true, grpB := true, recvEp := 5, peerTerm := 3 }
def joiner : State := paired fun x => { x with role := 3, peerRole := 0, authed := true, grpA := true, grpB := true }

/-- A CFGW of epoch 5 in a frame of one raw block. -/
def compFrame : List Byte :=
  let b := Rec.bytes (.cfgw 5 0x1000 7)
  frameOf 1 65536 b [(⟨true, b.length, crc32c b⟩, b)]

theorem test_MirrorAndJoin_hyps :
    standby.mirrors = true ∧ standby.scn.recvEp % 256 = (5 : BitVec 8).toNat ∧ standby.scn.recvEp % 256 ≠ (6 : BitVec 8).toNat ∧
    standby.scn.joining = false ∧ Memory.wf standby.mem = true ∧ Map.wf noFlag standby.poison = true ∧ Map.wf regDefault standby.regs = true ∧
    (match unframe 0x4000 compFrame with
      | .ok b => recsOf (b.length + 1) b == some [.cfgw 5 0x1000 7]
      | _ => false) = true ∧
    (match unframe 0x4000 [1] with
      | .error e => e == 0x10
      | _ => false) = true ∧ recsOf 2 [0] = none ∧
    ({ joiner with scn := { joiner.scn with joining := true } } : State).mirrors = true ∧ standby.scn.recvCount = (0 : BitVec 48).toNat ∧
    standby.scn.recvBytes = (0 : W64).toNat ∧ 0x100 * 4096 < joiner.dram ∧ joiner.scn.linkUp = true ∧ joiner.scn.authed = true ∧
    joiner.scn.role = 3 ∧ joiner.scn.joining = false ∧ Map.wf Thread.reset joiner.threads = true ∧ joiner.rf .fltRec [blkScion] 63 62 ≠ 3 ∧
    (let p : JoinPeer := ⟨BitVec.ofNat 48 joiner.dram, BitVec.ofNat 4 joiner.ways, 0, BitVec.ofNat 16 (fld (joiner.reg .rstCsver) 63 48), 0, 0, false,
        BitVec.ofNat 16 (fld (joiner.reg .rstCsver) 47 32), bit (joiner.reg .rstCsver) 8, 0⟩
     p.dram.toNat = joiner.dram ∧ p.ways.toNat = joiner.ways ∧ p.priv.toNat = joiner.rf .scnPriv [] 47 30 ∧ p.patched = bit (joiner.reg .rstCsver) 0 ∧
       p.romid.toNat = fld (joiner.reg .rstCsver) 63 48 ∧ p.lcores.toNat ≤ joiner.serviceCores.length ∧
       p.pver.toNat = fld (joiner.reg .rstCsver) 47 32) ∧ joiner.scn.peerRole = 0 := by decide

theorem test_MirrorAndJoin_source :
    (let s := paired fun x => { x with role := 0, authed := true, grpA := true, grpB := true }
     s.scn.role = 0 ∧ s.scn.joinSrc = none ∧ s.scn.linkUp = true) ∧
    (let s := paired fun x => { x with joinSrc := some (.image 3) }
     s.scn.joinSrc = some (.image 3) ∧ 3 * 4096 + 4096 ≤ s.dram ∧ s.inPriv (3 * 4096) = true ∧ s.inPriv (2 ^ 30) = false ∧ s.scn.linkUp = false) ∧
    (let s := paired fun x => { x with joinSrc := some (.image (State.reset.dram / 4096)), running := true }
     s.dram / 4096 ≤ s.dram / 4096 ∧ s.scn.joining = false ∧ s.scn.running = true ∧ s.stalled = false ∧ s.scn.closing = none) ∧
    (paired fun x => { x with joinSrc := some .writeback }).scn.joinSrc = some .writeback := by decide

/-- A joiner whose image does not have the digest of its patch. -/
def otherImage : State :=
  let b := joiner.rd 0 205024
  { joiner with scn := { joiner.scn with joining := true }, patch := { joiner.patch with base := 0, granules := 1, digest := 0 :: sha384 (b.take (patchS b)) } }

theorem rd_joiner (a n : Nat) : otherImage.rd a n = joiner.rd a n := by
  simp only [State.rd, State.rdByte]
  rfl

theorem test_MirrorAndJoin_image : otherImage.scn.joining = true ∧ otherImage.patch.granules ≠ 0 ∧
    sha384 ((otherImage.rd otherImage.patch.base 205024).take (patchS (otherImage.rd otherImage.patch.base 205024))) ≠ otherImage.patch.digest := by
  have hb : otherImage.patch.base = 0 := rfl
  have hd : otherImage.patch.digest = 0 :: sha384 ((joiner.rd 0 205024).take (patchS (joiner.rd 0 205024))) := rfl
  rw [hb, hd, rd_joiner]
  exact ⟨rfl, by decide, (List.cons_ne_self 0 _).symm⟩

/-! ## Sieve and Garnet -/

/-- Slot 0 of context 0's job ring is ready: a descriptor with the first and the last of its own words, one segment each way. -/
def engine (e : Nat) (w0 w3 w5 : W64) (nin nout : Nat) (src : List Byte) : State :=
  let segs := dwords [pack [(63, 62, 1), (47, 0, 0x10A000)], pack [(24, 0, nin)], pack [(63, 62, 1), (61, 61, 1), (47, 0, 0x10C000)], pack [(24, 0, nout)]]
  let s := ((trellis.wr 0x104000 (dwords [w0, 7, 0x109000, w3, 0, w5])).wr 0x109000 segs).wr 0x10A000 src
  let s := ((s.setReg (jringReg e) [1, 0] (pack [(47, 12, 0x104), (3, 0, 4)])).setReg (cringReg e) [1, 0] (pack [(47, 12, 0x106)])).setReg .gntKsbase [] 1
  (s.setReg .gntPslot [1] (pack [(44, 32, 16)])).modCtx e 1 0 fun x => { x with state := 1, ring := ⟨0, 1, [⟨0, 0, .ready⟩], 0⟩ }

/-- The job that the context takes next has a property, with the state after its checks. -/
def takes (e : Nat) (s : State) (p : Job → State → Bool) : Bool :=
  (s.jobNext e 1 0).any fun x => match x.2.1 with
    | .ok b =>
      let r := x.2.2.jobTake e 1 0 x.1 (.ok b) (if e = 0 then sieveShape else garnetShape)
      decide (r.1 = 0) && !r.2.1.ins.isEmpty && !r.2.1.outs.isEmpty && p r.2.1 r.2.2
    | _ => false

def sieveWord (op level : Nat) : W64 := pack [(63, 56, 1), (55, 52, op), (51, 48, level), (39, 35, 2)]

/-- OP 1, 2 and 3, each taken and well formed; a frame of five raw bytes, and no frame. -/
theorem test_SieveJobs_hyps :
    takes 0 (engine 0 (sieveWord 1 1) 0 0 5 64 [1, 2, 3, 4, 5]) (fun j _ => j.op == 1) = true ∧
    (let f := frameOf 1 65536 [1, 2, 3, 4, 5] [(⟨true, 5, crc32c [1, 2, 3, 4, 5]⟩, [1, 2, 3, 4, 5])]
     (∀ op ∈ [2, 3], takes 0 (engine 0 (sieveWord op 0) 0 1 f.length 64 f) (fun j s2 => match (s2.readFrame 1 j).1 with
       | .ok (h, _, _) => decide (j.rstart + j.rlen ≤ h.rawLen) && h.nblk == 1 && j.op == op
       | _ => false) = true)) ∧
    takes 0 (engine 0 (sieveWord 2 0) 0 1 4 64 [1, 2, 3, 4]) (fun j s2 => match (s2.readFrame 1 j).1 with
      | .error e => e == 0x10
      | _ => false) = true := by decide

/-- A job of three blocks with the first one out, in a context of the Sieve. -/
def blocks (f : Job → Job) : State :=
  let s := engine 0 (sieveWord 1 1) 0 0 5 64 [1, 2, 3, 4, 5]
  let g (d : Bool) (a n : Nat) : Seg := ⟨0x109000, d, false, a, n, 0, 1, 0⟩
  s.modCtx 0 1 0 fun x => { x with job := some (f { jobOf 0 0 (dwords [sieveWord 1 1]) [g false 0x10A000 5, g true 0x10C000 64] with total := 1 }) }

theorem test_SieveJobs_blocks :
    (((blocks id).ctx 0 1 0).job.any fun j => decide (j.next < j.total) && j.fail.isNone && j.op == 1) = true ∧ (blocks id).lanesBusy true < 16 ∧
    Map.wf JobCtx.empty (blocks id).trl.ctxs = true ∧ (blocks id).scn.role ≠ 2 ∧
    (((blocks fun j => { j with busy := [0], next := 1 }).ctx 0 1 0).job.any fun j => j.busy.contains 0 && decide (0 = j.first + j.blocks) &&
      j.ready.isEmpty && decide (j.total ≤ j.next)) = true ∧
    (State.reset.ctx 0 1 14).state ≠ 1 ∧ ctxOk 0 14 = true ∧ ctxOk 1 7 = true ∧ ((blocks id).ctx 0 1 0).state = 1 ∧
    ((engine 0 0 0 0 1 1 []).ctx 0 1 0).job = none ∧ State.reset.bindErr 0 1 0 0 ≠ 0 ∧
    (let s := (((trellis.setReg .sveJring [1, 0] (pack [(47, 12, 0x104), (3, 0, 4)])).setReg .sveCring [1, 0] (pack [(47, 12, 0x106)])).setReg
       .trlPoola [1] (pack [(49, 46, 2)]))
     s.bindErr 0 1 0 0 = 0) := by decide

/-- An inline exchange whose compression has a block to give, alone and beside a job whose turn has or has not come. -/
def inlineBlock (cls since : Nat) (jobs : Bool) : State :=
  let x := { xchIn 1 with xf := 8, cls := cls }
  let s := if jobs then blocks id else trellis
  { s with trl := { s.trl with xchs := [x] }, sve := { s.sve with comp := ⟨0, since⟩ } }


theorem test_SieveJobs_turns :
    (∀ e ∈ [(0, 3, false), (1, 2, true), (3, 0, true)], let s := inlineBlock e.1 e.2.1 e.2.2
      let inl := s.trl.xchs.filter (s.xchBlockWaits true)
      inl.head?.any (fun x => decide (x.cls ≤ 3) && (s.xch? x.pid x.lidx == some x)) = true ∧
      (inl.find? (fun y => y.cls == 0) = inl.head? ∨ inl.all (fun y => y.cls != 0) = true) ∧ (s.sve.comp.since < 3 ∨ s.jobBlocks true = []) ∧
      s.islRuns 105 = true ∧ s.idleAsked 105 = false ∧ s.scn.role ≠ 2 ∧ s.lanesBusy true < 16) ∧
    (∀ s ∈ [blocks id, inlineBlock 0 3 true], (s.jobBlocks true).any (fun e => match e.2 with
        | .job p c _ => (s.ctx 0 p c).job.any fun j => decide (j.op = 1)
        | _ => false) = true) ∧ (trellis.jobBlocks true = [] ∧ trellis.trl.xchs.filter (trellis.xchBlockWaits true) = []) := by decide

/-- Sieve blocks out of room, in a lane of an exchange, and none to start. -/
theorem test_SieveJobs_room :
    (let f := frameOf 1 65536 [1, 2, 3, 4, 5] [(⟨true, 5, crc32c [1, 2, 3, 4, 5]⟩, [1, 2, 3, 4, 5])]
     ((blocks fun j => { j with op := 2, busy := [0], next := 1, total := 3, limit := 0, frame := f }).ctx 0 1 0).job.any fun j => decide (j.op ≠ 1) &&
      decide (j.limit < j.before j.next + j.hdr.rawOf j.next) && decide (j.busy ≠ [])) = true ∧ (withXch { xchIn 1 with inLanes := [0] }).xch? 1 0 = some { xchIn 1 with inLanes := [0] } := by decide

def gntWord (g : Nat) : W64 := pack [(63, 56, 1), (55, 48, g), (47, 36, 5), (35, 24, if g = 0x50 ∨ g = 0x51 then 6 else 0), (23, 19, 2)]

/-- Key slots 5 and 6 of partition 1. -/
def withKeys (ty : Nat) (len : Nat) (s : State) : State :=
  let k (ty len : Nat) : KeySlot := ⟨1, pack [(63, 60, ty), (55, 51, if ty = 6 then 31 else 27), (39, 32, if ty = 5 then len / 8 else 0)], List.replicate len 9, 0, 3, false, 0, 65536, true⟩
  { s with gnt := { s.gnt with slots := [(5, k ty len), (6, k 6 32)] } }

/-- A job of each kind whose key its set may use, and one whose slot is empty. -/
theorem test_GarnetJobs_hyps :
    (∀ e ∈ [(0x10, 2, 32), (0x21, 1, 16), (0x31, 2, 32), (0x40, 3, 32), (0x72, 5, 64), (0x7A, 5, 64)],
      takes 1 (withKeys e.2.1 e.2.2 (engine 1 (gntWord e.1) 0 0 64 4096 (List.replicate 64 1))) (fun j s2 =>
        decide (s2.keyStatus 1 0 j.keyslot e.1 false false = 0) && !lenBad j 0 20 && decide (j.chain = 0) && decide (gopLen e.1 20 0 true ≤ j.limit) &&
        (match (s2.jobIn 1 j 0 16).1 with
          | .ok hd => hd == List.replicate 16 1
          | _ => false)) = true) ∧
    takes 1 (engine 1 (gntWord 0x10) 0 0 64 4096 []) (fun j s2 => decide (s2.keyStatus 1 0 j.keyslot 0x10 false false ≠ 0)) = true ∧
    takes 1 (withKeys 2 32 (engine 1 (gntWord 0x10) 0 0 64 4096 [])) (fun j s2 => (s2.drawIv j.keyslot).1.isSome) = true ∧
    (∀ n ∈ [191, 192], takes 1 (engine 1 (pack [(63, 56, 1), (55, 48, 0x80), (23, 19, 2)]) 0 0 n 16 []) (fun j s2 => decide (lens j.ins = n) && !s2.ecdsaBusy) = true) := by decide

/-- A CBC decryption of one block: the length of its padding is at most 16. -/
theorem test_GarnetJobs_padding :
    takes 1 (withKeys 2 32 (engine 1 (gntWord 0x11) 0 0 32 4096 (List.replicate 32 1))) (fun j s2 =>
      decide (s2.keyStatus 1 0 j.keyslot 0x11 false false = 0) && !lenBad j 0 16 && decide (16 ≤ j.limit) &&
      (match (s2.cbcPad 1 j (List.replicate 32 9) (List.replicate 16 1) [] 16).1 with
        | .ok _ => true
        | _ => false)) = true ∧ ∀ pd, gopLen 0x11 16 pd true ≤ 16 :=
  ⟨by decide, fun pd => Nat.sub_le 16 pd⟩

/-- The key commands with everything they need, and with a slot out of reach. -/
theorem test_GarnetJobs_keys :
    (∀ g ∈ [0x50, 0x53, 0x54], takes 1 (withKeys 2 32 (engine 1 (gntWord g) 0 0 64 4096 [])) (fun j s2 => s2.slotReach 1 0 j.keyslot &&
      decide ((s2.slot j.keyslot).st ≠ 0) && bit (s2.slot j.keyslot).attr 52 && (g != 0x50 || decide (s2.kekStatus 1 0 j.wslot = 0)) &&
      Map.wf KeySlot.empty s2.gnt.slots) = true) ∧
    takes 1 (engine 1 (gntWord 0x52) 0 (pack [(63, 60, 2)]) 64 4096 []) (fun j s2 => s2.slotReach 1 0 j.keyslot && decide ((s2.slot j.keyslot).st = 0) &&
      attrOk j.tweak && s2.slotRoom 1 0 && decide (s2.gnt.inst < 2 ^ 31)) = true ∧
    takes 1 ((engine 1 (gntWord 0x54) 0 0 64 4096 []).setReg .gntPslot [1] 0) (fun j s2 => !s2.slotReach 1 0 j.keyslot) = true := by decide

/-- An import: under the empty key, for which AES is the identity here, a wrapped key unwraps. -/
theorem test_GarnetJobs_import :
    let w := kwWrap [] (dwords [pack [(63, 60, 1)], 0] ++ List.replicate 16 3)
    let s := engine 1 (gntWord 0x51) 0 0 w.length 64 w
    takes 1 { s with gnt := { s.gnt with slots := [(6, ⟨1, pack [(63, 60, 6), (53, 53, 1)], [], 0, 3, false, 0, 65536, true⟩)] } } (fun j s2 =>
      decide ((s2.slot j.keyslot).st = 0) && decide (s2.kekStatus 1 0 j.wslot = 0) && decide (lens j.ins = 40) && s2.slotReach 1 0 j.keyslot &&
      (match s2.jobIn 1 j 0 40 with
        | (.ok bs, s3) => (kwUnwrap (s3.slot j.wslot).key bs).any fun u => attrOk (dwordAt u 0) && decide (dwordAt u 8 = 0) &&
            decide (u.length = 16 + keyLen (dwordAt u 0))
        | _ => false)) = true := by decide

/-- A job in a lane, whole and with more to come; an ECDSA job. -/
def unitJob (g n : Nat) : State :=
  let s := engine 1 0 0 0 0 0 []
  let sg (d : Bool) (a n : Nat) : Seg := ⟨0x109000, d, false, a, n, 0, 1, 0⟩
  s.modCtx 1 1 0 fun x => { x with job := some (jobOf 1 0 (dwords [gntWord g]) [sg false 0x10A000 n, sg true 0x10C000 4096]) }

theorem test_GarnetJobs_units :
    (∀ n ∈ [20, 4097], ((unitJob 0x60 n).ctx 1 1 0).job.any (fun j => decide (j.op ≠ 0x80) && !(unitJob 0x60 n).gnt.outLanes.contains 0 &&
      (match ((unitJob 0x60 n).jobIn 1 j 0 20).1 with
        | .ok _ => true
        | _ => false)) = true) ∧
    ((unitJob 0x60 20).ctx 1 1 0).job.any (fun j => match j.unit (List.replicate 20 0) [] true with
      | .ok o => o.length == gopDigest 0x60 && ((unitJob 0x60 20).jobOut 1 j 0 o).1
      | _ => false) = true ∧
    ((unitJob 0x78 20).ctx 1 1 0).job.any (fun j => match j.unit (List.replicate 20 0) [] true with
      | .error e => e == 0x18
      | _ => false) = true ∧
    ((unitJob 0x80 192).ctx 1 1 0).job.any (fun j => j.op == 0x80 && (match ((unitJob 0x80 192).jobIn 1 j 0 192).1 with
      | .ok _ => true
      | _ => false)) = true ∧ (unitJob 0x80 192).scn.role ≠ 2 ∧
    State.reset.rf .gntKsbase [] 0 0 = 0 ∧ (engine 1 0 0 0 0 0 []).rf .gntKsbase [] 0 0 = 1 ∧ State.reset.pslotBad 1 4095 1 = false ∧
    State.reset.pslotBad 1 4096 1 = true := by decide

/-- An exchange whose encryption has a unit to give, alone and beside a job whose turn has or has not come. -/
def inlineUnit (cls since : Nat) (jobs : Bool) : State :=
  let x := { xchIn 1 with xf := 4, cls := cls }
  let s := if jobs then unitJob 0x60 4097 else trellis
  { s with trl := { s.trl with xchs := [x] }, gnt := { s.gnt with turn := ⟨0, since⟩ } }

theorem test_GarnetJobs_turns :
    (∀ e ∈ [(0, 3, false), (1, 2, true), (3, 0, true)], let s := inlineUnit e.1 e.2.1 e.2.2
      let inl := s.trl.xchs.filter s.xchUnitWaits
      inl.head?.any (fun x => decide (x.cls ≤ 3) && inl.all (fun y => decide (x.cls ≤ y.cls)) &&
        inl.find? (fun y => y.cls == x.cls) == some x && (s.xch? x.pid x.lidx == some x)) = true ∧
      (s.gnt.turn.since < 3 ∨ s.jobUnits = []) ∧ s.islRuns 106 = true ∧ s.idleAsked 106 = false ∧ s.scn.role ≠ 2 ∧ s.gnt.units = [] ∧ s.gnt.outLanes = []) ∧
    (∀ s ∈ [unitJob 0x60 20, inlineUnit 0 3 true], s.jobUnits.map Prod.snd = [.job 1 0 0]) ∧ trellis.jobUnits = [] ∧
    (let s := inlineUnit 1 0 false
     let s1 : State := { s with gnt := { s.gnt with units := [(2, .xch 1 0 (xchIn 1).xsn)] } }
     s1.gnt.units.find? (fun w => w.1 == 2) = some (2, .xch 1 0 (xchIn 1).xsn) ∧ (s1.xch? 1 0).any (fun x => decide (x.xsn = (xchIn 1).xsn)) = true) ∧
    (let s : State := { unitJob 0x60 20 with gnt := { (unitJob 0x60 20).gnt with units := [(0, .job 1 0 0)] } }
     (s.ctx 1 1 0).job.any (fun j => s.gnt.units.find? (fun w => w.1 == 0) == some (0, .job 1 0 j.slot)) = true ∧ s.islRuns 106 = true) := by decide

/-- An exchange whose completion waits for its key; the key may be used. -/
theorem test_GarnetJobs_key :
    let x := { xchIn 2 with xf := 2, gop := 0x30, keyslot := 5, cmpl := some (0, 0), staged := [(0, 1)] }
    let s := withKeys 2 32 (({ trellis with trl := { trellis.trl with xchs := [x] } } : State).setReg .gntPslot [1] (pack [(44, 32, 16), (11, 0, 0)]))
    s.xchUnitWaits x = true ∧ s.xch? 1 0 = some x ∧ s.keyStatus x.pid x.set x.keyslot (x.gop + 1) true false = 0 := by decide

/-! ## Fault records and counters -/

theorem test_FaultRecordsAndCounters_hyps :
    Map.wf regDefault State.reset.regs = true ∧ (State.reset.setRf .fltRec [5] 61 60 1).rf .fltRec [5] 61 60 = 1 ∧
    State.reset.rf .fltRec [0x72] 61 60 = 0 ∧ fld ((State.reset.setReg .fltRec [5] (pack [(63, 62, 3), (61, 60, 1)])).reg .fltRec [5]) 63 62 = 3 ∧
    State.reset.fltSeen.all (fun x => x.block != 5) = true ∧
    (let s := (State.reset.setReg .pmcCtl [0x38, 0] (pack [(63, 63, 1), (11, 0, 0x000)])).setReg .pmcCnt [0x38, 0] (pack [(47, 0, 0xFFFFFFFFFFFF)])
     s.pmcRuns 0x38 = true ∧ s.rf .pmcCnt [0x38, 0] 47 0 + 1 = 2 ^ 48 ∧ (List.range 0x1000).any (fun e => eventCounts 0x38 e) = true ∧
     s.pmcHit 0x38 1 0 0 = false) ∧
    (let s := (potOn.setReg .pmcGctl [0] (pack [(63, 63, 1), (57, 52, 1)])).setReg .pmcGbuf [0] (pack [(47, 12, 0x100), (4, 0, 5)])
     s.rf .pmcGctl [0] 63 63 ≠ 0 ∧ s.power.state = .run ∧ s.islRuns 110 = true ∧ s.gathererOk 1 0x100000 = true ∧ s.gathererOk 1 0x200000 = false) ∧
    (let s := (potOn.setReg .pmcGctl [0] (pack [(63, 63, 1)])).setReg .pmcGmask0 [0] 2
     s.gatherBlocks 0 = [(1, 1)]) ∧
    (let s := tenant.setReg .pmcSctl [0] (pack [(63, 63, 1)])
     s.rf .pmcSctl [0] 63 63 ≠ 0 ∧ s.pmcRuns 0 = true ∧ (s.thr 0).run = .running ∧ (s.core 0).sample = none ∧ (s.thr 0).cur.pl ≠ 3 ∧
       s.pmcOwns 0 0 false = true ∧ Map.wf Core.reset s.cores = true) ∧
    ((boot.modCore 0 fun y => { y with sample := some ⟨0, 0, 1, 1, 0⟩ }).core 0).sample.isSome = true ∧ State.reset.rf .pmcSctl [0] 63 63 = 0 := by decide

/-! ## Resets, islands and power -/

def withPower (f : Power → Power) : State := { State.reset with power := f State.reset.power }

theorem test_ResetsAndStartUp_hyps :
    State.reset.power.state = .run ∧ State.reset.inCold = false ∧ State.reset.pins.warmN = true ∧ State.reset.power.holdRuns = false ∧
    (withPower fun p => { p with state := .doze }).power.state = .doze ∧ (withPower fun p => { p with state := .off }).power.state = .off ∧
    (withPower fun p => { p with holdRuns := true }).power.holdRuns = true ∧ (State.reset.setRf .fltFcfg [] 16 16 1).rf .fltFcfg [] 16 16 = 1 ∧
    (State.reset.setRf .fltFcfg [] 16 16 0).rf .fltFcfg [] 16 16 ≠ 1 ∧ Map.wf Thread.reset State.reset.threads = true ∧
    (∀ m < 112, (State.reset.thr m).sb = [] ∧ (State.reset.thr m).cb = [] ∧ (State.reset.thr m).groups = []) ∧ State.reset.presets = [] ∧
    (∀ c < 15, (State.reset.ctx 0 48 c).state ≠ 1) ∧ (∀ c < 8, (State.reset.ctx 1 48 c).state ≠ 1) ∧ Map.wf regDefault State.reset.regs = true ∧
    Map.wf zeroNat State.reset.cold.pst = true ∧ Map.wf Core.reset State.reset.cores = true ∧
    bit ((State.reset.setReg .rstCorespare [] (pack [(55, 55, 1)])).reg .rstCorespare) 55 = true ∧ State.reset.sparings = [] := by decide

theorem test_ResetsAndStartUp_power :
    (let s := withPower fun p => { p with boot := .rails, heldReset := false, main := true, aux := true }
     s.power.state = .run ∧ s.power.boot = .rails ∧ s.power.main = true ∧ s.power.aux = true ∧ Map.wf Isl.reset s.isls = true ∧
       Map.wf Mc.reset s.mcs = true ∧ Map.wf regDefault s.regs = true ∧ s.power.warmBoot = false ∧ s.popOk = true ∧ 0 ∈ s.channels ∧
       ({ s with spd := [] } : State).popOk = false) ∧
    (let s := withPower fun p => { p with state := .sleep, main := false, coldDue := some 2 }
     s.power.state = .sleep ∧ s.power.main = false ∧ s.power.coldDue.isSome = true) ∧
    bit (({ State.reset with optIn := Map.set optDefault State.reset.optIn 0x11F (BitVec.ofNat 8 1) } : State).optD 0x118) 0 = true ∧
    bit (({ State.reset with optIn := Map.set optDefault State.reset.optIn 0x11F (BitVec.ofNat 8 0) } : State).optD 0x118) 0 = false ∧
    (let s := (List.range 12).foldl (fun s n => s.setRf .mcTrain [n] 7 0 2) (withPower fun p => { p with boot := .training })
     s.power.state = .run ∧ s.power.boot = .training ∧ (∀ n < 12, (s.ways = 6 ∧ n % 2 = 1) ∨ s.rf .mcTrain [n] 7 0 = 2) ∧ s.odv 0x310000 % 2 = 0 ∧ s.islRuns 106 = true ∧
       s.cold.zeroPending = false ∧ ((List.range 56).find? (bit (s.reg .rstCoresvc))).isSome = true ∧ Map.wf regDefault s.regs = true) ∧
    (∀ v ∈ [1, 2], let s : State := { State.reset with scn := { State.reset.scn with role := 0 }, cold := { State.reset.cold with pst := Map.set zeroNat State.reset.cold.pst 1 v } }
     s.scn.role ≤ 1 ∧ s.sparings = [] ∧ (s.thr 2).run = .held ∧ bit (s.reg .rstCoresvc) 1 = true ∧ s.power.boot = .done ∧ s.partQuiet 1 = true ∧
       Map.get zeroNat s.cold.pst 1 = v ∧ Map.wf zeroNat s.cold.pst = true) ∧
    (State.reset.setRf .rstWdog [] 63 63 1).rf .rstWdog [] 63 63 = 1 ∧ State.reset.rf .rstWdog [] 63 63 ≠ 1 ∧
    (let s := ({ State.reset with power := { State.reset.power with wdog := 2 ^ 60 } } : State).setRf .rstWdog [] 63 63 1
     s.rf .rstWdog [] 63 63 = 1 ∧ s.power.state = .run ∧ s.rf .rstWdog [] 31 0 * 200000 ≤ s.power.wdog) := by decide

/-- An island of each reaction runs; refused and allowed changes of the power state. -/
theorem test_IslandsAndPower_hyps :
    (∀ i ∈ [0, 56, 91, 92, 103, 104, 105, 106, 107, 110, 111, 112], (State.reset.isl i).valid = true ∧ (State.reset.isl i).held = false ∧
      (State.reset.isl i).gate = 0) ∧ Map.wf Isl.reset State.reset.isls = true ∧ bit (State.reset.reg .rstCoresvc) 0 = true ∧
    bit ((State.reset.setReg .rstCoresvc [] 1).reg .rstCoresvc) 55 = false ∧ State.reset.rf .scnCtl [] 0 0 = 0 ∧ (paired id).rf .scnCtl [] 0 0 ≠ 0 ∧
    (∀ k < 112, let s := State.reset.modIsl k fun y => { y with held := true, valid := false }
      (s.isl k).held = true ∧ (s.isl k).valid = false) ∧
    (State.reset.modIsl 5 fun y => { y with status := 1 }).isl 5 = { State.reset.isl 5 with status := 1 } ∧
    State.reset.blockMay 112 = false ∧ (List.range 113).any State.reset.blockMay = true := by decide

theorem test_IslandsAndPower_states :
    State.reset.txns = [] ∧ State.reset.wbs = [] ∧ State.reset.devicesWait = false ∧
    (boot.modThr 0 fun t => { t with sb := [⟨true, 0xFF0000000000 / 256, [⟨0xFF0000000000, [1], 1, 0, 0, 0, 0, false⟩], none, 0⟩] }).devicesWait = true ∧
    State.reset.l2 = [] ∧ State.reset.rf .mcCfg [0] 0 0 = 1 ∧
    (paired fun x => { x with role := 1 }).powerRefused = true ∧ State.reset.powerRefused = false ∧ State.reset.power.dozeWait = false ∧ State.reset.engineBusy 5 = false ∧
    (let s := withPower fun p => { p with state := .doze, dozed := [(0, .running)] }
     s.power.state = .doze ∧ (s.power.dozed.map Prod.fst).Nodup) ∧
    (let s := withPower fun p => { p with state := .sleep, main := true }
     s.power.state = .sleep ∧ s.power.main = true) ∧
    Map.wf zeroNat State.reset.power.tj = true ∧ 93 ≤ (93 : BitVec 7).toNat ∧ (0 : Nat) ∉ State.reset.power.hot ∧
    State.reset.rf .fltFatal [] 63 63 ≠ 1 := by decide

/-! ## Dictionary and time -/

/-- Session 1 of role `role` through port 0. -/
def session (role : Nat) : Session := ⟨1, role, 0, 5, [1, 2, 3], 0, [], 0, [], 0⟩
def inSession (role : Nat) (s : State) : State := { s with cold := { s.cold with sessions := [session role] } }
def asker (role : Nat) : Asker := ⟨role, 1, 0, [1, 2, 3], none⟩

/-- A request of session 1 with the object's type, and its write of a value. -/
def request (opc obj : Nat) (v : List Byte) : Pdu :=
  { kind := 1, session := 1, seq := 1, opc := opc, status := 0, obj := obj, typ := ((odRow obj).map fun r => r.typ).getD 0, off := 0, payload := v }

/-- Does a session of role `role` pass the checks of a write of `n` to the object? -/
def passes (role obj n : Nat) (s : State) : Bool :=
  (odRow obj).any fun r => (s.writeBad (asker role) false (request 2 obj (toBytes r.size n)) (toBytes r.size n)).isNone

/-- A frame with its MAC, whose session is open. -/
theorem test_Dictionary_hyps :
    (let p := request 1 0x110001 []
     let pdu := p.bytes ++ macOf [1, 2, 3] p.bytes
     parsePdu pdu = some (p, macOf [1, 2, 3] p.bytes) ∧ (macOf [1, 2, 3] p.bytes).length = 16 ∧ p.seq = (session 1).seq + 1 ∧
       ((inSession 1 State.reset).cold.sessions.find? fun x => x.num == p.session && x.port == 0 && x.mac == 5) = some (session 1)) ∧
    parsePdu [1] = none := by decide

theorem test_Dictionary_reads :
    State.reset.readBad (asker 1) 0x110001 = none ∧ (State.reset.odBytes 0x110001).length ≤ 1456 ∧ State.reset.readBad (asker 1) 0xEEEEEE ≠ none ∧
    (odRow 0xEEEEEE).isNone = true ∧ (odRow 0x110001).any (fun r => r.typ != tBlob) = true ∧ State.reset.seg? 1 0x110001 false = none ∧
    (session 1).subs.length < 32 ∧
    (odRow 0x000001).any (fun r => r.typ == tBlob && (State.reset.readBad (asker 1) 0x000001).isNone &&
      !(State.reset.odBytes 0x000001).isEmpty) = true := by decide

/-- A plain write, each action, a staged segment, maker debug; and one refused. -/
theorem test_Dictionary_writes :
    passes 2 0x110001 1 State.reset = true ∧ passes 1 0x110001 1 State.reset = false ∧
    (0x110001 ∉ [0x000010, 0x040000, 0x060001, 0x310006, 0x310007, 0x400100, 0xF00000] ∧ 0x110001 / 0x10000 ≠ 0x21 ∧ isAction 0x110001 = false) ∧
    Map.wf odDefault State.reset.od = true ∧ Map.wf regDefault State.reset.regs = true ∧ ownRow (request 2 0x110001 [0, 1]) = false ∧
    (∀ o ∈ [0x050001, 0x050002], ∀ n ∈ [1, 2, 3], passes 2 o n State.reset = true) ∧ passes 2 0x050003 0 State.reset = true ∧
    (∀ n ∈ [1, 2, 3], isControl n (request 2 0x610001 [BitVec.ofNat 8 n]) = true) ∧ passes 2 0x610001 1 State.reset = true ∧
    (let s : State := { State.reset with cold := { State.reset.cold with pst := [(1, 2)] } }
     passes 2 0x610001 2 s = true ∧ passes 2 0x610001 3 s = true) ∧
    State.reset.writeBad (asker 3) true (request 2 0xF00000 [1]) [1] = none ∧
    State.reset.powerRefused = false ∧ (paired fun x => { x with role := 1 }).powerRefused = true ∧
    (match State.reset.stage (asker 3) { request 4 0x000010 (List.replicate 512 0) with off := 0 } with
      | .ok w => decide ((odRow 0x000010).any fun r => decide (r.size ≤ w.length))
      | .error e => e == 0x02) = true := by decide

/-- Openings, authentications, closing, in-band requests, notifications. -/
theorem test_Dictionary_sessions :
    (let p := openPdu 0x10 0 0 (1 :: List.replicate 16 0)
     parseOpen 0x10 p.bytes = some p ∧ p.payload.length = 17) ∧ parseOpen 0x10 [1] = none ∧ State.reset.cold.zeroPending = false ∧
    State.reset.cold.sessions = [] ∧ State.reset.cold.openings = [] ∧ State.reset.cold.locked = [] ∧
    State.reset.roleKey 1 = none ∧ ((State.reset.setOdv 0x010000 9).roleKey 1).isSome = true ∧
    (let p := openPdu 0x12 3 0 []
     parseOpen 0x12 p.bytes = some p) ∧
    (let p : Pdu := { openPdu 0x14 1 0 [] with seq := 1 }
     parsePdu (p.bytes ++ macOf [1, 2, 3] p.bytes) = some (p, macOf [1, 2, 3] p.bytes)) ∧
    (let b := (request 1 0x110001 []).bytes
     ([((1 : Nat), (⟨b, none⟩ : InBand))].find? fun x => x.1 == 1 && x.2.resp.isNone) = some (1, ⟨b, none⟩) ∧ (parsePdu b).isSome = true) ∧
    State.reset.readBad ⟨1, 0xFF01, 2, [], some 1⟩ 0x610002 = none ∧
    (odRow 0x610002).any (fun r => !r.live) = true ∧ State.reset.mainAway = false ∧
    (let s : State := { State.reset with cold := { State.reset.cold with zeroPending := true }, power := { State.reset.power with boot := .training } }
     s.cold.zeroPending = true ∧ s.power.boot = .training ∧ Map.wf optDefault s.opt = true) := by decide

def withPtp (f : Ptp → Ptp) : State := { State.reset with cold := { State.reset.cold with ptp := f State.reset.cold.ptp } }
def master : Master := ⟨0, 7, 0, 0, 0, 0, 0, 0, 0, 0⟩

theorem test_TimeAndRegisters_time :
    State.reset.power.aux = true ∧ (withPower fun p => { p with aux := false }).power.aux = false ∧
    (let s := (withPtp fun p => { p with masters := [master], source := 1, sync := 2, t3 := some (4, 0) }).setOdv 0x040001 1
     s.fromMaster false 7 (BitVec.ofNat 8 (s.odv 0x040002)) = true ∧ s.fromMaster false 8 (BitVec.ofNat 8 (s.odv 0x040002)) = false ∧
       s.odv 0x040001 = 1 ∧ s.cold.ptp.best = some master ∧ s.cold.ptp.t3 = some (4, 0) ∧ s.cold.ptp.source = 1) ∧
    (let s := (withPtp fun p => { p with source := 2, sync := 3, ppsMiss := 2 }).setOdv 0x040001 2
     s.odv 0x040001 = 2 ∧ s.cold.ptp.source = 2 ∧ 2 ≤ s.cold.ptp.ppsMiss ∧ s.cold.ptp.best = none ∧ s.pins.ppsIn = false ∧
       2 ≤ s.newSource.cold.ptp.sync) ∧
    (let s : State := { State.reset with stc := ⟨5, 400000000, 0⟩, cold := { State.reset.cold with ptp := { State.reset.cold.ptp with sync := 2 } } }
     100000 < s.ppsPhase.natAbs) ∧
    ¬ 100000 < State.reset.ppsPhase.natAbs ∧
    (let s := State.reset.setOdv 0x040007 1
     s.odv 0x040007 = 1 ∧ s.power.main = true ∧ s.power.heldReset = false ∧ s.stc.ns * 2 ^ 40 + s.stc.frac < s.cold.ptp.inc) ∧
    (State.reset.setOdv 0x04000A 0).odv 0x04000A ≠ alarmOff ∧ (State.reset.setOdv 0x04000A 0).odv 0x04000A ≤ State.reset.now96 := by decide

/-- Each register that has no side effect, and a number of none; a Secure thread, and the two objects that Rootstock applies. -/
theorem test_TimeAndRegisters_registers :
    (∀ x ∈ [(Reg.fltFcfg, ([] : List Nat)), (.pmcCtl, [0x72, 7]), (.pmcCnt, [0, 0]), (.potPfdis, []), (.trlAckto, []), (.rstRtycfg, []), (.mcScrub, [11]), (.pmcSctl, [55])],
      regAt (x.1.addr x.2) = some x ∧ isModReg (x.1.addr x.2) = true ∧ x.1.addr x.2 % 8 = 0) ∧
    regAt 0xFF00FFFFFFF8 = none ∧ isModReg 0xFF00FFFFFFF8 = true ∧ isModReg 0x1000 = false ∧
    (boot.thr 0).run = .running ∧ (boot.thr 0).cur.pl = 3 ∧ (tenant.thr 0).cur.pl ≠ 3 ∧ Map.wf Thread.reset boot.threads = true ∧
    boot.cold.chgOvf = false ∧ boot.cold.chg = [] ∧ (boot.thr 0).groups = [] ∧ boot.pageBusy 0 (Reg.cfmChg.addr [] / 4096) = false ∧
    boot.scn.running = false ∧ (deviceStore.pageBusy 0 0xE00000000) = true ∧ Map.wf Thread.reset (draining.hardenThr 0).threads = true ∧ State.reset.odv 0x080000 < 2 ∧ (State.reset.setOdv 0x110001 1).odv 0x110001 = 1 := by decide

/-! ## What the hypotheses ask besides -/

/-- No epoch is open, so no register write is recorded, and no descriptor's flag or routine waits. -/
theorem test_unpaired : (∀ s ∈ [State.reset, potOn, boot], s.scn.running = false ∧ s.hubIdle = true ∧ s.stalled = false) ∧
    (∀ (s : State) (r : Reg) (ix : List Nat) (v : W64), s.scn.running = false → s.cfgw r ix v = s) ∧
    (busyBank.thr 0).mid = none ∧ ((got leaving 0).thr 0).mid = none ∧ ((got toUser 0).thr 0).mid = none :=
  ⟨by decide, fun s r ix v h => by simp [State.cfgw, h], by decide⟩

/-- Nothing of the sibling thread's or of the combining buffer is in the way of the access. -/
theorem test_AtomicsUnderOwnership_turn :
    reaches 3 .write (got reserving 0).isDram 0x200008 (got reserving 0) (fun pa s2 => !s2.sibDesc 0 (pa / 256) &&
      ((s2.thr 0).cb.all fun l => l.data.length != 256)) = true := by decide

theorem test_HardeningAndDrains_drain :
    draining.sibDesc 0 0x2000 = false ∧
    ((draining.acquire 0 0 0x2000 true).any fun s => Memory.wf s.mem && decide (s.scn.logged.length + s.scn.halfLen + 1 < 2 ^ 20) &&
      !s.inPriv 0x200008 && !s.scn.running) = true ∧ State.reset.scn.waits = [] := by decide

/-- No device store to the page waits, and no barrier stands before the flags. -/
theorem test_PostingRoutines_page :
    okAnd (accessAs 0 1 .read (got poster 0).isDram 0x108000 (got poster 0)) (fun (_, s2) => !s2.pageBusy 0 0xF00000800 &&
      !(s2.thr 0).olderGen (s2.thr 0).barGen) = true := by decide

theorem test_ServicesAnswer_runs :
    (∀ l ∈ ((caller 1 0 0 0 0).thr 0).cb, l.data.length ≠ 256) ∧ (potOn.addRun 1 0x10 1).runsFull 1 = false ∧
    (potOn.dropRun 1 0x10 1).runsFull 1 = false ∧ (potOn.addRun 2 0x10 1).runsFull 2 = false ∧
    (sharing.dropRun (fld (sharing.granule 0x10) 63 58) 0x10 1).runsFull (fld (sharing.granule 0x10) 63 58) = false ∧
    (sharing.dropRun (fld (sharing.granule 0x10) 53 48) 0x10 1).runsFull (fld (sharing.granule 0x10) 53 48) = false := by decide

/-- The island of core 0 holds work; those of core 1 and of an engine hold none. -/
theorem test_LeasesAndGates_work : boot.islandBusy 0 = true ∧ gateWaiting.islandBusy 0 = true ∧ State.reset.islandBusy 1 = false ∧
    State.reset.islandBusy 105 = false := by decide

/-- A line that comes from DRAM, and one that the L3 has. -/
theorem test_TransactionsComplete_dram :
    ((answered .rdOwn false).txn 5).any (fun t => (answered .rdOwn false).wantsDram t) = true ∧
    (let t : Txn := ⟨⟨.rdOwn, .core 0, 5, []⟩, false, [], [], [], [(1, .i)], true, false, false, []⟩
     let s : State := { State.reset with txns := [t] }
     s.txn 5 = some t ∧ t.complete = true ∧ t.filled = false ∧ s.wantsDram t = false) := by decide

theorem test_DeviceAccesses_ports :
    deviceStore.transmits = true ∧ (deviceStore.mmioPort 0).held = [] ∧ State.reset.held = [] ∧ (State.reset.port 0).ending = false ∧
    deviceStore.pageBusy 0 0xE00000000 = true := by decide

/-- Room for the staging without poison, and two classes in turn at a port. -/
theorem test_ExchangesReachTheWire_turns :
    readySlot.hubStalled 1 = false ∧ (withXch (xchIn 1)).hubStalled 1 = false ∧
    (let r := (withXch (xchIn 1)).withStage { xchIn 1 with handle := some 7 }
     r.2.framePoison r.1 = false) ∧
    (let m : TMsg := ⟨1, 0, 0, 0, 0, 1, 0, 0, 0, [], 0, none⟩
     let n : TMsg := ⟨1, 0, 0, 0, 0, 2, 0, 0, 0, [], 0, none⟩
     let s := (trellis.setReg .trlParb [0] (pack [(7, 0, 2)])).modPort 0 fun p => { p with outbox := [m, n], turn := 1, used := 1 }
     ((s.port 0).outbox.find? fun m => m.lane == 1) = some m ∧ ((s.port 0).outbox.all fun y => y.lane != 0 && y.lane != 4) = true ∧
       (s.port 0).turn = 1 ∧ (s.port 0).used < s.weight 0 1 ∧ s.canSend 0 = true ∧ [m].all (fun y => y.lane == 1) = true) := by decide

/-- A Standby, an Active at T, and a module that acts on its messages. -/
theorem test_AdapterMessages_waits :
    (withXch (xchIn 2)).itemWaits (msgItem 0 0x81 (msgOf 1 0) 0) = false ∧ trellis.itemWaits (msgItem 0 0x81 (msgOf 1 0xFFFF) 0) = false ∧
    (let s : State := { trellis with scn := { trellis.scn with role := 1, waits := [msgItem 0 0x81 (msgOf 1 0) 0] } }
     s.linkOn 0 = true ∧ s.trlOn = true ∧ s.itemWaits (msgItem 0 0x81 (msgOf 1 0) 0) = true) ∧
    (let s : State := { trellis with scn := { trellis.scn with role := 2 } }
     s.linkOn 0 = true ∧ s.trlOn = true ∧ s.replayTakes (msgItem 0 0x81 (msgOf 1 0) 0) = true ∧ s.trl.resetting = []) ∧
    (trellis.admin 1).running.isNone = true := by decide

/-- Staged data that is sound, and some that is poisoned. -/
theorem test_AdapterMessages_staged :
    (let x := { xchIn 3 with cmpl := some (0, 9), staged := [(0, 1), (1, 2)], stageAddr := 0x400000, stageLen := 16 }
     let s := withXch x
     let t : State := { s with poison := [(0x4000, true)] }
     s.inDone x = true ∧ s.hubStalled x.cls = false ∧ s.stagePoison x = false ∧ t.xch? 1 0 = some x ∧ t.inDone x = true ∧ t.stagePoison x = true) := by
  decide

theorem test_PathsAndTimeouts_ends :
    (let s := State.reset.modPort 0 fun p => { p with withdrawing := true }
     (s.port 0).withdrawing = true ∧ (s.port 0).ending = false ∧ Map.wf Port.empty s.ports = true) ∧ State.reset.scn.role ≠ 1 ∧
    Map.wf zeroNat trellis.trl.gens = true ∧ (trellis.admin 1).waiting = none := by decide

theorem test_AdapterAccesses_rules :
    (let s := withXch (xchIn 2)
     s.transmits = true ∧ (8 : BitVec 13).toNat ≤ 4096 ∧ (List.replicate 8 (1 : Byte)).length ≤ s.mps 0 ∧ s.hubIdle = true ∧
     s.itemWaits (DmaReq.item ⟨0, 0, some (2 ^ 21 + 7), 0x110008, 8, none⟩) = false) ∧
    (let x := { xchIn 2 with frame := some [1, 2, 3], frameAddr := 0x400000 }
     ((withXch x).dmaCount x 2).framePoison x = false) := by decide

/-- Nothing is held at a port, and no inbound item waits; a held output of an epoch that the ACK releases and one of a later epoch. -/
theorem test_EpochsAndTakeover_plain :
    (∀ p, (active.mmioPort p).held = [] ∧ (active.port p).ending = false) ∧ active.held = [] ∧ active.scn.waits = [] ∧ active.scn.wantClose = false ∧
    active.pins.fenceIn = false ∧
    (let h (e : Nat) : HeldOut := ⟨e, 0, 0, 1, [], 0⟩
     let s : State := { active with held := [h 4, h 5] }
     s.held.all (fun h => decide (h.port < 16)) = true ∧ s.held.Pairwise (fun a b => a.ep ≤ b.ep)) ∧
    (let s : State := { paired (fun x => { x with role := 2, takeover := some .declared }) with pins := { State.reset.pins with fenceIn := true } }
     s.scn.role = 2 ∧ s.scn.takeover = some .declared ∧ s.pins.fenceIn = true) := ⟨fun _ => ⟨rfl, rfl⟩, by decide⟩

theorem test_MirrorAndJoin_idle : standby.hubIdle = true ∧ joiner.hubIdle = true ∧ (∀ r ∈ [Rec.cfgw 5 0x1000 7], r.ep = some 5) := by decide

/-- A context that has nothing at the front of its ring, with and without an error. -/
theorem test_SieveJobs_front :
    (trellis.ctx 0 1 0).ring.front = none ∧ (State.reset.ctx 0 1 0).ring.front = none ∧ (blocks id).stalled = false ∧ (blocks id).hubIdle = true ∧
    ((engine 0 (sieveWord 1 1) 0 0 5 64 [1, 2, 3, 4, 5]).ctx 0 1 0).state = 1 := by decide

/-- A run of records that waits for a lane, and one that a lane holds. -/
theorem test_SieveJobs_scion :
    (let s : State := { blocks id with scn := { (blocks id).scn with ship := [⟨[.cfgw 5 0x1000 7], .waiting⟩] } }
     s.scn.role ≠ 2 ∧ s.islRuns 105 = true ∧ s.idleAsked 105 = false ∧ s.lanesBusy true < 16 ∧ s.sve.comp.since < 3 ∧
       (s.scn.ship.any fun r => r.st == .waiting) = true) ∧
    (let s : State := { State.reset with scn := { State.reset.scn with ship := [⟨[.cfgw 5 0x1000 7], .lane⟩] } }
     s.scn.ship[(0 : BitVec 20).toNat]? = some ⟨[.cfgw 5 0x1000 7], .lane⟩ ∧ s.scn.carries = false) := by decide

/-- A job in lane 0. -/
def laneJob (f : Job → Job) : State :=
  let s := engine 1 0 0 0 0 0 []
  let sg (d : Bool) (a n : Nat) : Seg := ⟨0x109000, d, false, a, n, 0, 1, 0⟩
  let s1 := s.modCtx 1 1 0 fun x => { x with job := some (f (jobOf 1 0 (dwords [0]) [sg false 0x10A000 40, sg true 0x10C000 4096])) }
  { s1 with gnt := { s1.gnt with units := [(0, .job 1 0 0)] } }

def runsIn (s : State) : Bool := !s.gnt.outLanes.contains 0 && decide (s.scn.role ≠ 2) && !s.stalled && s.islRuns 106 &&
  s.gnt.units.find? (fun w => w.1 == 0) == some (0, .job 1 0 0)

/-- An export in a lane; an import; and a signature's hash. -/
theorem test_GarnetJobs_lanes :
    (let s := laneJob fun j => { j with op := 0x50, key := List.replicate 32 9, msg := dwords [pack [(63, 60, 1)], 0] ++ List.replicate 16 3 }
     let s0 : State := { s with gnt := { s.gnt with units := [] } }
     runsIn s = true ∧ (s.ctx 1 1 0).job.any (fun j => j.fail.isNone && decide ((kwWrap j.key j.msg).length ≤ j.limit) &&
       ((s0.addRf .gntStat [] 31 0 1).jobOut 1 j 0 (kwWrap j.key j.msg)).1) = true) ∧
    (let s := laneJob fun j => { j with op := 0x80, taken := 40 }
     runsIn s = true ∧ (s.ctx 1 1 0).job.any (fun j => j.fail.isNone && decide (lens j.ins ≤ j.taken)) = true) := by decide

/-- The image of a key under the empty key, for which AES is the identity here. -/
theorem test_GarnetJobs_import_lane :
    let w := kwWrap [] (dwords [pack [(63, 60, 1)], 0] ++ List.replicate 16 3)
    let s := (laneJob fun j => { j with op := 0x51 }).wr 0x10A000 w
    let s := (withKeys 2 32 s).setReg .gntPslot [1] (pack [(44, 32, 16)])
    let s0 : State := { s with gnt := { s.gnt with units := [] } }
    runsIn s = true ∧ (s.ctx 1 1 0).job.any (fun j => j.fail.isNone && (match (s0.addRf .gntStat [] 31 0 1).jobIn 1 j 0 40 with
      | (.ok bs, s2) => (kwUnwrap j.key bs).any fun u => attrOk (dwordAt u 0) && decide (dwordAt u 8 = 0) &&
          decide (u.length = 16 + keyLen (dwordAt u 0)) && s2.slotRoom 1 (s2.ctxSet 1 1 0)
      | _ => false)) = true ∧ s.gnt.inst < 2 ^ 31 := by decide

theorem test_FaultRecordsAndCounters_counts : ownEvent 0x38 0 = false ∧ ownEvent 0x38 0x220 = true ∧ State.reset.stalled = false ∧
    (State.reset.cfgw .fltCtl [5] 1).rf .fltRec [5] 61 60 = 0 := by decide

theorem test_ResetsAndStartUp_stopped :
    (State.reset.setReg .trlPcfg [1] (pack [(63, 63, 1)])).rf .trlPcfg [1] 63 63 = 1 ∧ State.reset.rf .trlPcfg [1] 63 63 = 0 ∧
    (withPower fun p => { p with state := .sleep }).power.state = .sleep ∧
    ({ State.reset with scn := { State.reset.scn with running := true } } : State).scn.running = true := by decide

/-! ## The spec's worked examples -/

/-- The value of register `n` of thread 0, read after any load delay, when a command has run on a state. -/
def ran (i : Instr) (s : State) : State :=
  match exec i s with
  | .next u => u
  | _ => s

def withG (l : List (Nat × W64)) : State := withArch State.reset (l.foldl (fun a x => a.setG x.1 x.2) secArch)

/-- R71's example: one byte 0x39 into a CRC-32C of all ones; the BREV examples (R69). -/
theorem test_crc_and_brev :
    ((ran (.crc 0 .crc32c 0 1 2 3) (withG [(2, 0xFFFFFFFF), (3, 0x39)])).arch 0).raw 1 = 0xE5D33ED3 ∧
    ((ran (.bitGroup 0 .brevD 1 2) (withG [(2, 0xF1)])).arch 0).raw 1 = 0x8F00000000000000 ∧
    ((ran (.bitGroup 0 .brevW 1 2) (withG [(2, 0xE5D33ED3)])).arch 0).raw 1 = 0xCB7CCBA7 := by decide

/-- The tariff lookup of R38: LDD l3, 0x18(l1), then l4 and l5 as l3 + l2. -/
theorem test_load_delay :
    let s := (withG [(19, 0x19), (18, 0x64), (17, 0x300000)]).wr 0x300018 (toBytes 8 0x28)
    let s1 := ran (.load 0 .ldd 19 (.disp 17 0x18)) s
    let s2 := ran (.aluGroup 0 .add false 20 19 18) s1
    ((s2.arch 0).raw 20 = 0x7D) ∧ ((ran (.aluGroup 0 .add false 21 19 18) s2).arch 0).raw 21 = 0x8C := by decide

/-- R72: bytes are signed or not, the first the most significant. -/
theorem test_load_bytes :
    let s := (withG [(2, 0x300000)]).wr 0x300000 [0x80, 1]
    ((ran (.load 0 .ldb 1 (.disp 2 0)) s).arch 0).raw 1 = 0xFFFFFFFFFFFFFF80 ∧
    ((ran (.load 0 .ldhu 1 (.disp 2 0)) s).arch 0).raw 1 = 0x8001 := by decide

def dec64 (c : Nat) (e : Int) : W128 := Fmt.d64.write (.fin false c e)
def withF (l : List (Nat × W128)) (fpsr : W64) : State :=
  withArch State.reset (withSr (l.foldl (fun a x => a.setF x.1 x.2) secArch) 3 fpsr)

/-- The DFMA and DQUANT of R93's example: 1250.5 times 3.75 plus 18402.25, then rounded to cents with NX. -/
theorem test_dfma_dquant :
    let s1 := ran (.fma 0 .d64 false 6 4 5 6) (withF [(4, dec64 12505 (-1)), (5, dec64 375 (-2)), (6, dec64 1840225 (-2)), (7, dec64 1 (-2))] 0)
    let s2 := ran (.dquant 0 .d64 6 6 7) s1
    (s1.arch 0).rawF 6 = dec64 23091625 (-3) ∧ fld ((s1.arch 0).srv 3) 4 0 = 0 ∧
    (s2.arch 0).rawF 6 = dec64 2309162 (-2) ∧ fld ((s2.arch 0).srv 3) 4 0 = 1 := by decide

/-- The port dues of the arithmetic chapter's example, ties away: step 3. -/
theorem test_port_dues :
    ((ran (.fpd 0 .d64 .mul 5 1 2) (withF [(1, dec64 49354 0), (2, dec64 50 (-2))] 0)).arch 0).rawF 5 = dec64 2467700 (-2) ∧
    ((ran (.dquant 0 .d64 7 6 4) (withF [(6, dec64 308462500 (-5)), (4, dec64 1 (-2))] (pack [(23, 21, 4)]))).arch 0).rawF 7 = dec64 308463 (-2) := by decide

/-- Home slices (R194), the controller and local address of R252's example, streams and doorbells (R273, R275). -/
theorem test_addresses :
    sliceOf (0x07123A38 / 256) = 15 ∧ sliceOf (0x00441200 / 256) = 6 ∧
    ({ State.reset with ways := 12 } : State).mcOf 0x07123A38 = 6 ∧ ({ State.reset with ways := 12 } : State).mcLocal 0x07123A38 = 0x96DA38 ∧
    streamId 7 5 3 = 0x1C028003 ∧ doorbellOf (.sq 7 5 3) = 0xF00003805060 ∧ doorbellOf (.sq 7 9 0) = 0xF00003809000 ∧
    decodeKza 0 0xBC000A03 = some (.barS 0 3) := by decide

/-- A TRAP enters bank X at 0x700 (R53, R54); a user's ERET is privileged (R52). -/
theorem test_trap :
    ((ran (.trap 0 5) boot).arch 0).pc = (secArch.srv 0x46) + 0x700 ∧ ((ran (.trap 0 5) boot).arch 0).srv 0x40 = 0x100004 ∧
    fld (((ran (.eret 0) user).arch 0).srv (bankBase 1 + 2)) 7 0 = 0x05 := by decide

/-! ## A patched micro-routine -/

/-- Core 0 with one patch word at microaddress 0x6000, which the dispatch entry of BMOV names; `valid`: its VALID bit. -/
def patched (valid : Bool) (w : BitVec 160) (s : State) : State :=
  s.modCore 0 fun x => { x with disp := [(0x3A0, if valid then 0xE000 else 0x6000)], pram := [(0x6000, w)] }

/-- What the routine of BMOV gives, where the shipped one would stop. -/
def bmovRoutine (s : State) : R (Arch × State) := routine 0x3A0 0 0 3 0 (fun _ _ => .error .stall) secArch s

/-- A microword that reads the doubleword at g1 into g5, commits and ends (R121, R126). -/
def loadWord : BitVec 160 :=
  let f := fun (v n : Nat) => (BitVec.ofNat 160 v) <<< n
  f 1 155 ||| f 3 153 ||| f 1 100 ||| f 3 97 ||| f 1 90 ||| f 5 83

/-- An invalid entry and the EXC field raise their exceptions (R121, R124). -/
theorem test_micro_exceptions :
    (match bmovRoutine (patched false 0 boot) with | .error (.exc e _) => e.code | _ => 0) = 0x04 ∧
    (match bmovRoutine (patched true ((0x0D : BitVec 160) <<< 19) boot) with | .error (.exc e _) => e.code | _ => 0) = 0x0D := by
  decide

/-- A load into a selector, committed (R121, R122, R126). -/
theorem test_micro_load :
    okAnd (bmovRoutine (patched true loadWord (boot.wr 0x200008 [1, 2, 3, 4, 5, 6, 7, 8])))
      (fun r => r.1.raw 5 == 0x0102030405060708 && r.1.raw 1 == 0x200008) = true := by decide

end Sys2Proof.Machine
end

/-! ## Fields of words (R8) -/

section
namespace Sys2Proof.Machine

/-- The bits of a word with a field written: those of the field are the value's, the others as they were. -/
theorem getLsbD_setFld {w : Nat} (x : BitVec w) (hi lo v i : Nat) :
    (setFld x hi lo v).getLsbD i =
      (decide (i < w) && if lo ≤ i ∧ i < lo + (hi + 1 - lo) then v.testBit (i - lo) else x.getLsbD i) := by
  have hn : x.toNat - fld x hi lo * 2 ^ lo + v % 2 ^ (hi + 1 - lo) * 2 ^ lo =
      2 ^ lo * (2 ^ (hi + 1 - lo) * (x.toNat / 2 ^ lo / 2 ^ (hi + 1 - lo)) + v % 2 ^ (hi + 1 - lo)) + x.toNat % 2 ^ lo := by
    have h1 := Nat.div_add_mod x.toNat (2 ^ lo)
    have h2 := Nat.div_add_mod (x.toNat / 2 ^ lo) (2 ^ (hi + 1 - lo))
    have h3 : x.toNat = 2 ^ lo * (2 ^ (hi + 1 - lo) * (x.toNat / 2 ^ lo / 2 ^ (hi + 1 - lo))) +
        fld x hi lo * 2 ^ lo + x.toNat % 2 ^ lo := by
      rw [fld, Nat.mul_comm _ (2 ^ lo), ← Nat.mul_add, h2, h1]
    rw [Nat.mul_add, Nat.mul_comm (2 ^ lo) (v % _)]
    omega
  rw [setFld, BitVec.getLsbD_ofNat, hn, Nat.testBit_two_pow_mul_add _ (Nat.mod_lt _ (Nat.two_pow_pos _)),
    Nat.testBit_two_pow_mul_add _ (Nat.mod_lt _ (Nat.two_pow_pos _))]
  congr 1
  by_cases h1 : i < lo
  · rw [if_pos h1, if_neg (by omega), Nat.testBit_mod_two_pow, BitVec.testBit_toNat]
    simp [h1]
  · rw [if_neg h1]
    by_cases h2 : i - lo < hi + 1 - lo
    · rw [if_pos h2, if_pos (by omega), Nat.testBit_mod_two_pow]
      simp [h2]
    · rw [if_neg h2, if_neg (by omega), Nat.testBit_div_two_pow, Nat.testBit_div_two_pow, BitVec.testBit_toNat]
      congr 1
      omega

/-- The bits of a field. -/
theorem testBit_fld {w : Nat} (x : BitVec w) (hi lo i : Nat) :
    (fld x hi lo).testBit i = (decide (i < hi + 1 - lo) && x.getLsbD (i + lo)) := by
  rw [fld, Nat.testBit_mod_two_pow, Nat.testBit_div_two_pow, BitVec.testBit_toNat]

theorem fld_lt {w : Nat} (x : BitVec w) (hi lo : Nat) : fld x hi lo < 2 ^ (hi + 1 - lo) := Nat.mod_lt _ (Nat.two_pow_pos _)

/-- A field reads what was last written to it. -/
theorem fld_setFld_self {w : Nat} (x : BitVec w) {hi lo : Nat} (v : Nat) (h : hi < w) :
    fld (setFld x hi lo v) hi lo = v % 2 ^ (hi + 1 - lo) := by
  apply Nat.eq_of_testBit_eq
  intro i
  rw [testBit_fld, getLsbD_setFld, Nat.testBit_mod_two_pow]
  by_cases hi' : i < hi + 1 - lo
  · rw [if_pos (by omega)]
    simp [hi', show i + lo < w by omega]
  · simp [hi']

/-- Writing one field leaves a field that shares no bit with it. -/
theorem fld_setFld_ne {w : Nat} (x : BitVec w) {hi lo hi' lo' : Nat} (v : Nat) (h' : hi' < w) (h : hi < lo' ∨ hi' < lo) :
    fld (setFld x hi lo v) hi' lo' = fld x hi' lo' := by
  apply Nat.eq_of_testBit_eq
  intro i
  rw [testBit_fld, testBit_fld, getLsbD_setFld]
  by_cases hb : i < hi' + 1 - lo'
  · rw [if_neg (by omega)]
    simp [show i + lo' < w by omega]
  · simp [hb]

/-- A bit outside a written field is as it was. -/
theorem bit_setFld_ne {w : Nat} (x : BitVec w) {hi lo i : Nat} (v : Nat) (hw : i < w) (h : i < lo ∨ hi < i) :
    bit (setFld x hi lo v) i = bit x i := by
  rw [bit, bit, getLsbD_setFld, if_neg (by omega)]
  simp [hw]

/-- A bit of a written field is the value's. -/
theorem bit_setFld_in {w : Nat} (x : BitVec w) {hi lo i : Nat} (v : Nat) (hw : i < w) (h : lo ≤ i ∧ i ≤ hi) :
    bit (setFld x hi lo v) i = v.testBit (i - lo) := by
  rw [bit, getLsbD_setFld, if_pos (by omega)]
  simp [hw]

/-- A field's write to a field that shares no bit with `[hi:lo]` leaves that. -/
theorem fld_write_ne {f : Field} {locked : Bool} {v old : W64} {hi lo : Nat} (hw : hi < 64) (h : f.hi < lo ∨ hi < f.lo) :
    fld (f.write locked v old) hi lo = fld old hi lo := by
  unfold Field.write
  dsimp only
  split
  · split
    · exact fld_setFld_ne _ _ hw h
    · rfl
  · split
    · exact fld_setFld_ne _ _ hw h
    · rfl
  · exact fld_setFld_ne _ _ hw h
  · exact fld_setFld_ne _ _ hw h
  · rfl

/-- A RW field takes a value of its range (R11). -/
theorem fld_write_rw {f : Field} {locked : Bool} {v old : W64} (ha : f.acc = .rw) (hw : f.hi < 64)
    (h : f.min ≤ fld v f.hi f.lo ∧ fld v f.hi f.lo ≤ f.max) : fld (f.write locked v old) f.hi f.lo = fld v f.hi f.lo := by
  simp only [Field.write, ha, if_pos h]
  rw [fld_setFld_self _ _ hw, Nat.mod_eq_of_lt (fld_lt _ _ _)]

end Sys2Proof.Machine
end

/-! ## Module registers (R9, R10) -/

section
namespace Sys2Proof.Machine

/-- A register reads what was last written to it. -/
theorem State.reg_setReg_self {s : State} (r : Reg) (ix : List Nat) (v : W64) (h : Map.wf regDefault s.regs = true) :
    (s.setReg r ix v).reg r ix = v := Map.get_set_self _ v h

/-- Writing one register leaves every register at another address. -/
theorem State.reg_setReg_ne {s : State} {r r' : Reg} {ix ix' : List Nat} (v : W64) (h : Map.wf regDefault s.regs = true)
    (ha : r'.addr ix' ≠ r.addr ix) : (s.setReg r ix v).reg r' ix' = s.reg r' ix' := Map.get_set_ne v h ha

/-- Writing a register keeps the canonical form of the registers. -/
theorem State.regs_wf_setReg {s : State} (r : Reg) (ix : List Nat) (v : W64) (h : Map.wf regDefault s.regs = true) :
    Map.wf regDefault (s.setReg r ix v).regs = true := Map.wf_set _ v h

/-- A field of a register reads what was last written to it. -/
theorem State.rf_setRf_self {s : State} (r : Reg) (ix : List Nat) {hi lo : Nat} (v : Nat) (h : Map.wf regDefault s.regs = true)
    (hw : hi < 64) : (s.setRf r ix hi lo v).rf r ix hi lo = v % 2 ^ (hi + 1 - lo) := by
  rw [State.rf, State.setRf_eq, State.reg_setReg_self _ _ _ h, fld_setFld_self _ _ hw]

end Sys2Proof.Machine
end

/-! ## Faults (R458 to R471) -/

section
namespace Sys2Proof.Machine

/-- A change of every thread changes the threads alone. -/
theorem State.mapThr_frame (s : State) (f : Nat → Thread → Thread) : ∃ th, s.mapThr f = { s with threads := th } := by
  have key : ∀ (ms : List Nat) (s : State),
      ∃ th, ms.foldl (fun s m => s.modThr m (f m)) s = { s with threads := th } := by
    intro ms
    induction ms with
    | nil => exact fun s => ⟨s.threads, rfl⟩
    | cons m ms ih => exact fun s => ih (s.modThr m (f m))
  exact key _ s

/-- A fault's record opens, or stays open: its STATE is not empty (R461). -/
theorem recUpdate_state (part : Bool) (f : FaultIn) (r : W64) : fld (recUpdate part f r) 61 60 ≠ 0 := by
  unfold recUpdate
  by_cases h0 : fld r 61 60 = 0
  · simp (disch := omega) [h0, pack, fld_setFld_ne, fld_setFld_self]
  · simp only [h0, if_false]
    by_cases h2 : fld r 61 60 = 2
    · simp only [h2, if_true]
      split <;> simp (disch := omega) [fld_setFld_ne, fld_setFld_self]
    · simp only [h2, if_false]
      repeat' split
      all_goals simpa (disch := omega) [fld_setFld_ne] using h0

/-- What a fault may change, from `s` to `t` (R461 to R471): memory, the dictionary, the clock, the caches and Trellis stand. -/
def FaultFrame (s t : State) : Prop :=
  ∃ regs seen idle pins power scn rcm th sp hist, t = { s with
    regs := regs, fltSeen := seen, egressIdle := idle, pins := pins, power := power, scn := scn, rcm := rcm, threads := th,
    sparings := sp, fltHist := hist }

theorem FaultFrame.refl (s : State) : FaultFrame s s := ⟨_, _, _, _, _, _, _, _, _, _, rfl⟩

theorem FaultFrame.trans {s t u : State} (h : FaultFrame s t) (h' : FaultFrame t u) : FaultFrame s u := by
  obtain ⟨_, _, _, _, _, _, _, _, _, _, rfl⟩ := h
  obtain ⟨_, _, _, _, _, _, _, _, _, _, rfl⟩ := h'
  exact ⟨_, _, _, _, _, _, _, _, _, _, rfl⟩

theorem FaultFrame.setReg (s : State) (r : Reg) (ix : List Nat) (v : W64) : FaultFrame s (s.setReg r ix v) :=
  ⟨_, _, _, _, _, _, _, _, _, _, rfl⟩

theorem FaultFrame.seen (s : State) (l : List FltSeen) : FaultFrame s { s with fltSeen := l } :=
  ⟨_, _, _, _, _, _, _, _, _, _, rfl⟩

theorem FaultFrame.capture (s : State) (a b c d : Reg) (ix : List Nat) (f : FaultIn) : FaultFrame s (s.capture a b c d ix f) :=
  (((FaultFrame.setReg s a ix _).trans (.setReg _ b ix _)).trans (.setReg _ c ix _)).trans (.setReg _ d ix _)

theorem FaultFrame.blockRecord (s : State) (b : Nat) (f : FaultIn) : FaultFrame s (s.blockRecord b f) := by
  unfold State.blockRecord
  extract_lets old s1 s2
  have h2 : FaultFrame s s2 := (FaultFrame.setReg s _ _ _).trans (.seen _ _)
  split
  · exact (h2.trans (.capture _ _ _ _ _ _ _)).trans (.setReg _ _ _ _)
  · exact h2

theorem FaultFrame.partRecord (s : State) (p b : Nat) (f : FaultIn) : FaultFrame s (s.partRecord p b f) := by
  unfold State.partRecord
  split
  · exact .refl s
  · extract_lets old s1 s2
    have h2 : FaultFrame s s2 := (FaultFrame.setReg s _ _ _).trans (.seen _ _)
    split
    · exact h2.trans (.capture _ _ _ _ _ _ _)
    · exact h2

theorem FaultFrame.setRole (s : State) (r : Nat) : FaultFrame s (s.setRole r) := ⟨_, _, _, _, _, _, _, _, _, _, rfl⟩
theorem FaultFrame.scnSend (s : State) (r : Rec) : FaultFrame s (s.scnSend r) := ⟨_, _, _, _, _, _, _, _, _, _, rfl⟩
theorem FaultFrame.endJoin (s : State) : FaultFrame s s.endJoin := ⟨_, _, _, _, _, _, _, _, _, _, rfl⟩
theorem FaultFrame.mapThr (s : State) (f : Nat → Thread → Thread) : FaultFrame s (s.mapThr f) := by
  obtain ⟨th, h⟩ := s.mapThr_frame f
  rw [h]
  exact ⟨_, _, _, _, _, _, _, _, _, _, rfl⟩

theorem FaultFrame.ite {s t u : State} {c : Prop} [Decidable c] (h : FaultFrame s t) (h' : FaultFrame s u) :
    FaultFrame s (if c then t else u) := by
  split
  · exact h
  · exact h'

/-- The first part of the FATAL reaction: FLT.FATAL written, the egress idle. -/
def State.fatalLatch (s : State) (b : Nat) : State :=
  let s1 := s.setReg .fltFatal [] (pack [(63, 63, 1), (38, 32, b), (31, 16, fld (s.reg .fltRec [b]) 31 16)])
  { s1 with egressIdle := true, pins := { s1.pins with pairActive := false }, power := { s1.power with holdRuns := true } }

/-- The part of Scion: the role, the FAIL record and a join under way. -/
def State.fatalLink (s : State) : State :=
  let s3 := if s.scn.role ≤ 2 then s.setRole 4 else s
  (if s3.scn.linkUp && s3.scn.authed then s3.scnSend (.fail 1) else s3).endJoin

/-- The part of the threads of the Normal World. -/
def State.fatalStop (s : State) : State := s.mapThr fun _ t => if t.active && t.cur.pl != 3 then t.stop 0 else t

/-- The last part: what sparings and Doze keep of a thread, and the history. -/
def State.fatalLog (s : State) : State :=
  let hist := (List.range 0x73).filterMap fun k =>
    if s.rf .fltRec [k] 61 60 = 0 then none
    else some (k, [s.reg .fltRec [k], s.reg .fltAddr [k], s.reg .fltTsec [k], s.reg .fltTns [k], s.reg .fltInfo [k]])
  { s with
    sparings := s.sparings.map fun x =>
      { x with run0 := s.fatalRun (2 * x.core) x.run0, run1 := s.fatalRun (2 * x.core + 1) x.run1 },
    power := { s.power with dozed := s.power.dozed.map fun x => (x.1, s.fatalRun x.1 x.2) },
    fltHist := s.fltHist ++ (0x80, [s.reg .fltFatal]) :: hist }

/-- The FATAL reaction in its parts, once (R471). -/
theorem State.fatalReaction_eq (s : State) (b : Nat) : s.fatalReaction b =
    if s.rf .fltFatal [] 63 63 = 1 then s else (s.fatalLatch b).fatalLink.fatalStop.fatalLog := rfl

theorem FaultFrame.fatalLatch (s : State) (b : Nat) : FaultFrame s (s.fatalLatch b) :=
  (FaultFrame.setReg s _ _ _).trans ⟨_, _, _, _, _, _, _, _, _, _, rfl⟩

theorem FaultFrame.fatalLink (s : State) : FaultFrame s s.fatalLink := by
  unfold State.fatalLink
  extract_lets s3
  have h3 : FaultFrame s s3 := .ite (.setRole _ _) (.refl _)
  exact (h3.trans (.ite (.scnSend _ _) (.refl _))).trans (.endJoin _)

theorem FaultFrame.fatalLog (s : State) : FaultFrame s s.fatalLog := ⟨_, _, _, _, _, _, _, _, _, _, rfl⟩

theorem FaultFrame.fatalReaction (s : State) (b : Nat) : FaultFrame s (s.fatalReaction b) := by
  rw [State.fatalReaction_eq]
  exact .ite (.refl s)
    (((FaultFrame.fatalLatch s b).trans (.fatalLink _)).trans (.mapThr _ _) |>.trans (.fatalLog _))

theorem FaultFrame.faultAt (s : State) (b lb : Nat) (f : FaultIn) : FaultFrame s (s.faultAt b lb f) := by
  unfold State.faultAt
  extract_lets s1
  have h1 : FaultFrame s s1 := (FaultFrame.blockRecord s b f).trans (.partRecord _ _ _ _)
  exact .ite (h1.trans (.fatalReaction _ _)) h1

theorem FaultFrame.fault (s : State) (b cls code pid addr : Nat) (info : W64) :
    FaultFrame s (s.fault b cls code pid addr info) := .faultAt _ _ _ _

section
variable {s t : State}

theorem FaultFrame.mem (h : FaultFrame s t) : t.mem = s.mem := by obtain ⟨_, _, _, _, _, _, _, _, _, _, rfl⟩ := h; rfl
theorem FaultFrame.cold (h : FaultFrame s t) : t.cold = s.cold := by obtain ⟨_, _, _, _, _, _, _, _, _, _, rfl⟩ := h; rfl
theorem FaultFrame.stc (h : FaultFrame s t) : t.stc = s.stc := by obtain ⟨_, _, _, _, _, _, _, _, _, _, rfl⟩ := h; rfl
theorem FaultFrame.ports (h : FaultFrame s t) : t.ports = s.ports := by obtain ⟨_, _, _, _, _, _, _, _, _, _, rfl⟩ := h; rfl

end

/-! The record of a block stays open through what follows a fault. -/

theorem State.capture_wf {s : State} (a b c d : Reg) (ix : List Nat) (f : FaultIn) (h : Map.wf regDefault s.regs = true) :
    Map.wf regDefault (s.capture a b c d ix f).regs = true :=
  State.regs_wf_setReg _ _ _ (State.regs_wf_setReg _ _ _ (State.regs_wf_setReg _ _ _ (State.regs_wf_setReg _ _ _ h)))

theorem State.reg_capture_ne {s : State} {a b c d r : Reg} {ix jx : List Nat} (f : FaultIn)
    (h : Map.wf regDefault s.regs = true) (ha : r.addr jx ≠ a.addr ix) (hb : r.addr jx ≠ b.addr ix)
    (hc : r.addr jx ≠ c.addr ix) (hd : r.addr jx ≠ d.addr ix) : (s.capture a b c d ix f).reg r jx = s.reg r jx := by
  have h1 := State.regs_wf_setReg a ix (BitVec.ofNat 64 (f.addr % 2 ^ 48)) h
  have h2 := State.regs_wf_setReg b ix s.stampSec h1
  have h3 := State.regs_wf_setReg c ix s.stampNs h2
  exact (State.reg_setReg_ne _ h3 hd).trans <| (State.reg_setReg_ne _ h2 hc).trans <|
    (State.reg_setReg_ne _ h1 hb).trans (State.reg_setReg_ne _ h ha)

/-- The record that a block's fault leaves (R461). -/
theorem State.blockRecord_rec {s : State} (b : Nat) (f : FaultIn) (h : Map.wf regDefault s.regs = true) :
    Map.wf regDefault (s.blockRecord b f).regs = true ∧
      (s.blockRecord b f).reg .fltRec [b] = recUpdate false f (s.reg .fltRec [b]) := by
  unfold State.blockRecord
  extract_lets old s1 s2
  have h2 : Map.wf regDefault s2.regs = true := State.regs_wf_setReg _ _ _ h
  have hr : s2.reg .fltRec [b] = recUpdate false f old := State.reg_setReg_self _ _ _ h
  split
  · have h3 := State.capture_wf .fltAddr .fltTsec .fltTns .fltInfo [b] f h2
    refine ⟨State.regs_wf_setReg _ _ _ h3, ?_⟩
    rw [State.setRf_eq, State.reg_setReg_ne _ h3 (by simp [Reg.addr, Reg.row]),
      State.reg_capture_ne f h2 (by simp [Reg.addr, Reg.row]) (by simp [Reg.addr, Reg.row]) (by simp [Reg.addr, Reg.row])
        (by simp [Reg.addr, Reg.row]), hr]
  · exact ⟨h2, hr⟩

/-- A partition's record leaves the blocks' (R467). -/
theorem State.partRecord_rec {s : State} (p lb : Nat) (f : FaultIn) {b : Nat} (hb : b < 128)
    (h : Map.wf regDefault s.regs = true) :
    Map.wf regDefault (s.partRecord p lb f).regs = true ∧ (s.partRecord p lb f).reg .fltRec [b] = s.reg .fltRec [b] := by
  unfold State.partRecord
  split
  · exact ⟨h, rfl⟩
  · extract_lets old s1 s2
    have h2 : Map.wf regDefault s2.regs = true := State.regs_wf_setReg _ _ _ h
    have hr : s2.reg .fltRec [b] = s.reg .fltRec [b] :=
      State.reg_setReg_ne _ h (by simp [Reg.addr, Reg.row]; omega)
    split
    · refine ⟨State.capture_wf _ _ _ _ _ _ h2, ?_⟩
      rw [State.reg_capture_ne f h2, hr] <;> simp [Reg.addr, Reg.row] <;> omega
    · exact ⟨h2, hr⟩

theorem State.mapThr_regs (s : State) (f : Nat → Thread → Thread) : (s.mapThr f).regs = s.regs := by
  obtain ⟨th, h⟩ := s.mapThr_frame f
  rw [h]

theorem State.fatalLink_regs (s : State) : s.fatalLink.regs = s.regs := by
  unfold State.fatalLink
  extract_lets s3
  have h3 : s3.regs = s.regs := by unfold s3; split <;> rfl
  rw [← h3]
  change State.regs (if _ then _ else _) = _
  split <;> rfl

theorem State.fatalLog_regs (s : State) : s.fatalLog.regs = s.regs := rfl

/-- Of the registers the FATAL reaction writes FLT.FATAL alone (R471). -/
theorem State.fatalReaction_rec {s : State} (a : Nat) {b : Nat} (hb : b < 128) (h : Map.wf regDefault s.regs = true) :
    Map.wf regDefault (s.fatalReaction a).regs = true ∧ (s.fatalReaction a).reg .fltRec [b] = s.reg .fltRec [b] := by
  rw [State.fatalReaction_eq]
  split
  · exact ⟨h, rfl⟩
  · have hregs : (s.fatalLatch a).fatalLink.fatalStop.fatalLog.regs = (s.fatalLatch a).regs := by
      rw [State.fatalLog_regs, State.fatalStop, State.mapThr_regs, State.fatalLink_regs]
    have hne : Reg.fltRec.addr [b] ≠ Reg.fltFatal.addr [] := by simp [Reg.addr, Reg.row]; omega
    rw [State.reg, hregs]
    exact ⟨Map.wf_set _ _ h, Map.get_set_ne _ h hne⟩

/-- After a fault of a block its record is not empty, and the registers are canonical. -/
theorem State.faultAt_rec {s : State} {b : Nat} (lb : Nat) (f : FaultIn) (hb : b < 128)
    (h : Map.wf regDefault s.regs = true) :
    Map.wf regDefault (s.faultAt b lb f).regs = true ∧ (s.faultAt b lb f).rf .fltRec [b] 61 60 ≠ 0 := by
  obtain ⟨h1, hr1⟩ := State.blockRecord_rec b f h
  obtain ⟨h2, hr2⟩ := State.partRecord_rec f.pid lb f hb h1
  have hr : ((s.blockRecord b f).partRecord f.pid lb f).rf .fltRec [b] 61 60 ≠ 0 := by
    rw [State.rf, hr2, hr1]
    exact recUpdate_state _ _ _
  unfold State.faultAt
  extract_lets s1
  split
  · obtain ⟨h3, hr3⟩ := State.fatalReaction_rec b hb h2
    exact ⟨h3, by rwa [State.rf, hr3]⟩
  · exact ⟨h2, hr⟩

end Sys2Proof.Machine
end

/-! ## Steps -/

section
open Sys2Proof Sys2Proof.Machine

/-- Every arm of `exec` answers a next state: one case per command. -/
theorem exec_completes (c : Instr) (s : State) : Completes c s := by
  cases c <;> exact ⟨_, rfl⟩

/-- Settles O1: the queue's constructor decides what a step does. -/
theorem stepRunsFront : Obligations.StepRunsFront := by
  unfold Obligations.StepRunsFront
  constructor
  · intro c s
    rfl
  · intro s hempty
    simp only [step, hempty]

/-- Settles O2, by cases on the command. -/
theorem everyCommandCompletes : Obligations.EveryCommandCompletes := exec_completes

end

/-! ## Adapter DMA (R308, R461, R471) -/

section
namespace Sys2Proof.Machine

/-- The module right after start-up, with the link of port 0 up; TRL.CTXBASE.EN is 0, so it refuses every request. -/
def portUp : State := State.reset.setRf .trlPortst [0] 63 63 1

/-- A request for the byte at 0x100000: a write of one byte, or a read. -/
def byteRequest (data : Option (List Byte)) : DmaReq := ⟨0, 0, none, 0x100000, 1, data⟩

/-- The same module after one refused write: the port's record is open, with class contained. -/
def refusedWrite : State := portUp.dmaAny (byteRequest (some [0]))

/-- A module whose transmitters are idle answers no read (R20, R471). -/
theorem State.answer_of_idle {s : State} (r : DmaReq) (a : DmaAns) (h : s.egressIdle = true) : s.answer r a = s := by
  simp [State.answer, State.transmits, h]

/-- A request that is not malformed is refused before TRL.CTXBASE.EN (R308). -/
theorem State.dmaAny_off {s : State} {r : DmaReq} (hl : s.linkOn r.port = true) (hn : (r.len == 0) = false)
    (hi : s.egressIdle = false) (hd : s.dmaLong r = false) (hoff : s.trlOn = false) : s.dmaAny r = s.dmaRefuse r 0 := by
  simp [State.dmaAny, hl, hn, hi, hd, hoff]

/-- The refusal of a read of DRAM: record 0x0605 at the port, then the answer (R308). -/
theorem State.dmaRefuse_read {s : State} {r : DmaReq} (p : Nat) (hdata : r.data = none) (hregs : r.onRegs = false)
    (hdram : s.isDram r.addr = true) :
    s.dmaRefuse r p = (s.fault (blkPort r.port) clsContained 0x0605 p r.addr).answer r .refused := by
  simp [State.dmaRefuse, hdata, hregs, hdram]

/-- A second contained fault of the port escalates to FATAL, which idles the egress (R461, R471). -/
theorem refusedWrite_fault_idle :
    (refusedWrite.fault (blkPort 0) clsContained 0x0605 0 0x100000).egressIdle = true := by decide

/-- The read after it is recorded and gets no answer. -/
theorem refusedWrite_read :
    refusedWrite.dmaAny (byteRequest none) = refusedWrite.fault (blkPort 0) clsContained 0x0605 0 0x100000 := by
  rw [State.dmaAny_off (by decide) (by decide) (by decide) (by decide) (by decide),
    State.dmaRefuse_read 0 rfl (by decide) (by decide)]
  exact State.answer_of_idle _ _ refusedWrite_fault_idle

end Sys2Proof.Machine
end

section
open Sys2Proof Sys2Proof.Machine

/-- Refutes O49: the second refused request at a port escalates the port's record to FATAL, whose reaction idles the
egress, so that the refused read is not answered. -/
theorem not_adapterAccesses : ¬ Obligations.AdapterAccesses := by
  unfold Obligations.AdapterAccesses
  intro h
  obtain ⟨hreq, -⟩ := h
  obtain ⟨hread, -⟩ := hreq 0 0 none 0x100000 1 [0] refusedWrite (by decide) (by decide) (by decide) (by decide) (by decide)
    (by decide) (by decide) (by decide) (by decide)
  obtain ⟨u, hu, ⟨-, hanswer⟩, -⟩ := hread (.inr (.inl (by decide)))
  have hu' : refusedWrite.dmaAny (byteRequest none) = u := Host.Outcome.next.inj hu
  have hports : u.ports = refusedWrite.ports := by
    rw [← hu', refusedWrite_read]
    exact (FaultFrame.fault _ _ _ _ _ _ _).ports
  have hsame : (u.port 0).answers = (refusedWrite.port 0).answers := by rw [State.port, State.port, hports]
  have hone := hanswer (by decide)
  have : (refusedWrite.port 0).answers = (refusedWrite.port 0).answers ++ [.refused] := hsame.symm.trans hone
  simp at this

end

/-! ## The System Time Counter, PTP and PPS (R538 to R545) -/

section
namespace Sys2Proof.Machine

/-! ### The counter -/

theorem Stc.add_ns_lt (t : Stc) (n : Nat) : (t.add n).ns < 10 ^ 9 := Nat.mod_lt _ (by decide)
theorem Stc.add_frac_lt (t : Stc) (n : Nat) : (t.add n).frac < 2 ^ 40 := Nat.mod_lt _ (by decide)

/-- The counter moves by what is added, carries included (R539). -/
theorem Stc.add_total (t : Stc) (n : Nat) :
    (t.add n).nanos * 2 ^ 40 + (t.add n).frac = t.nanos * 2 ^ 40 + t.frac + n := by
  simp only [Stc.add, Stc.nanos]
  omega

/-- A tick moves the counter by the increment, takes its time off PPS_OUT and counts for a watchdog that runs (R497);
memory stands. -/
theorem State.stcTick_spec (s : State) :
    s.stcTick.stc = s.stc.add s.cold.ptp.inc ∧ s.stcTick.mem = s.mem ∧
    s.stcTick.pins.ppsOut = s.pins.ppsOut - ((s.stc.add s.cold.ptp.inc).nanos - s.stc.nanos) ∧
    s.stcTick.power.wdog = s.power.wdog + if s.rf .rstWdog [] 63 63 = 1 ∧ s.power.state = .run then 1 else 0 := by
  have hruns : (s.rf .rstWdog [] 63 63 = 1 && s.power.state == .run) = true ↔
      s.rf .rstWdog [] 63 63 = 1 ∧ s.power.state = .run := by simp
  unfold State.stcTick
  extract_lets t pins s1 s2 power
  have h2 : s2.stc = t ∧ s2.mem = s.mem ∧ s2.pins.ppsOut = s.pins.ppsOut - (t.nanos - s.stc.nanos) ∧
      s2.power.wdog = s.power.wdog := by
    unfold s2
    split <;> exact ⟨rfl, rfl, rfl, rfl⟩
  obtain ⟨hstc, hmem, hpps, hwdog⟩ := h2
  by_cases hw : s.rf .rstWdog [] 63 63 = 1 ∧ s.power.state = .run
  · rw [if_pos (hruns.mpr hw), if_pos hw]
    exact ⟨hstc, hmem, hpps, congrArg (· + 1) hwdog⟩
  · rw [if_neg (mt hruns.mp hw), if_neg hw]
    exact ⟨hstc, hmem, hpps, hwdog⟩

/-! ### Steering (R539, R542, R544) -/

/-- What an offset `o` measured in the state `x` makes of it. -/
def Steered (u x : State) (o : Int) : Prop :=
  let g := if o.natAbs ≤ 100 then x.cold.ptp.good + 1 else 0
  u.cold.ptp.offset = o ∧ u.cold.ptp.good = g ∧ u.cold.ptp.sync = (if x.cold.ptp.sync = 2 ∨ 16 ≤ g then 2 else 1) ∧
    (o < -1000000 → u.stc = x.stc.add (o.natAbs * 2 ^ 40) ∧ u.cold.ptp.inc = x.cold.ptp.inc) ∧
    (-1000000 ≤ o → u.stc = x.stc ∧ incNominal - incNominal / 2000 ≤ u.cold.ptp.inc ∧
      u.cold.ptp.inc ≤ incNominal + incNominal / 2000)

/-- The servo sets the increment within 500 ppm, by a free value; the clock and the other time functions stand. -/
theorem State.servo_spec (s : State) :
    s.servo.stc = s.stc ∧ s.servo.cold.ptp.offset = s.cold.ptp.offset ∧ s.servo.cold.ptp.good = s.cold.ptp.good ∧
      s.servo.cold.ptp.sync = s.cold.ptp.sync ∧ incNominal - incNominal / 2000 ≤ s.servo.cold.ptp.inc ∧
      s.servo.cold.ptp.inc ≤ incNominal + incNominal / 2000 := by
  refine ⟨rfl, rfl, rfl, rfl, Nat.le_add_right _ _, ?_⟩
  have hinc : s.servo.cold.ptp.inc = incNominal - incNominal / 2000 + s.draw.1.toNat % (2 * (incNominal / 2000) + 1) := rfl
  have hmod := Nat.mod_lt s.draw.1.toNat (show 0 < 2 * (incNominal / 2000) + 1 by omega)
  have hdiv : incNominal / 2000 ≤ incNominal := Nat.div_le_self _ _
  omega

theorem State.steer_steered (x : State) (o : Int) : Steered (x.steer o) x o := by
  unfold State.steer
  extract_lets good st s1
  by_cases ho : o < -1000000
  · rw [if_pos ho]
    exact ⟨rfl, rfl, rfl, fun _ => ⟨rfl, rfl⟩, fun h => absurd h (by omega)⟩
  · rw [if_neg ho]
    obtain ⟨hstc, hoffset, hgood, hsync, hlo, hhi⟩ := s1.servo_spec
    exact ⟨hoffset, hgood, hsync, fun h => absurd h ho, fun _ => ⟨hstc, hlo, hhi⟩⟩

/-- From `x` to `u` memory stands, and of the time functions the Sync's times, the source and the count of missing edges. -/
def TimesKept (u x : State) : Prop :=
  u.mem = x.mem ∧ u.cold.ptp.t1 = x.cold.ptp.t1 ∧ u.cold.ptp.t2 = x.cold.ptp.t2 ∧
    u.cold.ptp.source = x.cold.ptp.source ∧ u.cold.ptp.ppsMiss = x.cold.ptp.ppsMiss

theorem State.servo_keeps (s : State) : TimesKept s.servo s := ⟨rfl, rfl, rfl, rfl, rfl⟩

/-- Steering keeps what it does not name. -/
theorem State.steer_keeps (x : State) (o : Int) : TimesKept (x.steer o) x := by
  unfold State.steer
  extract_lets good st s1
  have h1 : TimesKept s1 x := ⟨rfl, rfl, rfl, rfl, rfl⟩
  clear_value s1
  obtain ⟨hmem, ht1, ht2, hsource, hmiss⟩ := h1
  split
  · exact ⟨hmem, ht1, ht2, hsource, hmiss⟩
  · obtain ⟨vmem, vt1, vt2, vsource, vmiss⟩ := s1.servo_keeps
    exact ⟨vmem.trans hmem, vt1.trans ht1, vt2.trans ht2, vsource.trans hsource, vmiss.trans hmiss⟩

/-- The Time Source in force after a sync event is the object's; what else the event changes is LOCKING (R544). -/
theorem State.newSource_frame (s : State) : ∃ y g m, s.newSource = { s with cold := { s.cold with
    ptp := { s.cold.ptp with source := s.odv 0x040001, sync := y, good := g, ppsMiss := m } } } := by
  unfold State.newSource
  split
  · next h => exact ⟨s.cold.ptp.sync, s.cold.ptp.good, s.cold.ptp.ppsMiss, by rw [h]⟩
  · exact ⟨_, _, _, rfl⟩

section
variable (s : State)

theorem State.newSource_mem : s.newSource.mem = s.mem := by obtain ⟨_, _, _, h⟩ := s.newSource_frame; rw [h]
theorem State.newSource_stc : s.newSource.stc = s.stc := by obtain ⟨_, _, _, h⟩ := s.newSource_frame; rw [h]
theorem State.newSource_source : s.newSource.cold.ptp.source = s.odv 0x040001 := by
  obtain ⟨_, _, _, h⟩ := s.newSource_frame; rw [h]
theorem State.newSource_delay : s.newSource.cold.ptp.delay = s.cold.ptp.delay := by
  obtain ⟨_, _, _, h⟩ := s.newSource_frame; rw [h]
theorem State.newSource_masters : s.newSource.cold.ptp.masters = s.cold.ptp.masters := by
  obtain ⟨_, _, _, h⟩ := s.newSource_frame; rw [h]
theorem State.newSource_ppsIgnored : s.newSource.cold.ptp.ppsIgnored = s.cold.ptp.ppsIgnored := by
  obtain ⟨_, _, _, h⟩ := s.newSource_frame; rw [h]

end

/-- The best master depends on the masters alone. -/
theorem Ptp.best_congr {p q : Ptp} (h : p.masters = q.masters) : p.best = q.best := by simp only [Ptp.best, h]

/-! ### PTP (R541) -/

/-- A Sync of another sender than the chosen master does nothing. -/
theorem exec_sync_other {s : State} {port : Bool} {source : BitVec 80} {dom : BitVec 8} (t : BitVec 80)
    (h : s.fromMaster port source dom = false) : exec (.sync port source dom t) s = .next s := by
  change execSync port source dom t s = _
  simp [execSync, h]

/-- A Sync of the chosen master keeps its two times, and steers where PTP is the source. -/
theorem exec_sync_master {s : State} {port : Bool} {source : BitVec 80} {dom : BitVec 8} (t : BitVec 80)
    (h : s.fromMaster port source dom = true) :
    ∃ u, exec (.sync port source dom t) s = .next u ∧ u.cold.ptp.t1 = ptpNanos t ∧ u.cold.ptp.t2 = s.stc.nanos ∧
      u.cold.ptp.source = s.odv 0x040001 ∧ u.mem = s.mem ∧
      (s.odv 0x040001 = 1 → Steered u s.newSource (s.stc.nanos - ptpNanos t - s.cold.ptp.delay)) ∧
      (s.odv 0x040001 ≠ 1 → u.stc = s.stc) := by
  let s1 := s.newSource.modPtp fun p => { p with t1 := ptpNanos t, t2 := s.stc.nanos }
  have hsource : s1.cold.ptp.source = s.odv 0x040001 := s.newSource_source
  have hdelay : s1.cold.ptp.delay = s.cold.ptp.delay := s.newSource_delay
  have hmem : s1.mem = s.mem := s.newSource_mem
  have hexec : exec (.sync port source dom t) s = .next (if s1.cold.ptp.source = 1 then
      s1.steer (s.stc.nanos - ptpNanos t - s1.cold.ptp.delay) else s1) := by
    change execSync port source dom t s = _
    simp only [execSync, h, Bool.not_true, if_neg Bool.false_ne_true]
    rfl
  refine ⟨_, hexec, ?_⟩
  rw [hsource, hdelay]
  by_cases h1 : s.odv 0x040001 = 1
  · rw [if_pos h1]
    obtain ⟨hsm, ht1, ht2, hs, -⟩ := s1.steer_keeps (s.stc.nanos - ptpNanos t - s.cold.ptp.delay)
    exact ⟨ht1, ht2, hs.trans hsource, hsm.trans hmem, fun _ => s1.steer_steered _, fun hn => absurd h1 hn⟩
  · rw [if_neg h1]
    exact ⟨rfl, rfl, hsource, hmem, fun hp => absurd hp h1, fun _ => s.newSource_stc⟩

/-- A Delay_Resp is of use only for the Delay_Req outstanding, from the chosen master. -/
theorem exec_delayResp_other {s : State} {port : Bool} {source : BitVec 80} {dom : BitVec 8} (seq : BitVec 16) (t : BitVec 80)
    (h : s.fromMaster port source dom = false ∨ s.cold.ptp.t3 = none) :
    exec (.delayResp port source dom seq t) s = .next s := by
  change execDelayResp port source dom seq t s = _
  unfold execDelayResp
  cases h3 : s.cold.ptp.t3 with
  | none => rfl
  | some k => simp [h.resolve_right (by simp [h3])]

theorem exec_delayResp_master {s : State} {port : Bool} {source : BitVec 80} {dom : BitVec 8} (seq : BitVec 16) (t : BitVec 80)
    {k : Nat} {t3 : Int} (h3 : s.cold.ptp.t3 = some (k, t3)) (h : s.fromMaster port source dom = true) :
    exec (.delayResp port source dom seq t) s = .next (if k = seq.toNat then s.modPtp fun p =>
      { p with delay := ((p.t2 - p.t1) + (ptpNanos t - t3)) / 2, t3 := none } else s) := by
  change execDelayResp port source dom seq t s = _
  by_cases hk : k = seq.toNat <;> simp [execDelayResp, h3, h, hk]

/-- Announce keeps one entry for each master, its latest. -/
theorem exec_announce {s : State} {port : Bool} {source : BitVec 80} {dom prio1 cls acc : BitVec 8} {var : BitVec 16}
    {prio2 : BitVec 8} {gm : W64} {steps utc : BitVec 16} (m : Master)
    (hm : m = ⟨port.toNat, source.toNat, prio1.toNat, cls.toNat, acc.toNat, var.toNat, prio2.toNat, gm.toNat, steps.toNat, utc.toNat⟩)
    (h : s.power.aux = true ∧ dom.toNat = s.odv 0x040002) :
    exec (.announce port source dom prio1 cls acc var prio2 gm steps utc) s = .next (s.modPtp fun p => { p with
      masters := (p.masters.filter fun x => !(x.port == m.port && x.source == m.source)) ++ [m] }) := by
  change execAnnounce port source dom prio1 cls acc var prio2 gm steps utc s = _
  simp [execAnnounce, h.1, h.2, hm]

theorem exec_announce_unheard {s : State} {port : Bool} {source : BitVec 80} {dom prio1 cls acc : BitVec 8} {var : BitVec 16}
    {prio2 : BitVec 8} {gm : W64} {steps utc : BitVec 16} (h : ¬ (s.power.aux = true ∧ dom.toNat = s.odv 0x040002)) :
    exec (.announce port source dom prio1 cls acc var prio2 gm steps utc) s = .next s := by
  change execAnnounce port source dom prio1 cls acc var prio2 gm steps utc s = _
  have hc : (!s.power.aux || decide (dom.toNat ≠ s.odv 0x040002)) = true := by
    by_cases ha : s.power.aux = true
    · rw [ha, Bool.not_true, Bool.false_or]
      exact decide_eq_true fun hd => h ⟨ha, hd⟩
    · simp [ha]
  rw [execAnnounce, if_pos hc]

/-- The entries after an Announce of `m`. -/
theorem mem_announced {l : List Master} {m x : Master} :
    x ∈ (l.filter fun x => !(x.port == m.port && x.source == m.source)) ++ [m] ↔
      x = m ∨ x ∈ l ∧ (x.port ≠ m.port ∨ x.source ≠ m.source) := by
  simp only [List.mem_append, List.mem_filter, List.mem_singleton, Bool.not_eq_true', Bool.and_eq_false_iff, beq_eq_false_iff_ne]
  exact or_comm

/-! ### Losing the source (R541 to R543) -/

/-- HOLDOVER from LOCKING or LOCKED, with record 0x0D02 in Coldframe's block. -/
theorem State.toHoldover_spec {s : State} (hy : s.cold.ptp.sync = 1 ∨ s.cold.ptp.sync = 2)
    (hw : Map.wf regDefault s.regs = true) :
    s.toHoldover.cold.ptp.sync = 3 ∧ s.toHoldover.mem = s.mem ∧ s.toHoldover.rf .fltRec [blkColdframe] 61 60 ≠ 0 ∧
      s.toHoldover.stc = s.stc := by
  have hframe := FaultFrame.fault (s.modPtp Ptp.holdover) blkColdframe clsCorrected 0x0D02 0 0 0
  obtain ⟨-, hrec⟩ := State.faultAt_rec (s := s.modPtp Ptp.holdover) (b := blkColdframe) blkColdframe
    ⟨clsCorrected, 0x0D02, 0, 0, 0, none⟩ (by decide) hw
  rw [State.toHoldover, if_pos hy]
  exact ⟨by rw [hframe.cold]; rfl, hframe.mem, hrec, hframe.stc⟩

/-- In FREE and in HOLDOVER there is nothing to lose. -/
theorem State.toHoldover_of_not {s : State} (hy : s.cold.ptp.sync ≠ 1 ∧ s.cold.ptp.sync ≠ 2) : s.toHoldover = s := by
  rw [State.toHoldover, if_neg (by omega)]

/-- A Delay_Req goes to the chosen master with the next number, and its time is kept. -/
theorem exec_delayRequest {s : State} {m : Master} (hb : s.cold.ptp.best = some m) (ha : s.power.aux = true)
    (hs : s.cold.ptp.source = 1) : exec .delayRequest s = .next { s with cold := { s.cold with
      ptp := { s.cold.ptp with
        seq := (s.cold.ptp.seq + 1) % 2 ^ 16, t3 := some ((s.cold.ptp.seq + 1) % 2 ^ 16, (s.stc.nanos : Int)) },
      sent := s.cold.sent ++ [.delayReq m.port ((s.cold.ptp.seq + 1) % 2 ^ 16)] } } := by
  change execDelayRequest s = _
  have hc : (!s.power.aux || s.cold.ptp.source != 1) = false := by simp [ha, hs]
  simp only [execDelayRequest, hb, hc, if_neg Bool.false_ne_true]
  rfl

theorem exec_delayRequest_none {s : State} (h : s.cold.ptp.best = none ∨ s.power.aux = false ∨ s.cold.ptp.source ≠ 1) :
    exec .delayRequest s = .next s := by
  change execDelayRequest s = _
  unfold execDelayRequest
  cases hb : s.cold.ptp.best with
  | none => rfl
  | some m =>
    have hc : (!s.power.aux || s.cold.ptp.source != 1) = true := by
      rcases h with hn | ha | hs
      · simp [hb] at hn
      · simp [ha]
      · simp [hs]
    simp only [hc, if_true]

/-- The state that an announce or Sync timeout judges: without the best master where its Announces stayed away. -/
def State.unannounced (s : State) (announce : Bool) : State :=
  if announce then s.modPtp fun p => { p with masters := p.masters.filter fun m => some m != s.cold.ptp.best } else s

theorem State.unannounced_frame (s : State) (announce : Bool) : (s.unannounced announce).regs = s.regs ∧
    (s.unannounced announce).mem = s.mem ∧ (s.unannounced announce).stc = s.stc ∧
    (s.unannounced announce).cold.ptp.sync = s.cold.ptp.sync := by
  cases announce <;> exact ⟨rfl, rfl, rfl, rfl⟩

theorem exec_announceReceiptTimeout (s : State) (announce : Bool) : exec (.announceReceiptTimeout announce) s = .next
    (if s.power.aux && s.cold.ptp.source == 1 then (s.unannounced announce).toHoldover else s.unannounced announce) := rfl

/-- A timeout while PTP steers leads to HOLDOVER. -/
theorem exec_announceReceiptTimeout_lost {s : State} (announce : Bool) (ha : s.power.aux = true) (hs : s.cold.ptp.source = 1)
    (hy : s.cold.ptp.sync = 1 ∨ s.cold.ptp.sync = 2) (hw : Map.wf regDefault s.regs = true) :
    ∃ u, exec (.announceReceiptTimeout announce) s = .next u ∧ u.cold.ptp.sync = 3 ∧ u.mem = s.mem ∧
      u.rf .fltRec [blkColdframe] 61 60 ≠ 0 ∧ u.stc = s.stc := by
  obtain ⟨hregs, hmem, hstc, hsync⟩ := s.unannounced_frame announce
  obtain ⟨h3, hm, hrec, ht⟩ := State.toHoldover_spec (s := s.unannounced announce) (by rwa [hsync]) (by rwa [hregs])
  rw [exec_announceReceiptTimeout, ha, hs]
  exact ⟨_, rfl, h3, hm.trans hmem, hrec, ht.trans hstc⟩

/-- Where PTP does not steer, a timeout at most takes the master out. -/
theorem exec_announceReceiptTimeout_idle {s : State} (announce : Bool)
    (h : s.power.aux = false ∨ s.cold.ptp.source ≠ 1 ∨ (s.cold.ptp.sync ≠ 1 ∧ s.cold.ptp.sync ≠ 2)) :
    exec (.announceReceiptTimeout announce) s = .next (s.unannounced announce) := by
  obtain ⟨-, -, -, hsync⟩ := s.unannounced_frame announce
  rw [exec_announceReceiptTimeout]
  congr 1
  split
  · next hon =>
    simp only [Bool.and_eq_true, beq_iff_eq] at hon
    obtain ⟨ha, hs⟩ := hon
    rcases h with h | h | h
    · rw [ha] at h; cases h
    · exact absurd hs h
    · exact State.toHoldover_of_not (by rwa [hsync])
  · rfl

/-- The limit ends HOLDOVER, and nothing else. -/
theorem exec_holdoverLimitExpiry {s : State} (h : s.cold.ptp.sync = 3) :
    exec .holdoverLimitExpiry s = .next (s.modPtp fun p => { p with sync := 0, good := 0 }) := by
  change execHoldoverLimitExpiry s = _
  rw [execHoldoverLimitExpiry, if_pos h]

theorem exec_holdoverLimitExpiry_other {s : State} (h : s.cold.ptp.sync ≠ 3) : exec .holdoverLimitExpiry s = .next s := by
  change execHoldoverLimitExpiry s = _
  rw [execHoldoverLimitExpiry, if_neg h]

/-! ### PPS (R543) -/

/-- The state after PPS_IN has gone to a level. -/
def State.ppsLevel (s : State) (high : Bool) : State := { s with pins := { s.pins with ppsIn := high } }

/-- A level that is no rising edge, or that Coldframe cannot see, is only noted. -/
theorem exec_ppsIn_level {s : State} {high : Bool} (h : high = false ∨ s.pins.ppsIn = true ∨ s.power.aux = false) :
    exec (.ppsIn high) s = .next (s.ppsLevel high) := by
  change execPpsIn high s = _
  have hc : (!high || s.pins.ppsIn || !s.power.aux) = true := by
    rcases h with h | h | h <;> simp [h]
  simp only [execPpsIn, hc, if_true]
  rfl

/-- A rising edge: the source of the object takes effect, and where it is PPS the edge steers unless it is far off. -/
theorem exec_ppsIn_edge {s : State} (hp : s.pins.ppsIn = false) (ha : s.power.aux = true) :
    let x := (s.ppsLevel true).newSource
    exec (.ppsIn true) s = .next (
      if s.odv 0x040001 ≠ 2 then x
      else if 2 ≤ x.cold.ptp.sync ∧ 100000 < x.ppsPhase.natAbs then x.modPtp fun p => { p with ppsIgnored := p.ppsIgnored + 1 }
      else (x.modPtp fun p => { p with ppsMiss := 0 }).ppsSeconds.steer x.ppsPhase) := by
  intro x
  have hsource : x.cold.ptp.source = s.odv 0x040001 := (s.ppsLevel true).newSource_source
  change execPpsIn true s = _
  have hc : (!true || s.pins.ppsIn || !s.power.aux) = false := by simp [hp, ha]
  simp only [execPpsIn, hc, if_neg Bool.false_ne_true, ← hsource, bne_iff_ne]
  rfl

/-- Without a visible master the seconds stand. -/
theorem State.ppsSeconds_of_none {s : State} (h : s.cold.ptp.best = none) : s.ppsSeconds = s := by
  simp [State.ppsSeconds, h]

section
variable {s : State}

/-- Where the object names another source, the edge is only the sync event of that source. -/
theorem exec_ppsIn_other (hp : s.pins.ppsIn = false) (ha : s.power.aux = true) (h2 : s.odv 0x040001 ≠ 2) :
    exec (.ppsIn true) s = .next (s.ppsLevel true).newSource := by
  rw [exec_ppsIn_edge hp ha, if_pos h2]

/-- An edge far off the boundary is ignored and counted while the clock is locked or held. -/
theorem exec_ppsIn_far (hp : s.pins.ppsIn = false) (ha : s.power.aux = true) (h2 : s.odv 0x040001 = 2)
    (hfar : 2 ≤ (s.ppsLevel true).newSource.cold.ptp.sync ∧ 100000 < (s.ppsLevel true).newSource.ppsPhase.natAbs) :
    ∃ u, exec (.ppsIn true) s = .next u ∧ u.cold.ptp.ppsIgnored = s.cold.ptp.ppsIgnored + 1 ∧
      u.cold.ptp.sync = (s.ppsLevel true).newSource.cold.ptp.sync ∧ u.stc = s.stc := by
  rw [exec_ppsIn_edge hp ha, if_neg (not_not_intro h2), if_pos hfar]
  exact ⟨_, rfl, congrArg (· + 1) (s.ppsLevel true).newSource_ppsIgnored, rfl, (s.ppsLevel true).newSource_stc⟩

/-- Any other edge steers as a Sync does; without a visible master the seconds stand. -/
theorem exec_ppsIn_near (hp : s.pins.ppsIn = false) (ha : s.power.aux = true) (h2 : s.odv 0x040001 = 2)
    (hnear : ¬ (2 ≤ (s.ppsLevel true).newSource.cold.ptp.sync ∧ 100000 < (s.ppsLevel true).newSource.ppsPhase.natAbs))
    (hbest : s.cold.ptp.best = none) :
    ∃ u, exec (.ppsIn true) s = .next u ∧ u.cold.ptp.ppsMiss = 0 ∧
      Steered u (s.ppsLevel true).newSource (s.ppsLevel true).newSource.ppsPhase := by
  let x := (s.ppsLevel true).newSource
  let y := x.modPtp fun p => { p with ppsMiss := 0 }
  have hy : y.cold.ptp.best = none := (Ptp.best_congr (s.ppsLevel true).newSource_masters).trans hbest
  obtain ⟨-, -, -, -, hmiss⟩ := y.steer_keeps x.ppsPhase
  rw [exec_ppsIn_edge hp ha, if_neg (not_not_intro h2), if_neg hnear, State.ppsSeconds_of_none hy]
  exact ⟨_, rfl, hmiss, y.steer_steered x.ppsPhase⟩

end

/-- A missing edge is counted; the third in a row leads to HOLDOVER. -/
theorem exec_ppsInMissing_counts {s : State} (hs : s.cold.ptp.source = 2) (ha : s.power.aux = true) (hm : s.cold.ptp.ppsMiss < 2) :
    exec .ppsInMissing s = .next (s.modPtp fun p => { p with ppsMiss := p.ppsMiss + 1 }) := by
  change execPpsInMissing s = _
  have hc : (s.cold.ptp.source != 2 || !s.power.aux) = false := by simp [hs, ha]
  have h3 : ¬ 3 ≤ (s.modPtp fun p => { p with ppsMiss := p.ppsMiss + 1 }).cold.ptp.ppsMiss := by
    change ¬ 3 ≤ s.cold.ptp.ppsMiss + 1
    omega
  simp only [execPpsInMissing, hc, if_neg Bool.false_ne_true, if_neg h3]

theorem exec_ppsInMissing_lost {s : State} (hs : s.cold.ptp.source = 2) (ha : s.power.aux = true) (hm : 2 ≤ s.cold.ptp.ppsMiss)
    (hy : s.cold.ptp.sync = 1 ∨ s.cold.ptp.sync = 2) (hw : Map.wf regDefault s.regs = true) :
    ∃ u, exec .ppsInMissing s = .next u ∧ u.cold.ptp.sync = 3 ∧ u.mem = s.mem ∧
      u.rf .fltRec [blkColdframe] 61 60 ≠ 0 ∧ u.stc = s.stc := by
  have hc : (s.cold.ptp.source != 2 || !s.power.aux) = false := by simp [hs, ha]
  have h3 : 3 ≤ (s.modPtp fun p => { p with ppsMiss := p.ppsMiss + 1 }).cold.ptp.ppsMiss := by
    change 3 ≤ s.cold.ptp.ppsMiss + 1
    omega
  have hexec : exec .ppsInMissing s = .next (s.modPtp fun p => { p with ppsMiss := p.ppsMiss + 1 }).toHoldover := by
    change execPpsInMissing s = _
    simp only [execPpsInMissing, hc, if_neg Bool.false_ne_true, if_pos h3]
  exact ⟨_, hexec, State.toHoldover_spec (s := s.modPtp fun p => { p with ppsMiss := p.ppsMiss + 1 }) hy hw⟩

theorem exec_ppsInMissing_idle {s : State} (h : s.cold.ptp.source ≠ 2 ∨ s.power.aux = false) :
    exec .ppsInMissing s = .next s := by
  change execPpsInMissing s = _
  have hc : (s.cold.ptp.source != 2 || !s.power.aux) = true := by
    rcases h with h | h <;> simp [h]
  simp only [execPpsInMissing, hc, if_true]

/-- PPS_OUT rises at a second boundary where it is on and the module is neither in reset nor without MAIN. -/
theorem exec_ppsOut (s : State) : exec .ppsOut s = .next (
    if s.odv 0x040007 = 1 ∧ s.power.main = true ∧ s.power.heldReset = false ∧ s.stc.ns * 2 ^ 40 + s.stc.frac < s.cold.ptp.inc
    then { s with pins := { s.pins with ppsOut := 10 ^ 8 } } else s) := by
  change execPpsOut s = _
  simp only [execPpsOut, Bool.and_eq_true, decide_eq_true_eq, Bool.not_eq_true', and_assoc]

/-! ### The alarm (R545) -/

theorem exec_stcAlarm_waits {s : State} (h : s.odv 0x04000A = alarmOff ∨ s.now96 < s.odv 0x04000A) :
    exec .stcAlarm s = .next s := by
  change execStcAlarm s = _
  simp only [execStcAlarm, Bool.or_eq_true, decide_eq_true_eq, h, if_true]

/-- The alarm as it fires: the object off, and its subscriptions marked. -/
def State.alarmed (s : State) : State := (s.setOdv 0x04000A alarmOff).touch 0x04000A

theorem exec_stcAlarm_fires {s : State} (hn : s.odv 0x04000A ≠ alarmOff) (ht : s.odv 0x04000A ≤ s.now96) :
    exec .stcAlarm s = .next (if s.power.state = .sleep then s.alarmed.wake 5 else s.alarmed) := by
  change execStcAlarm s = _
  have hc : ¬ (s.odv 0x04000A = alarmOff ∨ s.now96 < s.odv 0x04000A) := by omega
  simp only [execStcAlarm, Bool.or_eq_true, decide_eq_true_eq, hc, if_false]
  rfl

theorem State.alarmed_frame (s : State) : s.alarmed.od = (s.setOdv 0x04000A alarmOff).od ∧ s.alarmed.power = s.power ∧
    s.alarmed.mem = s.mem := ⟨rfl, rfl, rfl⟩

/-- Every subscription to an object that has changed is marked (R529). -/
theorem State.touch_marks (s : State) (k : Nat) :
    ∀ x ∈ (s.touch k).cold.sessions, ∀ y ∈ x.subs, y.obj = k → y.changed = true := by
  intro x hx y hy hk
  obtain ⟨x0, -, rfl⟩ := List.mem_map.mp hx
  obtain ⟨y0, -, rfl⟩ := List.mem_map.mp hy
  by_cases h0 : y0.obj = k
  · simp [h0]
  · exact absurd hk (by simp [h0])

/-- The registers that MAIN comes up with are canonical. -/
theorem State.keptRegs_wf (s : State) (kind src : Nat) : Map.wf regDefault (s.keptRegs kind src) = true :=
  Map.wf_set _ _ (Map.wf_set _ _ (Map.wf_set _ _ rfl))

/-- A wake from Sleep is a start of the module: dictionary and sessions stand, and PWR.STAT names the cause (R505). -/
theorem State.wake_sleep {s : State} (hs : s.power.state = .sleep) (hm : s.power.main = true) {src : Nat}
    (hsrc : src = 1 ∨ src = 2 ∨ src = 5) :
    (s.wake src).od = s.od ∧ (s.wake src).cold.sessions = s.cold.sessions ∧ (s.wake src).power.state = .run ∧
      (s.wake src).rf .pwrStat [] 59 56 = src := by
  have hd : ¬ (s.power.state = .doze ∧ 1 ≤ src ∧ src ≤ 4) := by simp [hs]
  rw [State.wake, if_neg hd, if_pos ⟨hs, hm, hsrc⟩]
  refine ⟨rfl, rfl, rfl, ?_⟩
  rw [State.rf_setRf_self _ _ _ (s.keptRegs_wf 2 0x0A) (by decide)]
  exact Nat.mod_eq_of_lt (by rcases hsrc with rfl | rfl | rfl <;> decide)

/-- No STC alarm wakes a module that MAIN does not feed. -/
theorem State.wake_unpowered {s : State} (hs : s.power.state = .sleep) (hm : s.power.main ≠ true) (src : Nat) :
    s.wake src = s := by
  simp [State.wake, hs, hm]

end Sys2Proof.Machine
end

/-! ## Stores and loads of module registers (R9 to R11, R226, R382, R513) -/

section
namespace Sys2Proof.Machine

/-! ### Stores -/

/-- A store that is to be mirrored goes to the mirror first (R382). -/
def State.mirrored (s : State) (k : Nat) (v : W64) : State :=
  if s.scn.running = true then s.scnRecord (.cfgw s.scn.epoch k v) else s

theorem State.recEp_open (s : State) : s.recEp s.scn.epoch = s.scn.epoch := by
  unfold State.recEp
  split <;> rfl

section
variable {s : State} {k : Nat}

/-- A store to an unassigned offset goes to the mirror alone. -/
theorem State.regStore_none (v : W64) (h : regAt k = none) : s.regStore k v = s.mirrored k v := by
  simp only [State.regStore, State.recEp_open, h]
  rfl

theorem State.regStore_some (v : W64) {r : Reg} {ix : List Nat} (h : regAt k = some (r, ix)) :
    s.regStore k v = (s.mirrored k v).regApply r ix v := by
  simp only [State.regStore, State.recEp_open, h]
  rfl

end

theorem exec_registerWrite_other {s : State} {addr : BitVec 48} (v : W64)
    (h : ¬ (isModReg addr.toNat = true ∧ addr.toNat % 8 = 0)) : exec (.registerWrite addr v) s = .next s := by
  change execRegisterWrite addr v s = _
  simp only [execRegisterWrite, Bool.and_eq_true, beq_iff_eq, h, if_false]

theorem exec_registerWrite {s : State} {addr : BitVec 48} (v : W64) (h : isModReg addr.toNat = true ∧ addr.toNat % 8 = 0) :
    exec (.registerWrite addr v) s = .next (s.regStore addr.toNat v) := by
  change execRegisterWrite addr v s = _
  simp only [execRegisterWrite, Bool.and_eq_true, beq_iff_eq, h, and_self, if_true]

/-- Registers whose write has no effect but on their fields. -/
def plainRegs : List Reg :=
  [Reg.fltFcfg, .pmcCtl, .pmcCnt, .pmcSctl, .pmcSbuf, .potPfdis, .trlAckto, .trlAbto, .trlRdwin, .scnEpcfg, .scnJcfg, .mcScrub,
    .rstRtycfg]

/-- A write of such a register is field by field; one of PMC.CNT ends its counter's error besides (R486). -/
theorem State.regApply_plain (s : State) {r : Reg} (ix : List Nat) (v : W64) (h : r ∈ plainRegs) :
    ∃ bad, s.regApply r ix v = { s.plainWrite r ix false v with pmcBad := bad } := by
  by_cases hc : r = .pmcCnt
  · subst hc
    exact ⟨_, rfl⟩
  · have he : s.regApply r ix v = s.plainWrite r ix false v := by
      simp only [plainRegs, List.mem_cons, List.not_mem_nil, or_false, hc, false_or] at h
      rcases h with rfl | rfl | rfl | rfl | rfl | rfl | rfl | rfl | rfl | rfl | rfl | rfl <;> rfl
    rw [he]
    generalize s.plainWrite r ix false v = x
    exact ⟨x.pmcBad, rfl⟩

/-! ### Loads -/

/-- The conditions under which a Secure load of a register is performed ahead of its LOAD (R224, R226). -/
def State.loadReady (s : State) (t : ThreadId) (k : Nat) : Prop :=
  ((s.thr t.val).run = .running ∧ (s.thr t.val).cur.pl = 3) ∧ isModReg k = true ∧ k % 8 = 0 ∧ ¬ s.pageBusy t.val (k / 4096) = true

/-- Thread `t` of `u` keeps the value `v` for its LOAD from `k`, with the architected state and the memory of `h`. -/
def KeepsLoad (h u : State) (t : ThreadId) (k : Nat) (v : W64) : Prop :=
  (u.thr t.val).devVal = some (k, v.toNat) ∧ (u.thr t.val).cur = (h.thr t.val).cur ∧ u.mem = h.mem

/-- The guard of `regLoadFor` lets a load through exactly when it is ready. -/
theorem State.loadGuard_iff {s : State} {t : ThreadId} {k : Nat} :
    ((s.thr t.val).run != .running || (s.thr t.val).cur.pl != 3 || !isModReg k || k % 8 != 0 ||
      s.pageBusy t.val (k / 4096)) = false ↔ s.loadReady t k := by
  simp only [Bool.or_eq_false_iff, bne_eq_false_iff_eq, Bool.not_eq_false', State.loadReady, Bool.not_eq_true, and_assoc]

theorem State.regLoadFor_ready {s : State} {t : ThreadId} {k : Nat} (h : s.loadReady t k) :
    s.regLoadFor t k = ((s.hardenThr t.val).regLoad t.val k).2.modThr t.val fun x =>
      { x with devVal := some (k, ((s.hardenThr t.val).regLoad t.val k).1.toNat) } := by
  rw [State.regLoadFor, State.loadGuard_iff.mpr h, if_neg Bool.false_ne_true]

theorem State.regLoadFor_not_ready {s : State} {t : ThreadId} {k : Nat} (h : ¬ s.loadReady t k) : s.regLoadFor t k = s := by
  rw [State.regLoadFor, if_pos (eq_true_of_ne_false (mt State.loadGuard_iff.mp h))]

/-- What a load leaves keeps the value, where it has changed neither the thread's architected state nor memory. -/
theorem KeepsLoad.of_state {h w : State} {t : ThreadId} (k : Nat) (v : W64) (hw : Map.wf Thread.reset w.threads = true)
    (hcur : (w.thr t.val).cur = (h.thr t.val).cur) (hmem : w.mem = h.mem) :
    KeepsLoad h (w.modThr t.val fun x => { x with devVal := some (k, v.toNat) }) t k v := by
  rw [State.modThr_eq]
  unfold KeepsLoad
  rw [State.thr_setThr_self _ _ hw]
  exact ⟨rfl, hcur, hmem⟩

/-- What a read leaves behind concerns the register, Scion, a gate's event and CFM.CHG's queue (R10). -/
theorem State.afterRead_frame (s : State) (r : Reg) (ix : List Nat) :
    (s.afterRead r ix).threads = s.threads ∧ (s.afterRead r ix).mem = s.mem ∧ (s.afterRead r ix).od = s.od := by
  unfold State.afterRead
  extract_lets s1
  have h1 : s1.threads = s.threads ∧ s1.mem = s.mem ∧ s1.od = s.od := ⟨rfl, rfl, rfl⟩
  clear_value s1
  split <;> exact h1

/-- A thread with nothing unhardened and no line written whole has nothing to harden. -/
theorem State.hardenThr_of_clean {s : State} {m : Nat} (hg : (s.thr m).groups = [])
    (hcb : ∀ l ∈ (s.thr m).cb, l.data.length ≠ 256) : s.hardenThr m = s := by
  have hfull : (s.thr m).cb.filter (fun l => l.data.length == 256) = [] := by
    rw [List.filter_eq_nil_iff]
    intro l hl
    simpa using hcb l hl
  rw [State.hardenThr, hg, List.isEmpty_nil, if_pos rfl, State.combFull, hfull, List.foldl_nil]

section
variable {s : State} (m : Nat) {k : Nat}

theorem State.regLoad_none (h : regAt k = none) : s.regLoad m k = (0, s) := by rw [State.regLoad, h]

/-- Apart from the two of the clock, a register is read as `regRead` has it, and leaves what `afterRead` has (R10). -/
theorem State.regLoad_some {r : Reg} {ix : List Nat} (h : regAt k = some (r, ix)) (h1 : r ≠ .cfmStcs) (h2 : r ≠ .cfmStcn) :
    s.regLoad m k = (s.regRead r ix, s.afterRead r ix) := by
  rw [State.regLoad, h]
  split
  · next he => cases he
  · next he => cases he; exact absurd rfl h1
  · next he => cases he; exact absurd rfl h2
  · next he => cases he; rfl

end

/-- The oldest entry of CFM.CHG's queue taken, and an overflow ended (R513). -/
def State.chgTaken (s : State) : State :=
  { s with cold := { s.cold with chg := s.cold.chg.drop 1, chgOvf := false } }

theorem State.chgTaken_chg (s : State) : s.chgTaken.cold.chg = s.cold.chg.drop 1 := rfl
theorem State.chgTaken_scn (s : State) : s.chgTaken.scn = s.scn := rfl
theorem State.chgTaken_regs (s : State) : s.chgTaken.regs = s.regs := rfl

theorem State.afterRead_cfmChg (s : State) (ix : List Nat) : s.afterRead .cfmChg ix =
    (s.setReg .cfmChg ix (fieldsAfterRead Reg.cfmChg.row.fields (s.reg .cfmChg ix))).chgTaken := rfl

/-- A read of PWR.GATEREQ ends the gate's event, and one of SCN.STAT the role's and the count of resends (R469). -/
theorem State.afterRead_events (s : State) (ix : List Nat) : (s.afterRead .pwrGatereq ix).gateEvent = false ∧
    (s.afterRead .scnStat ix).scn.roleEvent = false ∧ (s.afterRead .scnStat ix).scn.resends = 0 := ⟨rfl, rfl, rfl⟩

/-- The nanoseconds latched for a thread that reads CFM.STCS (R546). -/
def State.latchNs (s : State) (m : Nat) : State := s.modThr m fun t => { t with stcn := s.stampNs }

theorem State.regLoad_stcs (s : State) (m : Nat) :
    s.regLoad m (Reg.cfmStcs.addr []) = (s.regRead .cfmStcs [], s.latchNs m) := by
  have h : regAt (Reg.cfmStcs.addr []) = some (.cfmStcs, []) := by decide
  rw [State.regLoad, h]
  rfl

theorem State.thr_modThr_self {s : State} (m : Nat) (f : Thread → Thread) (h : Map.wf Thread.reset s.threads = true) :
    (s.modThr m f).thr m = f (s.thr m) := State.thr_setThr_self m _ h

theorem State.latchNs_thr {s : State} (m : Nat) (h : Map.wf Thread.reset s.threads = true) :
    Map.wf Thread.reset (s.latchNs m).threads = true ∧ ((s.latchNs m).thr m).cur = (s.thr m).cur ∧
      ((s.latchNs m).thr m).stcn = s.stampNs := by
  refine ⟨State.threads_wf_setThr _ _ h, ?_⟩
  rw [State.latchNs, State.thr_modThr_self _ _ h]
  exact ⟨rfl, rfl⟩

/-! ### Rootstock's copies (R513) -/

/-- CFM.CHG without an object queued. -/
theorem State.chgRead_nil {s : State} (h : s.cold.chg = []) (ho : s.cold.chgOvf = false) :
    bit s.chgRead 62 = false ∧ bit s.chgRead 63 = false := by
  rw [State.chgRead, h, ho]
  decide

/-- CFM.CHG with an object queued names the oldest. -/
theorem State.chgRead_cons {s : State} {o : Nat} {rest : List Nat} (h : s.cold.chg = o :: rest) (ho : s.cold.chgOvf = false)
    (hlt : o < 2 ^ 24) : bit s.chgRead 62 = false ∧ bit s.chgRead 63 = true ∧ fld s.chgRead 47 24 = o := by
  rw [State.chgRead, h, ho]
  simp (disch := omega) [pack, bit_setFld_ne, bit_setFld_in, fld_setFld_ne, fld_setFld_self]
  exact hlt

/-- While no epoch runs, a field copied to a plain register is a write of the register. -/
theorem State.copyField_plain {s : State} {r : Reg} {ix : List Nat} (hi lo v : Nat) (hr : r ∈ plainRegs)
    (ha : regAt (r.addr ix) = some (r, ix)) (hrun : s.scn.running = false) :
    ∃ bad, s.copyField r ix hi lo v =
      { s.plainWrite r ix false (setFld (s.reg r ix) hi lo v) with pmcBad := bad } := by
  have hq : ∀ w, s.mirrored (r.addr ix) w = s := fun w => by simp [State.mirrored, hrun]
  rw [State.copyField, State.regPut, State.regStore_some _ ha, hq]
  exact s.regApply_plain ix _ hr

/-- FLT.FCFG.ACT takes the object's value. -/
theorem fieldsWrite_fltFcfg_act (old : W64) {v : Nat} (h : v < 2) :
    fld (fieldsWrite Reg.fltFcfg.row.fields false (setFld old 16 16 v) old) 16 16 = v := by
  have hv : fld (setFld old 16 16 v) 16 16 = v := by
    rw [fld_setFld_self _ _ (by decide)]
    exact Nat.mod_eq_of_lt h
  have hrow : Reg.fltFcfg.row.fields = [fd "ACT" 16 16 .rw 1, fr "HOLD" 9 0 .rw 0xa 1 1000] := rfl
  rw [hrow, fieldsWrite, List.foldl_cons, List.foldl_cons, List.foldl_nil, fld_write_ne (by decide) (by decide)]
  refine (fld_write_rw (f := fd "ACT" 16 16 .rw 1) rfl (by decide) ?_).trans hv
  change 0 ≤ fld (setFld old 16 16 v) 16 16 ∧ fld (setFld old 16 16 v) 16 16 ≤ 1
  omega

/-- RST.RTYCFG.THR takes the object's value. -/
theorem fieldsWrite_rstRtycfg_thr (old : W64) {v : Nat} (h : v < 2 ^ 16) :
    fld (fieldsWrite Reg.rstRtycfg.row.fields false (setFld old 15 0 v) old) 15 0 = v := by
  have hv : fld (setFld old 15 0 v) 15 0 = v := by
    rw [fld_setFld_self _ _ (by decide)]
    exact Nat.mod_eq_of_lt h
  have hrow : Reg.rstRtycfg.row.fields = [fd "THR" 15 0 .rw 0x10] := rfl
  rw [hrow, fieldsWrite, List.foldl_cons, List.foldl_nil]
  refine (fld_write_rw (f := fd "THR" 15 0 .rw 0x10) rfl (by decide) ?_).trans hv
  change 0 ≤ fld (setFld old 15 0 v) 15 0 ∧ fld (setFld old 15 0 v) 15 0 ≤ 2 ^ 16 - 1
  omega

theorem State.applyS_act (s : State) : s.applyS 0x080000 = s.copyField .fltFcfg [] 16 16 (s.odv 0x080000) := by
  simp only [State.applyS, if_true]

theorem State.applyS_thr (s : State) : s.applyS 0x110001 = s.copyField .rstRtycfg [] 15 0 (s.odv 0x110001) := by
  simp [State.applyS]

/-- A copy to a plain register leaves a kept value and the dictionary, and writes the register. -/
theorem State.copyField_spec {h u : State} {t : ThreadId} {k : Nat} {v : W64} {r : Reg} {ix : List Nat} (hi lo w : Nat)
    (hk : KeepsLoad h u t k v) (hr : r ∈ plainRegs) (ha : regAt (r.addr ix) = some (r, ix)) (hrun : u.scn.running = false)
    (hw : Map.wf regDefault u.regs = true) :
    KeepsLoad h (u.copyField r ix hi lo w) t k v ∧ (u.copyField r ix hi lo w).cold = u.cold ∧
      (u.copyField r ix hi lo w).reg r ix = fieldsWrite r.row.fields false (setFld (u.reg r ix) hi lo w) (u.reg r ix) := by
  obtain ⟨bad, hc⟩ := State.copyField_plain hi lo w hr ha hrun
  rw [hc]
  exact ⟨hk, rfl, Map.get_set_self _ _ hw⟩

/-! ### The commands of the loads -/

section
variable {s : State} {t : ThreadId}

/-- A load that cannot be performed ahead does nothing. -/
theorem exec_registerRead_waits {addr : BitVec 48} (h : ¬ s.loadReady t addr.toNat) :
    exec (.registerRead t addr) s = .next s := congrArg Host.Outcome.next (State.regLoadFor_not_ready h)

theorem exec_cfmStcs_waits (h : ¬ s.loadReady t (Reg.cfmStcs.addr [])) : exec (.cfmStcs t) s = .next s :=
  congrArg Host.Outcome.next (State.regLoadFor_not_ready h)

/-- An unassigned offset reads zero and changes no register (R24). -/
theorem exec_registerRead_unassigned {addr : BitVec 48} (h : s.loadReady t addr.toNat)
    (hw : Map.wf Thread.reset (s.hardenThr t.val).threads = true) (hr : regAt addr.toNat = none) :
    ∃ u, exec (.registerRead t addr) s = .next u ∧ KeepsLoad (s.hardenThr t.val) u t addr.toNat 0 ∧
      u.regs = (s.hardenThr t.val).regs := by
  refine ⟨s.regLoadFor t addr.toNat, rfl, ?_⟩
  rw [State.regLoadFor_ready h, State.regLoad_none _ hr]
  exact ⟨.of_state _ 0 hw rfl rfl, rfl⟩

/-- A load keeps what the register shows, and leaves what a read leaves. -/
theorem State.regLoadFor_some {k : Nat} (h : s.loadReady t k) (hw : Map.wf Thread.reset (s.hardenThr t.val).threads = true)
    {r : Reg} {ix : List Nat} (hr : regAt k = some (r, ix)) (h1 : r ≠ .cfmStcs) (h2 : r ≠ .cfmStcn) :
    KeepsLoad (s.hardenThr t.val) (s.regLoadFor t k) t k ((s.hardenThr t.val).regRead r ix) ∧
      ∃ th, s.regLoadFor t k = { (s.hardenThr t.val).afterRead r ix with threads := th } := by
  obtain ⟨hthreads, hmem, -⟩ := (s.hardenThr t.val).afterRead_frame r ix
  rw [State.regLoadFor_ready h, State.regLoad_some _ hr h1 h2]
  refine ⟨.of_state _ _ (by rwa [hthreads]) ?_ hmem, _, rfl⟩
  rw [State.thr, hthreads]
  rfl

/-- CFM.STCS keeps the seconds for its LOAD and latches the nanoseconds (R546). -/
theorem exec_cfmStcs (h : s.loadReady t (Reg.cfmStcs.addr [])) (hw : Map.wf Thread.reset (s.hardenThr t.val).threads = true) :
    ∃ u, exec (.cfmStcs t) s = .next u ∧
      KeepsLoad (s.hardenThr t.val) u t (Reg.cfmStcs.addr []) ((s.hardenThr t.val).regRead .cfmStcs []) ∧
      (u.thr t.val).stcn = (s.hardenThr t.val).stampNs := by
  refine ⟨s.regLoadFor t (Reg.cfmStcs.addr []), rfl, ?_⟩
  rw [State.regLoadFor_ready h, State.regLoad_stcs]
  obtain ⟨hlatch, hcur, hns⟩ := State.latchNs_thr t.val hw
  refine ⟨.of_state _ _ hlatch hcur rfl, ?_⟩
  rw [State.thr_modThr_self _ _ hlatch]
  exact hns

/-- The guard of Rootstock's read is that of a load of CFM.CHG. -/
theorem chgGuard_iff : ((s.thr t.val).run != .running || (s.thr t.val).cur.pl != 3 ||
    s.pageBusy t.val (Reg.cfmChg.addr [] / 4096)) = false ↔ s.loadReady t (Reg.cfmChg.addr []) := by
  have hmod : isModReg (Reg.cfmChg.addr []) = true := by decide
  have halign : Reg.cfmChg.addr [] % 8 = 0 := by decide
  simp only [Bool.or_eq_false_iff, bne_eq_false_iff_eq, State.loadReady, hmod, halign, true_and, Bool.not_eq_true]

theorem exec_cfmChg_waits (h : ¬ s.loadReady t (Reg.cfmChg.addr [])) : exec (.cfmChg t) s = .next s := by
  change execCfmChg t s = _
  rw [execCfmChg, if_pos (eq_true_of_ne_false (mt chgGuard_iff.mp h))]

/-- Rootstock's read of CFM.CHG without an overflow applies the object that it names, if any. -/
theorem exec_cfmChg (h : s.loadReady t (Reg.cfmChg.addr [])) (h62 : bit s.chgRead 62 = false) :
    exec (.cfmChg t) s = .next (if bit s.chgRead 63 then (s.regLoadFor t (Reg.cfmChg.addr [])).applyS (fld s.chgRead 47 24)
      else s.regLoadFor t (Reg.cfmChg.addr [])) := by
  change execCfmChg t s = _
  simp only [execCfmChg, chgGuard_iff.mpr h, h62, if_neg Bool.false_ne_true]

/-- The load of CFM.CHG takes the oldest entry of the queue. -/
theorem State.regLoadFor_chg (h : s.loadReady t (Reg.cfmChg.addr [])) (hclean : s.hardenThr t.val = s)
    (hw : Map.wf Thread.reset s.threads = true) :
    KeepsLoad (s.hardenThr t.val) (s.regLoadFor t (Reg.cfmChg.addr [])) t (Reg.cfmChg.addr []) (s.regRead .cfmChg []) ∧
      (s.regLoadFor t (Reg.cfmChg.addr [])).cold.chg = s.cold.chg.drop 1 ∧
      (s.regLoadFor t (Reg.cfmChg.addr [])).od = s.od ∧ (s.regLoadFor t (Reg.cfmChg.addr [])).scn = s.scn ∧
      (Map.wf regDefault s.regs = true → Map.wf regDefault (s.regLoadFor t (Reg.cfmChg.addr [])).regs = true) := by
  have hk := State.regLoadFor_some h (by rwa [hclean]) (r := .cfmChg) (ix := []) (by decide) (by decide) (by decide)
  rw [hclean] at hk ⊢
  obtain ⟨hkeep, th, he⟩ := hk
  obtain ⟨-, -, hod⟩ := s.afterRead_frame .cfmChg []
  refine ⟨hkeep, ?_⟩
  rw [he]
  refine ⟨?_, hod, ?_, fun hregs => ?_⟩
  · rw [State.afterRead_cfmChg, State.chgTaken_chg, State.setReg_cold]
  · rw [State.afterRead_cfmChg, State.chgTaken_scn, State.setReg_scn]
  · rw [State.afterRead_cfmChg, State.chgTaken_regs]
    exact State.regs_wf_setReg _ _ _ hregs

end

end Sys2Proof.Machine
end

/-! ## Time and registers: the parts of the statement -/

section
namespace Sys2Proof.Machine

variable {s : State}

theorem exec_stcAdvance_unpowered (ha : s.power.aux = false) : exec .stcAdvance s = .next s := by
  change execStcAdvance s = _
  rw [execStcAdvance, ha, if_neg Bool.false_ne_true]

/-- A tick of the clock, as the counters and PPS_OUT show it. -/
theorem exec_stcAdvance_spec (ha : s.power.aux = true) : ∃ u, exec .stcAdvance s = .next u ∧ u.mem = s.mem ∧
    u.stc.ns < 10 ^ 9 ∧ u.stc.frac < 2 ^ 40 ∧
    u.stc.nanos * 2 ^ 40 + u.stc.frac = s.stc.nanos * 2 ^ 40 + s.stc.frac + s.cold.ptp.inc ∧
    u.pins.ppsOut = s.pins.ppsOut - (u.stc.nanos - s.stc.nanos) ∧
    u.power.wdog = s.power.wdog + (if s.rf .rstWdog [] 63 63 = 1 ∧ s.power.state = .run then 1 else 0) := by
  obtain ⟨hstc, hmem, hpps, hwdog⟩ := s.stcTick_spec
  have hexec : exec .stcAdvance s = .next s.stcTick := by
    change execStcAdvance s = _
    rw [execStcAdvance, if_pos ha]
  refine ⟨_, hexec, hmem, ?_, ?_, ?_, ?_, hwdog⟩ <;> rw [hstc]
  · exact Stc.add_ns_lt _ _
  · exact Stc.add_frac_lt _ _
  · exact Stc.add_total _ _
  · exact hpps

/-- An object reads what was last written to it. -/
theorem State.odv_setOdv_self {s : State} (k v : Nat) (h : Map.wf odDefault s.od = true) : (s.setOdv k v).odv k = v :=
  Map.get_set_self k v h

/-- The alarm fires once, marks its subscriptions, and wakes the module from Sleep (R545). -/
theorem exec_stcAlarm_spec (hn : s.odv 0x04000A ≠ alarmOff) (ht : s.odv 0x04000A ≤ s.now96) (hod : Map.wf odDefault s.od = true) :
    ∃ u, exec .stcAlarm s = .next u ∧ u.odv 0x04000A = alarmOff ∧
      (∀ x ∈ u.cold.sessions, ∀ y ∈ x.subs, y.obj = 0x04000A → y.changed = true) ∧
      (s.power.state = .sleep → s.power.main = true → u.power.state = .run ∧ u.rf .pwrStat [] 59 56 = 5) ∧
      (s.power.state ≠ .sleep → u.power.state = s.power.state ∧ u.mem = s.mem) := by
  obtain ⟨haod, hapower, hamem⟩ := s.alarmed_frame
  have hoff : s.alarmed.odv 0x04000A = alarmOff := by
    rw [State.odv, haod]
    exact State.odv_setOdv_self _ _ hod
  have hmarks := (s.setOdv 0x04000A alarmOff).touch_marks 0x04000A
  refine ⟨_, exec_stcAlarm_fires hn ht, ?_⟩
  by_cases hs : s.power.state = .sleep
  · rw [if_pos hs]
    by_cases hm : s.power.main = true
    · obtain ⟨hwod, hwses, hrun, hstat⟩ := State.wake_sleep (s := s.alarmed) hs hm (src := 5) (by omega)
      refine ⟨?_, ?_, fun _ _ => ⟨hrun, hstat⟩, fun h => absurd hs h⟩
      · rw [State.odv, hwod]
        exact hoff
      · rw [hwses]
        exact hmarks
    · rw [State.wake_unpowered (s := s.alarmed) hs hm]
      exact ⟨hoff, hmarks, fun _ h => absurd h hm, fun h => absurd hs h⟩
  · rw [if_neg hs]
    exact ⟨hoff, hmarks, fun h => absurd h hs, fun _ => ⟨rfl, rfl⟩⟩

/-- A store to a plain register, after its record for the mirror: the fields written, and nothing else. -/
theorem State.regApply_plain_spec {q : State} {r : Reg} {ix : List Nat} {k : Nat} (v : W64) (hr : r ∈ plainRegs)
    (hk : r.addr ix = k) (hw : Map.wf regDefault q.regs = true) :
    (q.regApply r ix v).reg r ix = fieldsWrite r.row.fields false v (q.reg r ix) ∧ (q.regApply r ix v).mem = q.mem ∧
      (q.regApply r ix v).scn = q.scn ∧ ∀ r' ix', r'.addr ix' ≠ k → (q.regApply r ix v).reg r' ix' = q.reg r' ix' := by
  obtain ⟨bad, he⟩ := q.regApply_plain ix v hr
  rw [he]
  subst hk
  exact ⟨Map.get_set_self _ _ hw, rfl, rfl, fun r' ix' hne => Map.get_set_ne _ hw hne⟩

section
variable {t : ThreadId}

/-- A load of a register, with the events that its read ends. -/
theorem exec_registerRead_spec {addr : BitVec 48} (h : s.loadReady t addr.toNat)
    (hw : Map.wf Thread.reset (s.hardenThr t.val).threads = true) {r : Reg} {ix : List Nat} (hr : regAt addr.toNat = some (r, ix))
    (h1 : r ≠ .cfmStcs) (h2 : r ≠ .cfmStcn) :
    ∃ u, exec (.registerRead t addr) s = .next u ∧ KeepsLoad (s.hardenThr t.val) u t addr.toNat ((s.hardenThr t.val).regRead r ix) ∧
      (r = .pwrGatereq → u.gateEvent = false) ∧ (r = .scnStat → u.scn.roleEvent = false ∧ u.scn.resends = 0) ∧
      (r = .cfmChg → u.cold.chg = (s.hardenThr t.val).cold.chg.drop 1) := by
  obtain ⟨hkeep, th, he⟩ := State.regLoadFor_some h hw hr h1 h2
  obtain ⟨hgate, hrole, hresends⟩ := (s.hardenThr t.val).afterRead_events ix
  refine ⟨s.regLoadFor t addr.toNat, rfl, hkeep, ?_⟩
  rw [he]
  refine ⟨?_, ?_, ?_⟩
  · rintro rfl
    exact hgate
  · rintro rfl
    exact ⟨hrole, hresends⟩
  · rintro rfl
    rw [State.afterRead_cfmChg, State.chgTaken_chg, State.setReg_cold]

/-- Rootstock finds no object queued. -/
theorem exec_cfmChg_empty (h : s.loadReady t (Reg.cfmChg.addr [])) (hclean : s.hardenThr t.val = s)
    (hw : Map.wf Thread.reset s.threads = true) (hovf : s.cold.chgOvf = false) (hchg : s.cold.chg = []) :
    ∃ u, exec (.cfmChg t) s = .next u ∧ KeepsLoad (s.hardenThr t.val) u t (Reg.cfmChg.addr []) (s.regRead .cfmChg []) ∧ u.cold.chg = [] ∧
      u.od = s.od := by
  obtain ⟨h62, h63⟩ := State.chgRead_nil hchg hovf
  obtain ⟨hkeep, hrest, hod, -⟩ := State.regLoadFor_chg h hclean hw
  rw [exec_cfmChg h h62, h63, if_neg Bool.false_ne_true]
  exact ⟨_, rfl, hkeep, by rw [hrest, hchg]; rfl, hod⟩

/-- Rootstock applies the object named: the fatal action, or the retry threshold. -/
theorem exec_cfmChg_applies (h : s.loadReady t (Reg.cfmChg.addr [])) (hclean : s.hardenThr t.val = s)
    (hw : Map.wf Thread.reset s.threads = true) (hovf : s.cold.chgOvf = false) {o : Nat} {rest : List Nat}
    (hchg : s.cold.chg = o :: rest) (ho : o = 0x080000 ∨ o = 0x110001) (hrun : s.scn.running = false)
    (hregs : Map.wf regDefault s.regs = true) (hv : s.odv o < 2) :
    ∃ u, exec (.cfmChg t) s = .next u ∧ KeepsLoad (s.hardenThr t.val) u t (Reg.cfmChg.addr []) (s.regRead .cfmChg []) ∧ u.cold.chg = rest ∧
      (o = 0x080000 → u.rf .fltFcfg [] 16 16 = s.odv o) ∧ (o = 0x110001 → s.odv o = 1 → u.rf .rstRtycfg [] 15 0 = 1) := by
  obtain ⟨h62, h63, hobj⟩ := State.chgRead_cons hchg hovf (by omega)
  obtain ⟨hkeep, hrest, hod, hscn, hregs1⟩ := State.regLoadFor_chg h hclean hw
  have hodv : ∀ k, (s.regLoadFor t (Reg.cfmChg.addr [])).odv k = s.odv k := fun k => by rw [State.odv, hod, State.odv]
  rw [exec_cfmChg h h62, h63, if_pos rfl, hobj]
  rw [← hscn] at hrun
  rcases ho with rfl | rfl
  · obtain ⟨hk, hcold, hreg⟩ := State.copyField_spec 16 16 (s.odv 0x080000) hkeep (r := .fltFcfg) (ix := []) (by decide) (by decide)
      hrun (hregs1 hregs)
    refine ⟨_, rfl, ?_⟩
    rw [State.applyS_act, hodv]
    refine ⟨hk, by rw [hcold, hrest, hchg]; rfl, fun _ => ?_, fun hn => absurd hn (by decide)⟩
    rw [State.rf, hreg]
    exact fieldsWrite_fltFcfg_act _ hv
  · obtain ⟨hk, hcold, hreg⟩ := State.copyField_spec 15 0 (s.odv 0x110001) hkeep (r := .rstRtycfg) (ix := []) (by decide) (by decide)
      hrun (hregs1 hregs)
    refine ⟨_, rfl, ?_⟩
    rw [State.applyS_thr, hodv]
    refine ⟨hk, by rw [hcold, hrest, hchg]; rfl, fun hn => absurd hn (by decide), fun _ hone => ?_⟩
    rw [State.rf, hreg, hone]
    exact fieldsWrite_rstRtycfg_thr _ (by decide)

end

end Sys2Proof.Machine
end

section
open Sys2Proof Sys2Proof.Machine

/-- Settles O60: each clause by the lemma about its command. -/
theorem timeAndRegisters : Obligations.TimeAndRegisters := by
  unfold Obligations.TimeAndRegisters
  intro s p ptp best upd lost steers
  refine ⟨fun ha => exec_stcAdvance_unpowered ha, fun ha => exec_stcAdvance_spec ha, ?_, ?_,
    fun m hb ha hs => exec_delayRequest hb ha hs, fun h => exec_delayRequest_none h, ?_, ?_, ?_, ?_, ?_, ?_, ?_, ?_, ?_, ?_, ?_⟩
  · -- Sync and Delay_Resp
    intro port source dom t seq now n
    refine ⟨fun h => ⟨exec_sync_other t h, exec_delayResp_other seq t (.inl h)⟩, fun h => exec_sync_master t h,
      fun k t3 h3 h => exec_delayResp_master seq t h3 h, fun h3 => exec_delayResp_other seq t (.inr h3)⟩
  · -- Announce
    intro port source dom prio1 cls acc var prio2 gm steps utc i m hears
    refine ⟨fun h => exec_announce_unheard h, fun h => ⟨_, exec_announce m rfl h, mem_announced.mpr (.inl rfl), ?_, ?_, rfl⟩⟩
    · intro x hx
      refine mem_announced.trans ⟨?_, fun hm => .inr ⟨hm, hx⟩⟩
      rintro (rfl | ⟨hm, -⟩)
      · simp at hx
      · exact hm
    · intro x hx hport hsource
      rcases mem_announced.mp hx with hm | ⟨-, hne | hne⟩
      · exact hm
      · exact absurd hport hne
      · exact absurd hsource hne
  · -- a timeout that loses the source
    intro ha hs hy
    exact ⟨exec_announceReceiptTimeout_lost false ha hs hy, exec_announceReceiptTimeout_lost true ha hs hy⟩
  · -- a timeout that does not
    intro h
    exact ⟨exec_announceReceiptTimeout_idle false h, exec_announceReceiptTimeout_idle true h⟩
  · exact fun hy => exec_holdoverLimitExpiry hy
  · exact fun hy => exec_holdoverLimitExpiry_other hy
  · -- PPS_IN
    intro at1 x e
    refine ⟨exec_ppsIn_level (.inl rfl), fun h => exec_ppsIn_level (.inr h), fun hp ha => ⟨fun h2 => exec_ppsIn_other hp ha h2,
      fun h2 => ⟨fun hsync hfar => exec_ppsIn_far hp ha h2 ⟨hsync, hfar⟩, fun hnear hb => exec_ppsIn_near hp ha h2 hnear hb⟩⟩⟩
  · exact fun h => exec_ppsInMissing_idle h
  · -- a missing edge
    intro hs ha
    exact ⟨fun hm => exec_ppsInMissing_counts hs ha hm, fun hm hy hw => exec_ppsInMissing_lost hs ha hm hy hw⟩
  · -- PPS_OUT
    intro rises
    rw [exec_ppsOut]
    exact ⟨fun h => by rw [if_pos h], fun h => by rw [if_neg h]⟩
  · -- the alarm
    exact ⟨fun h => exec_stcAlarm_waits h, fun hn ht hod => exec_stcAlarm_spec hn ht hod⟩
  · -- stores
    intro addr v k reg q
    refine ⟨fun h => exec_registerWrite_other v h, fun h => ?_⟩
    rw [exec_registerWrite v h]
    refine ⟨fun hr => congrArg Host.Outcome.next (State.regStore_none v hr), fun r ix hr => ?_⟩
    rw [State.regStore_some v hr]
    exact ⟨rfl, fun hplain hk hw => ⟨_, rfl, State.regApply_plain_spec v hplain hk hw⟩⟩
  · -- loads
    intro t addr k secure waits stcs chg h kept
    refine ⟨fun hg hcb => State.hardenThr_of_clean hg hcb, fun hn => exec_registerRead_waits ?_, fun hn => exec_cfmStcs_waits ?_,
      fun hn => exec_cfmChg_waits ?_, fun hsec hw hmod halign hfree => ⟨fun hr => ?_, fun r ix hr h1 h2 => ?_⟩,
      fun hsec hw hfree => ?_, fun hsec hclean hw hfree hovf => ⟨fun hchg => ?_, fun o rest hchg ho hrun hregs hv => ?_⟩⟩
    · rintro ⟨hsec, hmod, halign, hfree⟩
      rcases hn with hn | hn | hn | hn
      · exact hn hsec
      · rw [hmod] at hn
        cases hn
      · exact hn halign
      · exact hfree hn
    · rintro ⟨hsec, -, -, hfree⟩
      exact hn.elim (· hsec) hfree
    · rintro ⟨hsec, -, -, hfree⟩
      exact hn.elim (· hsec) hfree
    · exact exec_registerRead_unassigned ⟨hsec, hmod, halign, hfree⟩ hw hr
    · exact exec_registerRead_spec ⟨hsec, hmod, halign, hfree⟩ hw hr h1 h2
    · exact exec_cfmStcs ⟨hsec, by decide, by decide, hfree⟩ hw
    · exact exec_cfmChg_empty ⟨hsec, by decide, by decide, hfree⟩ hclean hw hovf hchg
    · exact exec_cfmChg_applies ⟨hsec, by decide, by decide, hfree⟩ hclean hw hovf hchg ho hrun hregs hv
end

/-! ## The one rounding of an exact result (R101)

A magnitude without a root is `n / d` units of `b ^ e` for two naturals. Every rounding mode then
chooses between `n / d` and its successor by the remainder `n % d`, of which the half bit and the
sticky bit of `Mag.twice` hold what the choice needs. -/

section
namespace Sys2Proof.Machine

/-- The half bit of a quotient: the remainder is at least half a unit. -/
theorem two_mul_div_eq {n d : Nat} (hd : 0 < d) :
    2 * n / d = 2 * (n / d) + if d ≤ 2 * (n % d) then 1 else 0 := by
  rw [Nat.two_mul, Nat.add_div hd, ← Nat.two_mul, ← Nat.two_mul]

/-- The sticky bit of a quotient: what remains of the remainder below the half bit. -/
theorem two_mul_mod_eq (n d : Nat) :
    2 * n % d = if d ≤ 2 * (n % d) then 2 * (n % d) - d else 2 * (n % d) := by
  rw [Nat.two_mul, Nat.add_mod_eq_ite, ← Nat.two_mul]

/-- Half bit or sticky bit: a remainder is left. -/
theorem half_or_sticky {n d : Nat} (hd : 0 < d) :
    (2 * n / d % 2 == 1 || !decide (2 * n % d = 0)) = !decide (n % d = 0) := by
  have hr : n % d < d := Nat.mod_lt n hd
  rw [Bool.eq_iff_iff, two_mul_div_eq hd, two_mul_mod_eq n d]
  simp only [Bool.or_eq_true, beq_iff_eq, Bool.not_eq_true', decide_eq_false_iff_not]
  split <;> omega

/-- The quotient rounded upward. -/
theorem add_sub_one_div_eq {n d : Nat} (hd : 0 < d) : (n + d - 1) / d = if n % d = 0 then n / d else n / d + 1 := by
  rw [Nat.add_sub_assoc hd, Nat.add_div hd, Nat.div_eq_of_lt (Nat.sub_one_lt_of_lt hd), Nat.mod_eq_of_lt (Nat.sub_one_lt_of_lt hd)]
  split <;> split <;> omega

/-- The quotient to the nearest, halves upward. -/
theorem two_mul_add_div_eq {n d : Nat} (hd : 0 < d) :
    (2 * n + d) / (2 * d) = if d ≤ 2 * (n % d) then n / d + 1 else n / d := by
  rw [Nat.mul_comm 2 d, ← Nat.div_div_eq_div_mul, Nat.add_div_right _ hd, two_mul_div_eq hd]
  split <;> omega

/-- The magnitude is no root, and is `n / d` units of `b ^ e`. -/
structure Mag.Units (b : Nat) (x : Mag) (e : Int) (n d : Nat) : Prop where
  root : x.root = false
  num : n = x.num * b ^ (x.k - e).toNat
  den : d = x.den * b ^ (e - x.k).toNat
  pos : 0 < d

section
variable {b n d : Nat} {x : Mag} {e : Int} {rm : Rm} {neg : Bool}

theorem Mag.Units.twice_eq (h : x.Units b e n d) : x.twice b e = (2 * n / d, decide (2 * n % d = 0)) := by
  rw [Mag.twice, h.root, if_neg Bool.false_ne_true, Nat.mul_assoc, ← h.num, ← h.den]

/-- The rounding is inexact exactly when a remainder is left. -/
theorem roundAt_snd (h : x.Units b e n d) : (roundAt b rm neg x e).2 = !decide (n % d = 0) := by
  rw [roundAt, h.twice_eq]
  exact half_or_sticky h.pos

/-- The coefficient is the quotient or its successor, by `roundUp`. -/
theorem roundAt_fst (h : x.Units b e n d) : (roundAt b rm neg x e).1 =
    if roundUp rm neg (n / d) (2 * n / d % 2) (!decide (2 * n % d = 0)) then n / d + 1 else n / d := by
  have hq : 2 * n / d / 2 = n / d := by
    rw [two_mul_div_eq h.pos]
    split <;> omega
  rw [roundAt, h.twice_eq, hq]

theorem roundAt_rz (h : x.Units b e n d) : (roundAt b .rz neg x e).1 = n / d := by
  rw [roundAt_fst h, roundUp, if_neg Bool.false_ne_true]

theorem roundAt_up (h : x.Units b e n d) :
    (roundAt b .up neg x e).1 = if neg then n / d else (n + d - 1) / d := by
  rw [roundAt_fst h, roundUp, half_or_sticky h.pos, add_sub_one_div_eq h.pos]
  cases neg with
  | true => simp only [Bool.not_true, Bool.false_and, Bool.false_eq_true, if_false, if_true]
  | false =>
    simp only [Bool.not_false, Bool.true_and, Bool.not_eq_true', decide_eq_false_iff_not, ite_not, Bool.false_eq_true, if_false]

theorem roundAt_dn (h : x.Units b e n d) :
    (roundAt b .dn neg x e).1 = if neg then (n + d - 1) / d else n / d := by
  rw [roundAt_fst h, roundUp, half_or_sticky h.pos, add_sub_one_div_eq h.pos]
  cases neg with
  | true => simp only [Bool.true_and, Bool.not_eq_true', decide_eq_false_iff_not, ite_not, if_true]
  | false => simp only [Bool.false_and, Bool.false_eq_true, if_false]

theorem roundAt_rna (h : x.Units b e n d) : (roundAt b .rna neg x e).1 = (2 * n + d) / (2 * d) := by
  rw [roundAt_fst h, two_mul_add_div_eq h.pos]
  refine ite_congr (propext ?_) (fun _ => rfl) fun _ => rfl
  simp only [roundUp, two_mul_div_eq h.pos, beq_iff_eq]
  split <;> omega

/-- Ties to even: up above half a unit, and at half a unit from an odd quotient. -/
theorem roundAt_rne (h : x.Units b e n d) : (roundAt b .rne neg x e).1 =
    if d < 2 * (n % d) ∨ 2 * (n % d) = d ∧ n / d % 2 = 1 then n / d + 1 else n / d := by
  rw [roundAt_fst h]
  refine ite_congr (propext ?_) (fun _ => rfl) fun _ => rfl
  simp only [roundUp, two_mul_div_eq h.pos, two_mul_mod_eq n d, Bool.and_eq_true, Bool.or_eq_true, beq_iff_eq, Bool.not_eq_true',
    decide_eq_false_iff_not]
  split <;> omega

/-- To nearest, ties to even: within half a unit of the exact value. -/
theorem roundAt_rne_near (h : x.Units b e n d) :
    2 * ((roundAt b .rne neg x e).1 * d) ≤ 2 * n + d ∧ 2 * n ≤ 2 * ((roundAt b .rne neg x e).1 * d) + d := by
  have hn : n / d * d + n % d = n := Nat.div_add_mod' n d
  have hr : n % d < d := Nat.mod_lt n h.pos
  rw [roundAt_rne h]
  split
  · rw [Nat.add_one_mul (n / d)]
    omega
  · omega

/-- To nearest, ties to even: a tie gives an even coefficient. -/
theorem roundAt_rne_tie (h : x.Units b e n d) (hs : 2 * n % d = 0) (hhalf : 2 * n / d % 2 = 1) :
    (roundAt b .rne neg x e).1 % 2 = 0 := by
  have hr : n % d < d := Nat.mod_lt n h.pos
  have htie : 2 * (n % d) = d := by
    rw [two_mul_div_eq h.pos] at hhalf
    rw [two_mul_mod_eq] at hs
    split at hs <;> rename_i hle
    · omega
    · rw [if_neg hle] at hhalf
      omega
  rw [roundAt_rne h]
  split <;> omega

/-- Without a remainder every mode gives the quotient itself. -/
theorem roundAt_exact (h : x.Units b e n d) (hr : n % d = 0) : (roundAt b rm neg x e).1 * d = n := by
  have hd := h.pos
  have hq : (roundAt b rm neg x e).1 = n / d := by
    cases rm with
    | rz => exact roundAt_rz h
    | up => rw [roundAt_up h, add_sub_one_div_eq hd, if_pos hr, ite_self]
    | dn => rw [roundAt_dn h, add_sub_one_div_eq hd, if_pos hr, ite_self]
    | rne => rw [roundAt_rne h, if_neg (by omega)]
    | rna => rw [roundAt_rna h, two_mul_add_div_eq hd, if_neg (by omega)]
  rw [hq, Nat.div_mul_cancel (Nat.dvd_of_mod_eq_zero hr)]

end

end Sys2Proof.Machine
end

section
open Sys2Proof Sys2Proof.Machine

/-- Settles O30: each clause by the lemma about its rounding mode. -/
theorem oneRounding : Obligations.OneRounding := by
  unfold Obligations.OneRounding
  intro b num den k e neg rm hb hden n d r
  have hu : Mag.Units b ⟨num, den, k, false⟩ e n d :=
    ⟨rfl, rfl, rfl, Nat.mul_pos (Nat.pos_of_ne_zero hden) (Nat.pow_pos (by omega))⟩
  have hexact : r.2 = false ↔ n % d = 0 := by
    rw [roundAt_snd hu, Bool.not_eq_false', decide_eq_true_iff]
  refine ⟨hexact, fun hr => roundAt_exact hu (hexact.mp hr), ?_, ?_, ?_, ?_, ?_⟩
  · rintro rfl
    exact roundAt_rz hu
  · rintro rfl
    exact roundAt_up hu
  · rintro rfl
    exact roundAt_dn hu
  · rintro rfl
    exact ⟨(roundAt_rne_near hu).1, (roundAt_rne_near hu).2, roundAt_rne_tie hu⟩
  · rintro rfl
    exact roundAt_rna hu
end

/-! ## Retry (R140, R149)

A check is answered after the failing line has left the first-level cache, in the state with the core as that leaves it. A
canonical map reads there what it was given; a map that lists the core twice does not. -/

section
namespace Sys2Proof.Machine

/-- A core with nothing to restore answers a check that retry covers with nothing (R140, R149). -/
theorem State.retry_of_nothingRuns {s : State} {c : Nat} (thr code : Nat) (h : s.nothingRuns c = true) :
    s.retry c thr code = s := by
  rw [State.retry, if_pos h]

/-- Core 0 listed twice: an entry whose L1I holds line 5 stands before one that is due for sparing. Thread 0 has a group that
has not hardened. -/
def listedTwice : State := { State.reset with
  threads := [(0, { Thread.reset 0 with groups := [Arch.reset 0] })]
  cores := [(0, { Core.reset 0 with l1i := [(5, [5])] }), (0, { Core.reset 0 with due := some 0x0101 })] }

/-- Without line 5 the first entry is a core at reset, which no map lists: it goes, and the second is read in its place. -/
theorem listedTwice_l1Drop_nothingRuns : (listedTwice.l1Drop 0 5).nothingRuns 0 = true := by decide

/-- The check of the L1I line takes the line, and restores nothing. -/
theorem exec_checkFires_listedTwice :
    exec (.checkFires 0 false (.l1i 5)) listedTwice = .next (listedTwice.l1Drop 0 5) := by
  have hacts : ¬ (coreCheck (.l1i 5) && !(listedTwice.coreUsed 0 && listedTwice.drains 0)) = true := by decide
  have hretry := State.retry_of_nothingRuns 0 0x0101 listedTwice_l1Drop_nothingRuns
  exact congrArg _ ((if_neg hacts).trans hretry)

end Sys2Proof.Machine
end

section
open Sys2Proof Sys2Proof.Machine

/-- Refutes O32: what a check leaves of the threads is stated without the premise that the cores' map is canonical. Where
core 0 is listed twice, the L1I check finds it due for sparing once the line has gone, and the unhardened group stays. -/
theorem not_retryRestoresTheCheckpoint : ¬ Obligations.RetryRestoresTheCheckpoint := by
  unfold Obligations.RetryRestoresTheCheckpoint
  rintro ⟨hretry, -⟩
  obtain ⟨hcovered, -⟩ := hretry 0 false 5 0 0 listedTwice (by decide) (by decide) (by decide) (by decide)
  obtain ⟨u, hu, hthr, -⟩ := hcovered (.l1i 5) 0x01 (.inl List.mem_cons_self)
  obtain ⟨-, -, hgroups, -⟩ := hthr 0 rfl
  have hu' : listedTwice.l1Drop 0 5 = u := Host.Outcome.next.inj (exec_checkFires_listedTwice.symm.trans hu)
  rw [← hu'] at hgroups
  exact absurd hgroups (by decide)

end

/-! ## POT.BASE.EN while epochs run (R134, R141, R155, R377)

Each entry that the POT unit writes is recorded for the mirror; the record that takes the backlog to T closes the epoch, the
close hardens every group, and the group that a retry restored then counts in RST.RTYSTAT of its core. That register's
address is a multiple of the core's number: for a number that no core of the module has, it is that of POT.BASE. -/

section
namespace Sys2Proof.Machine

set_option maxRecDepth 100000

/-- The core number, 9,420,800, that puts RST.RTYSTAT at the address of POT.BASE. -/
def clashCore : Nat := (Reg.potBase.addr [] - Reg.rstRtystat.addr [0]) / 8

/-- Epochs run with a budget of 768 KiB, and one more line record closes the epoch. A patch of one granule is active. Of the
thread after `2 * clashCore` a group that a retry restored has not hardened. -/
def nearClose : State := { State.reset.setRf .scnEpcfg [] 18 0 768 with
  threads := [(2 * clashCore, { Thread.reset (2 * clashCore) with groups := [Arch.reset (2 * clashCore)] })]
  cores := [(clashCore, { Core.reset clashCore with attempts := 1 })]
  patch := ⟨0, 1, [], 0, []⟩
  scn := { Scion.reset with running := true, logged := List.replicate 2854 ⟨0, 0⟩ } }

/-- The same with the write of POT.BASE queued for the mirror. -/
def nearCloseQueued : State := nearClose.cfgw .potBase [] (setBit (nearClose.reg .potBase) 0 true)

theorem nearClose_off : nearClose.rf .potBase [] 0 0 ≠ 1 := by decide

/-- EN and the count of successful retries share bit 0 of one register: EN = 1 is counted on to 2. -/
theorem nearCloseQueued_potOn_potBase : nearCloseQueued.potOn.reg .potBase [] = 0x100000002 := by decide

theorem exec_potEnable_nearClose : exec .potEnable nearClose = .next nearCloseQueued.potOn := by
  change execPotEnable nearClose = _
  rw [execPotEnable, if_neg nearClose_off, nearCloseQueued]

/-- What O35 asks of the state before, in which EN is to be set. -/
theorem nearCloseQueued_hyps : nearCloseQueued.rf .potBase [] 0 0 = 0 ∧ Memory.wf nearCloseQueued.mem = true ∧
    Map.wf regDefault nearCloseQueued.regs = true ∧ nearCloseQueued.hubIdle = true := by decide

end Sys2Proof.Machine
end

section
open Sys2Proof Sys2Proof.Machine

/-- Refutes O35: no premise bounds the threads to those of the module. As `nearClose` sets POT.BASE.EN, the first entry
written for the patch closes the epoch, and the retry counted for a core beyond the last one overwrites POT.BASE. -/
theorem not_potCommandsAreChecked : ¬ Obligations.PotCommandsAreChecked := by
  unfold Obligations.PotCommandsAreChecked
  rintro ⟨-, -, -, -, henable⟩
  obtain ⟨hoff, hmem, hregs, hidle⟩ := nearCloseQueued_hyps
  obtain ⟨u, hu, hen, -⟩ := henable nearClose (by decide) hoff hmem hregs hidle
  have hu' : nearCloseQueued.potOn = u := Host.Outcome.next.inj (exec_potEnable_nearClose.symm.trans hu)
  rw [← hu', State.rf, nearCloseQueued_potOn_potBase] at hen
  exact absurd hen (by decide)

end

/-! ## Hand-over and withdrawal (R238, R240, R317, R387, R396, R471)

The ACK that hands over first releases what its epochs held. With the last ABORT of a withdrawn port gone the port goes off,
and its tracked MMIO stores are lost; the losses of two threads escalate their core's record to FATAL, whose reaction tells
the partner before the hand-over does. -/

section
namespace Sys2Proof.Machine

set_option maxRecDepth 100000

/-- What an ACK of epoch `ep` does at an Active: the epoch is committed, and its outputs leave (R387). -/
def State.commitOutputs (s : State) (ep : W64) : State := (s.setReg .scnEpoch [] ep).release fun n => decide (n ≤ ep.toNat)

/-- A planned switch-over's hand-over: the module fences itself, and the partner is told (R396). -/
def State.handOver (s : State) : State :=
  (({ s.scnSend (.fail 2) with egressIdle := true, pins := { s.pins with pairActive := false } } : State).setRole 4).modScn
    fun x => { x with running := false }

theorem State.handOver_sent (s : State) : s.handOver.scn.sent = s.scn.sent ++ [.fail 2] := rfl

/-- The ACK of the epoch that a planned switch-over waits for, or of a later one, commits and then hands over (R396). -/
theorem exec_scionAck_handOver {s : State} {ep : W64} {w : Nat} (hauthed : s.scn.authed = true) (hrunning : s.scn.running = true)
    (hclosed : ep.toNat < s.scn.epoch) (hjoin : s.scn.joinSrc = none) (hrole : s.scn.role = 1)
    (hswitch : s.scn.switchOver = some w) (hw : w ≤ ep.toNat) :
    exec (.scionAck ep) s = .next (s.commitOutputs ep).handOver := by
  have hopen : decide (s.scn.epoch ≤ ep.toNat) = false := decide_eq_false (Nat.not_le.mpr hclosed)
  change execScionAck ep s = _
  simp only [execScionAck, hauthed, hrunning, hopen, hjoin, hrole, hswitch, hw, Bool.not_true, Bool.or_self, bne_self_eq_false,
    Bool.false_eq_true, if_false, if_true, State.handOver, State.commitOutputs]

/-- An Active that waits for the ACK of epoch 4 to hand over. Port 0 is withdrawn: its last ABORT is held for epoch 4, and
one MMIO store of each thread of core 0 is tracked there. -/
def withdrawnPort : State := { (paired fun x => { x with
    role := 1, running := true, epoch := 5, authed := true, grpA := true, grpB := true, switchOver := some 4 }) with
  held := [⟨4, 0, 0, 1, [⟨2, 0, 0, 1, 0, 1, 0, 0, 0, [], 0, none⟩], 0⟩]
  ports := [(0, { Port.empty 0 with withdrawing := true, ending := true })]
  mmio := [(0, { MmioPort.reset 0 with tracked := [⟨0xE00000000000, [1], 0, 0⟩, ⟨0xE00000000008, [2], 1, 0⟩] })] }

/-- The second lost store makes the record of core 0 FATAL, and the reaction has sent FAIL 1 before the hand-over. -/
theorem withdrawnPort_commitOutputs :
    (withdrawnPort.commitOutputs 4).rf .fltRec [0] 63 62 = clsFatal ∧ (withdrawnPort.commitOutputs 4).scn.sent = [.fail 1] := by
  decide

end Sys2Proof.Machine
end

section
open Sys2Proof Sys2Proof.Machine

/-- Refutes O52: an ACK that hands over is said to send FAIL 2 alone, also where it releases a withdrawn port's last ABORT.
At `withdrawnPort` the stores lost with the port escalate to FATAL, and FAIL 1 goes out before it. -/
theorem not_epochsAndTakeover : ¬ Obligations.EpochsAndTakeover := by
  unfold Obligations.EpochsAndTakeover
  intro h
  obtain ⟨-, -, -, hack, -⟩ := h withdrawnPort
  obtain ⟨-, hover, -⟩ := hack 4 (by decide) (by decide) (by decide) (by decide)
  obtain ⟨u, hu, -, -, -, hsent, -⟩ := hover 4 (by decide) (by decide) (by decide) (by decide)
  have hrun : exec (.scionAck 4) withdrawnPort = .next (withdrawnPort.commitOutputs 4).handOver :=
    exec_scionAck_handOver (by decide) (by decide) (by decide) (by decide) (by decide) rfl (Nat.le_refl 4)
  have hu' : (withdrawnPort.commitOutputs 4).handOver = u := Host.Outcome.next.inj (hrun.symm.trans hu)
  obtain ⟨-, hfail⟩ := withdrawnPort_commitOutputs
  rw [← hu', State.handOver_sent, hfail] at hsent
  exact absurd hsent (by decide)

end

/-! ## A drain that closes an epoch (R138, R142, R155, R378, R471)

The last store of a closing epoch lets its CLOSE be queued and the close that waited for that follow. The close hardens every
group; a group that a retry restored leaves a record of its core, and where that record is FATAL already, the reaction
stops the threads of the Normal World and discards what has not hardened of their store buffers. -/

section
namespace Sys2Proof.Machine

set_option maxRecDepth 100000

/-- A line that the core holds in M is there at once (R202). -/
theorem State.acquire_of_modified {s : State} {c line : Nat} (pid : Nat) (excl : Bool) (h : (s.l2l c line).st = .m) :
    s.acquire c pid line excl = some s := by
  simp [State.acquire, State.gain, h]

/-- A hardened entry drains where no older barrier group, no descriptor's flag and no other core is in the way (R232, R235). -/
theorem exec_storeDrain_of_acquire {t : ThreadId} {line : Line} {s s1 : State} {e : SbEntry}
    (hfind : (s.thr t.val).sb.find? (fun e => !e.device && e.line == line.toNat) = some e)
    (hhard : (s.thr t.val).hardened e = true) (hdrains : s.drains t.val = true) (hgen : (s.thr t.val).olderGen e.gen = false)
    (hsib : s.sibDesc t.val e.line = false)
    (hacquire : s.acquire (t.val / 2) (s.thr t.val).cur.chkPid e.line true = some s1) :
    exec (.storeDrain t line) s = .next (s1.drainEntry t.val e) := by
  change execStoreDrain t line s = _
  simp [execStoreDrain, hfind, hhard, hdrains, hgen, hsib, hacquire]

/-- The last store of epoch 5, of retire group 1. -/
def oldEntry : SbEntry := ⟨false, 0x2000, [⟨0x200000, [7], 1, 5, 0, 0, 0, false⟩], none, 0⟩

/-- A store of epoch 6, of retire group 2. -/
def newEntry : SbEntry := ⟨false, 0x2001, [⟨0x200100, [8], 2, 6, 0, 0, 0, false⟩], none, 0⟩

/-- Thread 1's state at User level. -/
def userArch : Arch := (Arch.reset 1).setSr 1 0

/-- A running thread with both stores in its buffer; the older one's group has hardened. -/
def userThread : Thread := { Thread.reset 1 with
  run := .running, cur := userArch, hard := userArch, snap := userArch, snapRun := 1, groups := [userArch], seq := 2, hseq := 1,
  sb := [oldEntry, newEntry] }

/-- Epoch 5 is closing and epoch 6 waits to. RST.RTYCFG.THR is 0, so that every retry is recorded, and the record of core 0
is FATAL with no reaction yet. -/
def fatalRecord : State := ((paired fun x => { x with
    role := 1, running := true, epoch := 6, closing := some 5, wantClose := true }).setReg .fltRec [0]
  (pack [(63, 62, clsFatal), (61, 60, 1)])).setReg .rstRtycfg [] 0

/-- Thread 1 of core 0 may drain the last store of epoch 5; thread 0 has a group that a retry restored. -/
def lastOldStore : State := { fatalRecord.setL2 0 0x2000 ⟨.m, false, 0⟩ with
  threads := [(0, { Thread.reset 0 with groups := [Arch.reset 0], seq := 1 }), (1, userThread)]
  cores := [(0, { Core.reset 0 with attempts := 1, rcode := 0x0101 })] }

theorem lastOldStore_acquire : lastOldStore.acquire 0 userArch.chkPid 0x2000 true = some lastOldStore :=
  State.acquire_of_modified _ _ (by decide)

/-- The close that the drain lets happen records the retry, and the FATAL reaction takes the store of epoch 6. -/
theorem lastOldStore_drainEntry : (lastOldStore.drainEntry 1 oldEntry).rf .fltFatal [] 63 63 = 1 ∧
    ((lastOldStore.drainEntry 1 oldEntry).thr 1).sb = [] := by decide

end Sys2Proof.Machine
end

section
open Sys2Proof Sys2Proof.Machine

/-- Refutes O33: a drain is said to take its own entry alone from the buffer, also where it lets an epoch close. At
`lastOldStore` the close ends in a FATAL reaction, which discards the thread's other entry. -/
theorem not_hardeningAndDrains : ¬ Obligations.HardeningAndDrains := by
  unfold Obligations.HardeningAndDrains
  rintro ⟨-, hdrain, -⟩
  obtain ⟨u, hu, -, -, hsb⟩ := hdrain 1 0x2000 lastOldStore lastOldStore oldEntry (by decide) (by decide) (.inl (by decide))
    (by decide) (by decide) lastOldStore_acquire (by decide)
  have hrun : exec (.storeDrain 1 0x2000) lastOldStore = .next (lastOldStore.drainEntry 1 oldEntry) :=
    exec_storeDrain_of_acquire (by decide) (by decide) (by decide) (by decide) (by decide) lastOldStore_acquire
  have hu' : lastOldStore.drainEntry 1 oldEntry = u := Host.Outcome.next.inj (hrun.symm.trans hu)
  have hrest : (lastOldStore.thr 1).sb.erase oldEntry = [newEntry] := by decide
  obtain ⟨-, hempty⟩ := lastOldStore_drainEntry
  rw [← hu'] at hsb
  have hlost : [] = [newEntry] := hempty.symm.trans (hsb.trans hrest)
  exact absurd hlost (by decide)

end

/-! ## Leases and gate requests (R183 to R186) -/

section
namespace Sys2Proof.Machine

/-- An island reads what was last written to it. -/
theorem State.isl_modIsl_self {s : State} (i : Nat) (f : Isl → Isl) (h : Map.wf Isl.reset s.isls = true) :
    (s.modIsl i f).isl i = f (s.isl i) := Map.get_set_self _ _ h

/-- Changes of islands change the islands alone. -/
theorem State.foldl_modIsl_frame (f : Isl → Isl) : ∀ (is : List Nat) (s : State),
    ∃ isls, is.foldl (fun s i => s.modIsl i f) s = { s with isls := isls }
  | [], s => ⟨s.isls, rfl⟩
  | i :: is, s => State.foldl_modIsl_frame f is (s.modIsl i f)

/-- The registers do not lie in `power`. -/
theorem State.rf_withPower (s : State) (p : Power) (r : Reg) (ix : List Nat) (a b : Nat) :
    State.rf { s with power := p } r ix a b = s.rf r ix a b := rfl

theorem State.isl_withPower (s : State) (p : Power) (i : Nat) : State.isl { s with power := p } i = s.isl i := rfl

/-- A register of a state with other islands. -/
theorem State.rf_withIsls (s : State) (m : Map Isl) (r : Reg) (ix : List Nat) (a b : Nat) :
    State.rf { s with isls := m } r ix a b = s.rf r ix a b := rfl

theorem State.leased_withIsls (s : State) (m : Map Isl) (i : Nat) : State.leased { s with isls := m } i = s.leased i := rfl

theorem State.isl_setReg (s : State) (r : Reg) (ix : List Nat) (v : W64) (i : Nat) : (s.setReg r ix v).isl i = s.isl i := rfl

/-! ### Requests -/

section
variable {s : State} {src isl act : Nat} (hi : isl ≤ 112) (hb : s.rf .pwrGatereq [] 2 0 ≠ 2)
include hi hb

/-- A request with a legal operand is taken while none is PENDING (R185). -/
theorem State.gateRequest_taken (ha : act ≠ 3) :
    ¬ (112 < isl ∨ act = 3 ∨ (s.rf .pwrGatereq [] 2 0 == 2) = true ∧ (!(s.rf .pwrGatereq [] 54 48 == isl)) = true) := by
  rintro (h | h | ⟨h, -⟩)
  · exact absurd h (Nat.not_lt.mpr hi)
  · exact ha h
  · exact hb (beq_iff_eq.mp h)

/-- A request for an island with no lease waits for it (R184). -/
theorem State.gateRequest_of_unleased (h0 : act ≠ 0) (h3 : act ≠ 3) (hl : s.leased isl = false) :
    s.gateRequest src isl act =
      { s.setReg .pwrGatereq [] (pack [(54, 48, isl), (39, 38, act), (34, 32, src), (2, 0, 0)]) with
        power := { s.power with gateWait := true, gatePend := false } } := by
  simp only [State.gateRequest, if_neg (State.gateRequest_taken hi hb h3), if_neg h0, hl, Bool.false_eq_true, if_false]
  rw [State.setReg_power]

/-- A request for a leased island is PENDING, with an event (R185). -/
theorem State.gateRequest_of_leased (h0 : act ≠ 0) (h3 : act ≠ 3) (hl : s.leased isl = true) :
    s.gateRequest src isl act =
      { s.setReg .pwrGatereq [] (pack [(54, 48, isl), (39, 38, act), (34, 32, src), (2, 0, 2)]) with
        gateEvent := true, power := { s.power with gateWait := false, gatePend := true } } := by
  simp only [State.gateRequest, if_neg (State.gateRequest_taken hi hb h3), if_neg h0, hl, if_true]
  rw [State.setReg_power]

/-- A request to ungate is applied at once (R184). -/
theorem State.gateRequest_ungate : s.gateRequest src isl 0 =
    { (s.modIsl isl fun x => { x with gate := 0 }).setReg .pwrGatereq [] (pack [(54, 48, isl), (34, 32, src), (2, 0, 1)]) with
      power := { s.power with gateWait := false, gatePend := false } } := by
  have hbusy : (s.rf .pwrGatereq [] 2 0 == 2) = false := beq_eq_false_iff_ne.mpr hb
  rw [State.gateRequest, if_neg (State.gateRequest_taken hi hb (by decide)), if_pos rfl]
  simp only [hbusy, Bool.false_eq_true, if_false]
  rw [State.setReg_power, State.modIsl_power]

/-- After a request to ungate the status is applied, the island is not gated and nothing waits. -/
theorem State.gateRequest_ungate_applied (hregs : Map.wf regDefault s.regs = true) :
    (s.gateRequest src isl 0).rf .pwrGatereq [] 2 0 = 1 ∧
    (Map.wf Isl.reset s.isls = true → ((s.gateRequest src isl 0).isl isl).gate = 0) ∧
    (s.gateRequest src isl 0).power.gateWait = false := by
  rw [State.gateRequest_ungate hi hb]
  refine ⟨?_, fun hisls => ?_, rfl⟩
  · rw [State.rf_withPower, State.rf, State.reg_setReg_self (s := s.modIsl isl _) _ _ _ hregs]
    exact fld_setFld_self _ 1 (by decide)
  · rw [State.isl_withPower, State.isl_setReg, State.isl_modIsl_self _ _ hisls]

end

/-! ### The outcome of a request that waits -/

theorem State.gateDone_isls (s : State) (st : Nat) : (s.gateDone st).isls = s.isls := rfl
theorem State.gateDone_gateWait (s : State) (st : Nat) : (s.gateDone st).power.gateWait = false := rfl

theorem State.gateDone_status {s : State} {st : Nat} (hst : st < 8) (h : Map.wf regDefault s.regs = true) :
    (s.gateDone st).rf .pwrGatereq [] 2 0 = st :=
  (State.rf_setRf_self .pwrGatereq [] st h (by decide)).trans (Nat.mod_eq_of_lt hst)

theorem exec_islandIdle_of_busy {s : State} (h : s.islandBusy (s.rf .pwrGatereq [] 54 48) = true) :
    exec .islandIdle s = .next s := by
  change execIslandIdle s = _
  simp only [execIslandIdle, h, Bool.or_true, if_true]

theorem exec_islandIdle_of_idle {s : State} (hw : s.power.gateWait = true)
    (h : s.islandBusy (s.rf .pwrGatereq [] 54 48) = false) :
    exec .islandIdle s = .next ((s.modIsl (s.rf .pwrGatereq [] 54 48) fun x =>
      { x with gate := s.rf .pwrGatereq [] 39 38 }).gateDone 1) := by
  change execIslandIdle s = _
  simp only [execIslandIdle, h, hw, Bool.not_true, Bool.or_self, Bool.false_eq_true, if_false]

theorem exec_gateIdleTimeout_of_waiting {s : State} (hw : s.power.gateWait = true) :
    exec .gateIdleTimeout s = .next (s.gateDone 3) := by
  change execGateIdleTimeout s = _
  rw [execGateIdleTimeout, if_pos hw]

/-! ### Leases -/

/-- The lease register that a write names. -/
def leaseReg (hi : Bool) : Reg := if hi then .pwrLease1 else .pwrLease0

/-- A lease register with the lease bits that may be written (R183). -/
def State.leaseSet (s : State) (hi : Bool) (v : W64) : State :=
  s.setReg (leaseReg hi) [] (fieldsWrite (leaseReg hi).row.fields false v (s.reg (leaseReg hi)))

/-- The gated islands that the write leases newly (R186). -/
def State.newlyLeased (s : State) (hi : Bool) (v : W64) : List Nat :=
  ((List.range (if hi then 49 else 64)).map fun i => if hi then 64 + i else i).filter fun i =>
    (s.leaseSet hi v).leased i && !s.leased i && (s.isl i).gate != 0

/-- What a request meets as the lease bits are written: one that is PENDING waits if its island is released, and one that
waits is PENDING if its island is leased (R185; log 55). -/
def State.gateMeetsLease (s : State) : State :=
  let i := s.rf .pwrGatereq [] 54 48
  if s.rf .pwrGatereq [] 2 0 = 2 then
    if s.leased i then { s with power := { s.power with gateWait := false } }
    else { s with power := { s.power with gateWait := true } }
  else if s.power.gateWait && s.leased i then
    let s3 := s.setRf .pwrGatereq [] 2 0 2
    { s3 with gateEvent := true, power := { s3.power with gateWait := false, gatePend := true } }
  else s

/-- A write of a lease register in its parts (R185, R186). -/
theorem State.leaseWrite_eq (s : State) (hi : Bool) (v : W64) : s.leaseWrite hi v =
    ((s.newlyLeased hi v).foldl (fun s i => s.modIsl i fun x => { x with gate := 0 }) (s.leaseSet hi v)).gateMeetsLease := rfl

theorem State.gateMeetsLease_of_none {s : State} (hb : s.rf .pwrGatereq [] 2 0 ≠ 2) (hw : s.power.gateWait = false) :
    s.gateMeetsLease = s := by
  simp only [State.gateMeetsLease, if_neg hb, hw, Bool.false_and, Bool.false_eq_true, if_false]

/-- A request that waits for a leased island is PENDING, with an event. -/
theorem State.gateMeetsLease_of_leased {s : State} (hb : s.rf .pwrGatereq [] 2 0 ≠ 2) (hw : s.power.gateWait = true)
    (hl : s.leased (s.rf .pwrGatereq [] 54 48) = true) (hregs : Map.wf regDefault s.regs = true) :
    s.gateMeetsLease.rf .pwrGatereq [] 2 0 = 2 ∧ s.gateMeetsLease.gateEvent = true ∧
      s.gateMeetsLease.power.gatePend = true := by
  simp only [State.gateMeetsLease, if_neg hb, hw, hl, Bool.and_self, if_true, and_self, and_true]
  exact State.rf_setRf_self .pwrGatereq [] 2 hregs (by decide)

/-- The lease registers stand apart from PWR.GATEREQ. -/
theorem State.rf_gatereq_leaseSet {s : State} (hi : Bool) (v : W64) (a b : Nat) (h : Map.wf regDefault s.regs = true) :
    (s.leaseSet hi v).rf .pwrGatereq [] a b = s.rf .pwrGatereq [] a b := by
  have hne : Reg.addr .pwrGatereq [] ≠ Reg.addr (leaseReg hi) [] := by cases hi <;> decide
  rw [State.rf, State.leaseSet, State.reg_setReg_ne _ h hne, State.rf]

/-- With no gated island newly leased the write ungates none. -/
theorem State.newlyLeased_eq_nil {s : State} {hi : Bool} {v : W64}
    (h : ∀ i, i < 113 → (s.leaseSet hi v).leased i = true → s.leased i = false → (s.isl i).gate = 0) :
    s.newlyLeased hi v = [] := by
  rw [State.newlyLeased, List.filter_eq_nil_iff]
  intro i hi'
  have hlt : i < 113 := by
    obtain ⟨j, hj, rfl⟩ := List.mem_map.mp hi'
    cases hi <;> simp at hj ⊢ <;> omega
  intro hnew
  simp only [Bool.and_eq_true, Bool.not_eq_true', bne_iff_ne] at hnew
  obtain ⟨⟨hl, hold⟩, hgate⟩ := hnew
  exact hgate (h i hlt hl hold)

section
variable {s : State} {hi : Bool} {v : W64} (hregs : Map.wf regDefault s.regs = true) (hb : s.rf .pwrGatereq [] 2 0 ≠ 2)
include hregs hb

/-- With no request and no gated island newly leased a lease write sets its bits and nothing else (R183). -/
theorem State.leaseWrite_of_unasked (hw : s.power.gateWait = false)
    (hnew : ∀ i, i < 113 → (s.leaseSet hi v).leased i = true → s.leased i = false → (s.isl i).gate = 0) :
    s.leaseWrite hi v = s.leaseSet hi v := by
  rw [State.leaseWrite_eq, State.newlyLeased_eq_nil hnew, List.foldl_nil,
    State.gateMeetsLease_of_none (s := s.leaseSet hi v) ?_ hw]
  rwa [State.rf_gatereq_leaseSet hi v 2 0 hregs]

/-- A lease written for the island of a request that waits makes the request PENDING, with an event (R185). -/
theorem State.leaseWrite_of_asked (hw : s.power.gateWait = true)
    (hl : (s.leaseSet hi v).leased (s.rf .pwrGatereq [] 54 48) = true) :
    (s.leaseWrite hi v).rf .pwrGatereq [] 2 0 = 2 ∧ (s.leaseWrite hi v).gateEvent = true ∧
      (s.leaseWrite hi v).power.gatePend = true := by
  obtain ⟨isls, hisls⟩ := State.foldl_modIsl_frame (fun x => { x with gate := 0 }) (s.newlyLeased hi v) (s.leaseSet hi v)
  have hasked := fun a b => (State.rf_withIsls (s.leaseSet hi v) isls .pwrGatereq [] a b).trans
    (State.rf_gatereq_leaseSet hi v a b hregs)
  rw [State.leaseWrite_eq, hisls]
  refine State.gateMeetsLease_of_leased ?_ hw ?_ (State.regs_wf_setReg _ _ _ hregs)
  · rwa [hasked]
  · rwa [State.leased_withIsls, hasked]

end

end Sys2Proof.Machine
end

section
open Sys2Proof Sys2Proof.Machine

/-- Settles O38: a request by the island's lease, the outcome of one that waits, and the parts of a lease write. -/
theorem leasesAndGates : Obligations.LeasesAndGates := by
  unfold Obligations.LeasesAndGates
  refine ⟨?_, ?_, ?_, ?_⟩
  · intro dict isl act s0 s hi hb hregs src asked
    have hexec : exec (.gatereq dict isl act) s0 = .next (s.gateRequest src isl.toNat act.toNat) := rfl
    refine ⟨fun hact => ?_, ?_⟩
    · have h0 : act.toNat ≠ 0 := by obtain rfl | rfl := hact <;> decide
      have h3 : act.toNat ≠ 3 := by obtain rfl | rfl := hact <;> decide
      refine ⟨fun hl => ?_, fun hl => ?_⟩
      · rw [hexec, State.gateRequest_of_unleased hi hb h0 h3 hl]
      · rw [hexec, State.gateRequest_of_leased hi hb h0 h3 hl]
    · rintro rfl
      exact ⟨_, hexec, State.gateRequest_ungate_applied hi hb hregs⟩
  · intro s hw hisl hregs
    refine ⟨exec_islandIdle_of_busy, fun hidle => ?_, ?_⟩
    · refine ⟨_, exec_islandIdle_of_idle hw hidle, ?_, State.gateDone_status (by decide) hregs, rfl⟩
      rw [State.isl, State.gateDone_isls]
      exact congrArg Isl.gate (State.isl_modIsl_self _ _ hisl)
    · exact ⟨_, exec_gateIdleTimeout_of_waiting hw, rfl, State.gateDone_status (by decide) hregs, rfl⟩
  · intro hi v s0 r s hregs s1
    have hexec : exec (.leaseWrite hi v) s0 = .next (s.leaseWrite hi v) := rfl
    rw [hexec]
    exact ⟨fun hnew hw hb => congrArg _ (State.leaseWrite_of_unasked hregs hb hw hnew),
      fun hw hb hl => ⟨_, rfl, State.leaseWrite_of_asked hregs hb hw hl⟩⟩
  · intro p q gran num s
    refine ⟨_, rfl, ?_, fun o ho hne => ?_, rfl, rfl⟩
    · exact fun h => of_decide_eq_true (List.mem_filter.mp h).2 rfl
    · exact List.mem_filter.mpr ⟨ho, decide_eq_true hne⟩

end

/-! ## Gate calls (R184 to R190)

The request of a call is queued for the mirror before it is entered. The record that takes the backlog to T closes the epoch,
the close hardens every group, and the group that a retry restored then counts in RST.RTYSTAT of its core. For a number that
no core of the module has, the address of that register is the one of PWR.LEASE0. -/

section
namespace Sys2Proof.Machine

/-- The registers do not lie in `power` or in the gate event. -/
theorem State.rf_withEvent (s : State) (e : Bool) (p : Power) (r : Reg) (ix : List Nat) (a b : Nat) :
    State.rf { s with gateEvent := e, power := p } r ix a b = s.rf r ix a b := rfl

/-- The request of a call, queued for the mirror. -/
def State.gateQueued (s : State) (c act : Nat) : State := s.cfgw .pwrGatereq [] (pack [(54, 48, c), (39, 38, act)])

theorem State.gateWrite_eq (s : State) (c act : Nat) : s.gateWrite c act = (s.gateQueued c act).gateRequest 1 c act := rfl

/-- The request finds its island leased once it is queued: it does not wait, and STATUS is PENDING (R185). -/
theorem State.gateWrite_of_leased {s : State} {c act : Nat} (hc : c ≤ 112) (h0 : act ≠ 0) (h3 : act ≠ 3)
    (hb : (s.gateQueued c act).rf .pwrGatereq [] 2 0 ≠ 2) (hl : (s.gateQueued c act).leased c = true)
    (hregs : Map.wf regDefault (s.gateQueued c act).regs = true) :
    (s.gateWrite c act).power.gateWait = false ∧ (s.gateWrite c act).rf .pwrGatereq [] 2 0 = 2 := by
  rw [State.gateWrite_eq, State.gateRequest_of_leased hc hb h0 h3 hl]
  refine ⟨rfl, ?_⟩
  rw [State.rf_withEvent, State.rf, State.reg_setReg_self _ _ _ hregs]
  exact fld_setFld_self _ 2 (by decide)

/-- A PENDING request is answered with status 7 (R190). -/
theorem State.gateServed_of_pending {s : State} (m : Nat) (h : s.rf .pwrGatereq [] 2 0 = 2) :
    s.gateServed m = served (s.modThr m fun t => { t with svcWait := false }) 7 := by
  rw [State.gateServed, if_pos h]

/-- A service whose caller has nothing left to harden, with its level high enough, returns what it answers (R187). -/
theorem State.service_of_served {s s2 : State} {m n lvl st : Nat} {res : List W64}
    {f : Nat → W64 → W64 → W64 → State → Served}
    (hclean : s.hardenThr m = s) (hcalled : s.called m = true) (hn : (s.thr m).cur.g 1 = BitVec.ofNat 64 n)
    (hlvl : lvl ≤ s.callerLvl m)
    (hf : f (s.thr m).cur.pid ((s.thr m).cur.g 2) ((s.thr m).cur.g 3) ((s.thr m).cur.g 4) s = some (st, res, s2)) :
    s.service m n lvl f = s.serviceReturn s2 m st res := by
  simp only [State.service, hclean, hcalled, hn, hf, bne_self_eq_false, Bool.not_true, Bool.or_self, Bool.false_eq_true, if_false,
    if_neg (Nat.not_lt.mpr hlvl)]

/-- A gate call does what its service does, or it posts its request and waits. -/
theorem exec_gateRequest_cases (t : ThreadId) (s : State) :
    exec (.gateRequest t) s = .next (s.service t.val 0x30 2 fun p l act _ s => s.gateCall t.val p l act) ∨
      exec (.gateRequest t) s = .next (s.gatePosted t.val) := by
  change execGateRequest t s = _ ∨ execGateRequest t s = _
  unfold execGateRequest
  extract_lets m a s1 waits
  split
  · exact .inr rfl
  · exact .inl rfl

section
variable {s : State} {m p c : Nat} {l act : W64} (hcore : s.coreFor p l.toNat = some c)
  (hwait : (s.gateWrite c act.toNat).power.gateWait = false)
include hcore hwait

/-- A new gate call whose request does not wait is answered by what became of it. -/
theorem State.gateCall_of_answered (hnew : (s.thr m).svcWait = false) (h0 : act ≠ 0) (h2 : act.toNat ≤ 2)
    (hb : s.rf .pwrGatereq [] 2 0 ≠ 2) : s.gateCall m p l act = (s.gateWrite c act.toNat).gateServed m := by
  simp only [State.gateCall, hnew, hcore, hwait, hb, h0, Nat.not_lt.mpr h2, false_and, Bool.false_eq_true, if_false]

/-- A request that does not wait is not posted. -/
theorem State.gatePosted_of_answered (hclean : s.hardenThr m = s) (hp : (s.thr m).cur.pid = p) (hl : (s.thr m).cur.g 2 = l)
    (hact : (s.thr m).cur.g 3 = act) : s.gatePosted m = s := by
  simp only [State.gatePosted, hclean, hp, hl, hact, hcore, hwait, Bool.false_eq_true, if_false]

end

/-- A call whose request is queued and then finds its island leased is answered with status 7, or changes nothing. -/
theorem exec_gateRequest_of_leased {s : State} {t : ThreadId} {m c k : Nat} {act : W64} (hm : t.val = m) (hk : act.toNat = k)
    (hcalled : s.called m = true) (hclean : s.hardenThr m = s) (hn : (s.thr m).cur.g 1 = BitVec.ofNat 64 0x30)
    (hlvl : 2 ≤ s.callerLvl m) (hnew : (s.thr m).svcWait = false)
    (hcore : s.coreFor (s.thr m).cur.pid ((s.thr m).cur.g 2).toNat = some c) (hact : (s.thr m).cur.g 3 = act) (hc : c ≤ 112)
    (h0 : act ≠ 0) (h2 : k ≤ 2) (hb : s.rf .pwrGatereq [] 2 0 ≠ 2) (hb' : (s.gateQueued c k).rf .pwrGatereq [] 2 0 ≠ 2)
    (hl : (s.gateQueued c k).leased c = true) (hregs : Map.wf regDefault (s.gateQueued c k).regs = true) :
    exec (.gateRequest t) s =
        .next (s.serviceReturn ((s.gateWrite c k).modThr m fun x => { x with svcWait := false }) m 7 []) ∨
      exec (.gateRequest t) s = .next s := by
  subst hm hk hact
  have h0' : ((s.thr t.val).cur.g 3).toNat ≠ 0 := fun h => h0 (BitVec.eq_of_toNat_eq h)
  obtain ⟨hwait, hstatus⟩ := State.gateWrite_of_leased hc h0' (Nat.ne_of_lt (Nat.lt_succ_of_le h2)) hb' hl hregs
  have hserved := (State.gateCall_of_answered hcore hwait hnew h0 h2 hb).trans (State.gateServed_of_pending t.val hstatus)
  refine (exec_gateRequest_cases t s).imp (fun h => h.trans (congrArg _ ?_)) fun h => h.trans (congrArg _ ?_)
  · exact State.service_of_served hclean hcalled hn hlvl hserved
  · exact State.gatePosted_of_answered hcore hwait hclean rfl rfl rfl

/-! ### A lease that a retry's count writes -/

set_option maxRecDepth 100000

/-- The core number, 3,129,376, that puts RST.RTYSTAT at the address of PWR.LEASE0. -/
def leaseClashCore : Nat := (Reg.pwrLease0.addr [] - Reg.rstRtystat.addr [0]) / 8

/-- A thread of that core: the group that a retry restored has not hardened. -/
def leaseClashThread : Thread := { Thread.reset (2 * leaseClashCore) with groups := [Arch.reset (2 * leaseClashCore)] }

/-- The Hypervisor of partition 1 calls on thread 0 to gate the island of its logical core 0. Epochs run with a budget of
768 KiB, and one more record closes the epoch. -/
def nearCloseCall : State :=
  let s := (caller 2 0x30 0 1 0).setRf .scnEpcfg [] 18 0 768
  { s with
    threads := s.threads ++ [(2 * leaseClashCore, leaseClashThread)]
    cores := [(leaseClashCore, { Core.reset leaseClashCore with attempts := 1 })]
    scn := { Scion.reset with running := true, logged := List.replicate 2854 ⟨0, 0⟩ } }

/-- What O36 asks of the state of the call. -/
theorem nearCloseCall_hyps : nearCloseCall.called 0 = true ∧ (nearCloseCall.thr 0).groups = [] ∧
    (∀ l ∈ (nearCloseCall.thr 0).cb, l.data.length ≠ 256) ∧ Map.wf Core.reset nearCloseCall.cores = true ∧
    Map.wf Thread.reset nearCloseCall.threads = true := by decide

/-- What it asks of the request. -/
theorem nearCloseCall_args : (nearCloseCall.thr 0).cur.g 1 = BitVec.ofNat 64 0x30 ∧ 2 ≤ nearCloseCall.callerLvl 0 ∧
    (nearCloseCall.thr 0).svcWait = false ∧
    nearCloseCall.coreFor (nearCloseCall.thr 0).cur.pid ((nearCloseCall.thr 0).cur.g 2).toNat = some 0 ∧
    (nearCloseCall.thr 0).cur.g 3 = 1 ∧ nearCloseCall.rf .pwrGatereq [] 2 0 ≠ 2 ∧ nearCloseCall.leased 0 = false := by decide

/-- With the request queued the epoch has closed, and the count of the retry stands in PWR.LEASE0. -/
theorem nearCloseCall_gateQueued : (nearCloseCall.gateQueued 0 1).reg .pwrLease0 = 0x100000001 ∧
    (nearCloseCall.gateQueued 0 1).leased 0 = true ∧ (nearCloseCall.gateQueued 0 1).rf .pwrGatereq [] 2 0 ≠ 2 ∧
    Map.wf regDefault (nearCloseCall.gateQueued 0 1).regs = true := by decide

/-- The return of the call leaves no request that waits. -/
theorem nearCloseCall_serviceReturn : nearCloseCall.power.gateWait = false ∧
    (nearCloseCall.serviceReturn ((nearCloseCall.gateWrite 0 1).modThr 0 fun x => { x with svcWait := false }) 0 7 []).power.gateWait =
      false := by decide

/-- The request of the call does not wait. -/
theorem exec_gateRequest_nearCloseCall {u : State} (h : exec (.gateRequest 0) nearCloseCall = .next u) :
    u.power.gateWait = false := by
  obtain ⟨hcalled, hgroups, hcb, -, -⟩ := nearCloseCall_hyps
  obtain ⟨hn, hlvl, hnew, hcore, hact, hb, -⟩ := nearCloseCall_args
  obtain ⟨-, hleased, hb', hregs⟩ := nearCloseCall_gateQueued
  obtain ⟨hidle, hreturn⟩ := nearCloseCall_serviceReturn
  rcases exec_gateRequest_of_leased (t := 0) (k := 1) rfl rfl hcalled (State.hardenThr_of_clean hgroups hcb) hn hlvl hnew hcore
    hact (by decide) (by decide) (by decide) hb hb' hleased hregs with hrun | hrun
  · rw [← Host.Outcome.next.inj (hrun.symm.trans h)]
    exact hreturn
  · rw [← Host.Outcome.next.inj (hrun.symm.trans h)]
    exact hidle

end Sys2Proof.Machine
end

section
open Sys2Proof Sys2Proof.Machine

/-- Refutes O36: no premise bounds the threads to those of the module, and a call for an island with no lease is said to
wait. At `nearCloseCall` the record of the request closes the epoch, the retry counted for a core beyond the last one sets
the lease of the island in PWR.LEASE0, and the call is answered with status 7. -/
theorem not_servicesAnswer : ¬ Obligations.ServicesAnswer := by
  unfold Obligations.ServicesAnswer
  intro h
  obtain ⟨hcalled, hgroups, hcb, hcores, hthreads⟩ := nearCloseCall_hyps
  obtain ⟨hn, hlvl, hnew, hcore, hact, hb, hleased⟩ := nearCloseCall_args
  obtain ⟨-, -, -, -, -, -, -, -, -, -, -, -, hgate, -⟩ := h 0 nearCloseCall hcalled hgroups hcb hcores hthreads
  obtain ⟨-, hwaits⟩ := hgate 0 ⟨hn, hlvl⟩ hnew hcore hb
  obtain ⟨u, hu, hwait, -⟩ := hwaits (.inl hact) (by decide) hleased
  exact absurd (hwait.symm.trans (exec_gateRequest_nearCloseCall hu)) (by decide)

end

/-! ## Snoops (R192, R199, R203, R381)

A snooped L2 changes its own line, its core's reservations and first-level copies, and what waits to ship; memory and the
transactions are the home's. -/

section
namespace Sys2Proof.Machine

/-! ### What a snooped L2 leaves alone -/

/-- From `s` to `t` memory and the transactions stand, and the L2s' map stays canonical. -/
def SnoopFrame (s t : State) : Prop :=
  t.mem = s.mem ∧ t.txns = s.txns ∧ (Map.wf L2Line.none s.l2 = true → Map.wf L2Line.none t.l2 = true)

theorem SnoopFrame.trans {s t u : State} (h : SnoopFrame s t) (h' : SnoopFrame t u) : SnoopFrame s u := by
  obtain ⟨hmem, htxns, hwf⟩ := h
  obtain ⟨hmem', htxns', hwf'⟩ := h'
  exact ⟨hmem'.trans hmem, htxns'.trans htxns, hwf' ∘ hwf⟩

theorem SnoopFrame.setL2 (s : State) (c line : Nat) (x : L2Line) : SnoopFrame s (s.setL2 c line x) :=
  ⟨rfl, rfl, Map.wf_set _ x⟩

/-- A line that ships goes to Scion's queue, and its mark clears (R381). -/
theorem SnoopFrame.shipLine (s : State) (c line : Nat) : SnoopFrame s (s.shipLine c line) := by
  unfold State.shipLine
  extract_lets x
  split
  · exact ⟨rfl, rfl, Map.wf_set _ _⟩
  · exact ⟨rfl, rfl, id⟩

theorem SnoopFrame.loseLine (s : State) (c line : Nat) : SnoopFrame s (s.loseLine c line) := by
  exact (SnoopFrame.shipLine s c line).trans
    (SnoopFrame.setL2 (((s.shipLine c line).coreDropRsv c line).l1Drop c line) c line (L2Line.none 0))

/-- An L2 line reads what was last written to it. -/
theorem State.l2l_setL2_self {s : State} (c line : Nat) (x : L2Line) (h : Map.wf L2Line.none s.l2 = true) :
    (s.setL2 c line x).l2l c line = x := Map.get_set_self _ x h

/-- A lost line is in I. -/
theorem State.l2l_loseLine {s : State} (c line : Nat) (h : Map.wf L2Line.none s.l2 = true) :
    (s.loseLine c line).l2l c line = L2Line.none 0 := by
  obtain ⟨-, -, hwf⟩ := SnoopFrame.shipLine s c line
  exact State.l2l_setL2_self (s := ((s.shipLine c line).coreDropRsv c line).l1Drop c line) c line _ (hwf h)

/-- An event counted changes the registers alone. -/
theorem State.pmcEvent_frame (s : State) (b ev thr : Nat) : ∃ regs, s.pmcEvent b ev thr = { s with regs := regs } := by
  have inc : ∀ (s : State) (k : Nat), ∃ regs, s.pmcInc b k = { s with regs := regs } := by
    intro s k
    unfold State.pmcInc
    extract_lets n s1
    split <;> exact ⟨_, rfl⟩
  have count : ∀ (ks : List Nat) (s : State),
      ∃ regs, ks.foldl (fun s k => if s.pmcHit b k ev thr then s.pmcInc b k else s) s = { s with regs := regs } := by
    intro ks
    induction ks with
    | nil => exact fun s => ⟨s.regs, rfl⟩
    | cons k ks ih =>
      intro s
      rw [List.foldl_cons]
      split
      · obtain ⟨regs, h⟩ := inc s k
        rw [h]
        exact ih _
      · exact ih s
  unfold State.pmcEvent
  split
  · exact ⟨s.regs, rfl⟩
  · exact count _ s

/-- A use of a line in the L3 changes the L3, and the counts of a slice whose pinned ways are full (R196, R218). -/
theorem State.l3Use_frame (s : State) (line : Nat) (alloc : Bool) :
    ∃ l3 pinOver regs, s.l3Use line alloc = { s with l3 := l3, pinOver := pinOver, regs := regs } := by
  unfold State.l3Use
  extract_lets x free y k
  split
  · exact ⟨_, _, _, rfl⟩
  · split
    · exact ⟨_, _, _, rfl⟩
    · split
      · exact ⟨_, _, _, rfl⟩
      · split
        · exact ⟨_, _, _, rfl⟩
        · split
          · exact ⟨_, _, _, rfl⟩
          · obtain ⟨regs, h⟩ := State.pmcEvent_frame
              { y with pinOver := Map.set zeroNat y.pinOver k (Map.get zeroNat y.pinOver k + 1) } (blkSlice k) 0x220 0
            exact ⟨_, _, regs, h⟩

/-- A write-back accepted changes the write queue and the L3 (R196). -/
theorem State.acceptWb_frame (s : State) (line : Nat) :
    (s.acceptWb line).mem = s.mem ∧ (s.acceptWb line).txns = s.txns ∧ (s.acceptWb line).l2 = s.l2 := by
  obtain ⟨_, _, _, h⟩ := (s.mcAccept line).l3Use_frame line true
  rw [State.acceptWb, h]
  exact ⟨rfl, rfl, rfl⟩

/-! ### The answer to a snoop -/

/-- An L2 that has no copy says so, and has none afterwards (R203). -/
theorem snoopAns_i (k : Snp) (rcm : Bool) : snoopAns k rcm .i = (.i, .i) := by cases k <;> rfl

/-- What a snoop does: the table's answer is given, the line has the table's state, memory and the transactions stand (R203). -/
theorem State.snoopL2_spec {s : State} (k : Snp) (rcm : Bool) (c line : Nat) (h : Map.wf L2Line.none s.l2 = true) :
    (s.snoopL2 k rcm c line).1 = (snoopAns k rcm (s.l2l c line).st).1 ∧
    ((s.snoopL2 k rcm c line).2.l2l c line).st = (snoopAns k rcm (s.l2l c line).st).2 ∧
    (s.snoopL2 k rcm c line).2.mem = s.mem ∧ (s.snoopL2 k rcm c line).2.txns = s.txns := by
  unfold State.snoopL2
  extract_lets x a s1 s2
  have h1 : SnoopFrame s s1 ∧ (s1.l2l c line).st = a.2 := by
    unfold s1
    split
    · next hi => exact ⟨⟨rfl, rfl, id⟩, by rw [hi, show a = (.i, .i) from hi ▸ snoopAns_i k rcm]⟩
    · split
      · next hi => exact ⟨.loseLine s c line, by rw [State.l2l_loseLine c line h, hi]; rfl⟩
      · exact ⟨.setL2 s c line _, by rw [State.l2l_setL2_self c line _ h]⟩
  obtain ⟨⟨hmem1, htxns1, -⟩, hst1⟩ := h1
  have h2 : s2.mem = s1.mem ∧ s2.txns = s1.txns ∧ s2.l2 = s1.l2 := by
    unfold s2
    split
    · exact s1.acceptWb_frame line
    · exact ⟨rfl, rfl, rfl⟩
  obtain ⟨hmem2, htxns2, hl2⟩ := h2
  have hst2 : (s2.l2l c line).st = a.2 := by rw [← hst1, State.l2l, State.l2l, hl2]
  refine ⟨rfl, ?_, ?_, ?_⟩
  · split <;> exact hst2
  · split <;> exact hmem2.trans hmem1
  · split <;> exact htxns2.trans htxns1

/-! ### The active transaction of a line -/

/-- The active transaction of a line is one of the transactions. -/
theorem State.txn_congr {s t : State} (line : Nat) (h : t.txns = s.txns) : t.txn line = s.txn line := by
  rw [State.txn, State.txn, h]

/-- The active transaction found for a line is of the line. -/
theorem State.line_of_txn {s : State} {line : Nat} {t : Txn} (h : s.txn line = some t) : t.req.line = line := by
  simpa using List.find?_some h

/-- A line with an active transaction, changed, has the changed one (R200). -/
theorem State.txn_setTxn {s : State} {line : Nat} {t t' : Txn} (h : s.txn line = some t) (hline : t'.req.line = line) :
    (s.setTxn t').txn line = some t' := by
  have hp : ((fun u : Txn => u.req.line == line) ∘ fun u => if u.req.line = t'.req.line then t' else u) =
      fun u => u.req.line == line := by
    funext u
    by_cases hu : u.req.line = line <;> simp [hu, hline]
  have hfind : s.txns.find? (fun u => u.req.line == line) = some t := h
  rw [State.txn, State.setTxn, List.find?_map, hp, hfind, Option.map_some, State.line_of_txn h, hline, if_pos rfl]

/-- An L2 that a transaction has still to snoop, and that holds no snoop, answers it (R203, R214). -/
theorem State.snoopRow_of_asked {s : State} {ks : List Snp} {c line : Nat} {t : Txn} (ht : s.txn line = some t)
    (hk : snpOf t.req.kind ∈ ks) (hc : c ∈ t.toSnoop) (hh : s.holds c line = false) :
    s.snoopRow ks c line =
      (s.snoopL2 (snpOf t.req.kind) t.rcm c line).2.setTxn { t with
        toSnoop := t.toSnoop.erase c, flying := t.flying ++ [(c, (s.snoopL2 (snpOf t.req.kind) t.rcm c line).1)] } := by
  simp [State.snoopRow, ht, hk, hc, hh]

end Sys2Proof.Machine
end

section
open Sys2Proof Sys2Proof.Machine

/-- Settles O40: the command is the snoop of the transaction's kind, and each column of the table is the model's answer. -/
theorem snoopAnswers : Obligations.SnoopAnswers := by
  unfold Obligations.SnoopAnswers
  intro c line s t ht hc hh hwf l ask column st a hst hmem
  obtain ⟨ks, hks, hexec⟩ : ∃ ks, snpOf t.req.kind ∈ ks ∧ exec ask s = .next (s.snoopRow ks c.val l) := by
    unfold ask
    cases t.req.kind with
    | rdShared | prefRd => exact ⟨[.shared], by decide, rfl⟩
    | rdOwn | wrInvPart => exact ⟨[.own, .part], by decide, rfl⟩
    | upgrade | wrInv => exact ⟨[.inv], by decide, rfl⟩
    | rdOnce => exact ⟨[.once], by decide, rfl⟩
  have htable : ∀ p ∈ [L2State.i, .s, .f, .e, .o, .m, .ep].zip column, snoopAns (snpOf t.req.kind) t.rcm p.1 = p.2 := by
    unfold column
    cases t.req.kind <;> cases t.rcm <;> decide
  have hans : snoopAns (snpOf t.req.kind) t.rcm (s.l2l c.val l).st = a := hst ▸ htable (st, a) hmem
  obtain ⟨hrsp, hnew, hmemory, htxns⟩ := State.snoopL2_spec (snpOf t.req.kind) t.rcm c.val l hwf
  rw [hans] at hrsp hnew
  rw [State.snoopRow_of_asked ht hks hc hh, hrsp] at hexec
  have hline : t.req.line = l := State.line_of_txn ht
  exact ⟨_, hexec, hnew, State.txn_setTxn ((State.txn_congr l htxns).trans ht) hline, hmemory⟩

end

/-! ## Requests at their home (R199, R200, R202, R207, R208)

A request of an L2 is let out when its line is in the state that asks for it and none is outstanding; the home then decides by
the line's transaction and its trackers. -/

section
namespace Sys2Proof.Machine

/-- The transaction that a request begins at its home: every L2 that has the line, but the requester's own, is still to be
snooped, and no response is in (R199, R200). -/
def State.begun (s : State) (r : Req) : State := { s with
  txns := s.txns ++ [⟨r, decide (0 < s.rcm), (s.holders r.line).filter (fun k => some k != r.core?), [], [], [],
    s.wbs.any (fun w => w.line == r.line && w.accepted), false, false, []⟩] }

/-- The request waits as the last behind the active transaction of its line (R200). -/
def State.queuedBehind (s : State) (r : Req) : State := { s with
  txns := s.txns.map fun u => if u.req.line = r.line then { u with queue := u.queue ++ [r] } else u }

/-- The L2 has no request for the line outstanding, and room for one (R207). -/
def State.fresh (s : State) (c line : Nat) : Prop :=
  s.l2Requests c < 64 ∧ (∀ r ∈ s.ingress ++ s.atRing, ¬ (r.agent = .core c ∧ r.line = line)) ∧ (c, line) ∉ s.prefCmp ∧
    ∀ t ∈ s.txns, ∀ r ∈ t.req :: t.queue, ¬ (r.agent = .core c ∧ r.line = line)

section
variable {s : State} {c pid line : Nat} {kind : ReqKind} {agent : Agent} {data : List (Nat × Byte)}

/-- A request but an Upgrade becomes active as it is (R200, R201). -/
theorem State.activate_of_ne_upgrade (h : kind ≠ .upgrade) :
    s.activate ⟨kind, agent, line, data⟩ [] = s.begun ⟨kind, agent, line, data⟩ := by
  have hkind : (kind == .upgrade) = false := beq_eq_false_iff_ne.mpr h
  cases agent <;> simp [State.activate, State.begun, hkind]

/-- An Upgrade of a copy that is there is not served as RdOwn (R201). -/
theorem State.activate_upgrade (h : (s.l2l c line).st = .s ∨ (s.l2l c line).st = .f ∨ (s.l2l c line).st = .o) :
    s.activate ⟨.upgrade, .core c, line, []⟩ [] = s.begun ⟨.upgrade, .core c, line, []⟩ := by
  rcases h with h | h | h <;> simp [State.activate, State.begun, h]

/-- With no active transaction of its line and a free tracker, a request becomes active (R200). -/
theorem State.order_of_trackerFree (r : Req) (ht : s.txn r.line = none) (hf : s.trackerFree r.line = true) :
    s.order r = s.activate r [] := by
  simp [State.order, ht, hf]

/-- A request but an Upgrade then begins its transaction. -/
theorem State.order_begins (hk : kind ≠ .upgrade) (ht : s.txn line = none) (hf : s.trackerFree line = true) :
    s.order ⟨kind, agent, line, data⟩ = s.begun ⟨kind, agent, line, data⟩ :=
  (State.order_of_trackerFree ⟨kind, agent, line, data⟩ ht hf).trans (State.activate_of_ne_upgrade hk)

/-- Behind an active transaction with room in its conflict queue, a request waits there (R200). -/
theorem State.order_waits {t : Txn} (ht : s.txn line = some t) (hq : t.queue.length < 16) :
    s.order ⟨kind, agent, line, data⟩ = s.queuedBehind ⟨kind, agent, line, data⟩ := by
  simp [State.order, State.queuedBehind, ht, hq]

/-- A line that no request of the L2 is outstanding for (R207). -/
theorem State.asked_eq_false_of_fresh (h : s.fresh c line) : s.asked c line = false := by
  obtain ⟨-, hwaiting, hcmp, htxns⟩ := h
  have hother : ∀ r : Req, ¬ (r.agent = .core c ∧ r.line = line) → ¬ (r.agent == .core c && r.line == line) = true := by simp
  simp only [State.asked, Bool.or_eq_false_iff, List.any_eq_false]
  refine ⟨⟨⟨fun r hr => hother r (hwaiting r (List.mem_append_left _ hr)),
    fun r hr => hother r (hwaiting r (List.mem_append_right _ hr))⟩, by simpa using hcmp⟩, fun t ht => ?_⟩
  rw [Bool.or_eq_true, List.any_eq_true]
  rintro (hmine | ⟨r, hr, hmine⟩)
  · exact hother _ (htxns t ht _ List.mem_cons_self) hmine
  · exact hother r (htxns t ht r (List.mem_cons_of_mem _ hr)) hmine

/-- The request of a transaction is outstanding. -/
theorem State.asked_begun : (s.begun ⟨kind, .core c, line, data⟩).asked c line = true := by
  simp [State.asked, State.begun]

/-- A read of an L2 that has the line in I goes to its home (R202, R207). -/
theorem coreReq_of_miss (hk : kind ≠ .upgrade) (hst : (s.l2l c line).st = .i) (h : s.fresh c line)
    (hd : s.isDram (line * 256) = true) : coreReq s kind c line = s.order ⟨kind, .core c, line, []⟩ := by
  have hask := State.asked_eq_false_of_fresh h
  obtain ⟨hroom, -⟩ := h
  cases kind with
  | upgrade => exact absurd rfl hk
  | _ => simp [coreReq, hst, hask, hroom, hd]

/-- An Upgrade of an L2 that has the line in S, F or O goes to its home (R202, R207). -/
theorem coreReq_upgrade (hst : (s.l2l c line).st = .s ∨ (s.l2l c line).st = .f ∨ (s.l2l c line).st = .o) (h : s.fresh c line)
    (hd : s.isDram (line * 256) = true) : coreReq s .upgrade c line = s.order ⟨.upgrade, .core c, line, []⟩ := by
  have hask := State.asked_eq_false_of_fresh h
  obtain ⟨hroom, -⟩ := h
  rcases hst with hst | hst | hst <;> simp [coreReq, hst, hask, hroom, hd]

/-- A demand miss at an open home begins its transaction, and the prefetch of the next line goes with it (R202, R208). -/
theorem demandReq_of_miss {thr : Nat} (hk : kind ≠ .upgrade) (hst : (s.l2l c line).st = .i) (h : s.fresh c line)
    (hd : s.isDram (line * 256) = true) (ht : s.txn line = none) (hf : s.trackerFree line = true) :
    demandReq s kind c thr line = prefReq (s.begun ⟨kind, .core c, line, []⟩) c (s.prefPid c thr) (line + 1) := by
  have hreq : coreReq s kind c line = s.begun ⟨kind, .core c, line, []⟩ := by
    rw [coreReq_of_miss hk hst h hd, State.order_begins hk ht hf]
  simp [demandReq, hreq, State.asked_eq_false_of_fresh h, State.asked_begun]

/-- R208 lets an L2 issue the next-line prefetch of such a line. -/
theorem State.prefetchOk_of_fresh (hpage : line % 16 ≠ 0) (hst : (s.l2l c line).st = .i) (h : s.fresh c line)
    (hroom : s.l2Requests c ≤ 56) (hon : bit (s.reg .potPfdis []) pid = false) (hd : s.isDram (line * 256) = true) :
    s.prefetchOk c pid line 0 = true := by
  simp [State.prefetchOk, hpage, hst, State.asked_eq_false_of_fresh h, hd, hon, hroom]

/-- When a home drops a PrefRd (R208, R215). -/
theorem State.dropsPref_iff : s.dropsPref line = true ↔ s.txn line ≠ none ∨ 224 < s.trackers (sliceOf line) ∨ s.poisoned line = true := by
  simp [State.dropsPref, State.trackers, or_assoc, Option.isSome_iff_ne_none]

/-- A PrefRd that its home drops waits for its Cmp (R199, R208). -/
theorem prefReq_of_drops (hok : s.prefetchOk c pid line 0 = true) (h : s.dropsPref line = true) :
    prefReq s c pid line = { s with prefCmp := s.prefCmp ++ [(c, line)] } := by
  simp [prefReq, hok, h]

/-- Any other becomes active (R200, R208). -/
theorem prefReq_of_taken (hok : s.prefetchOk c pid line 0 = true) (h : s.dropsPref line = false)
    (ht : s.txn line = none) (hf : s.trackerFree line = true) : prefReq s c pid line = s.begun ⟨.prefRd, .core c, line, []⟩ := by
  rw [← State.order_begins (by simp) ht hf]
  simp [prefReq, hok, h]

/-! The commands of the hub blocks and of the combining buffers, for a line of DRAM (R199, R210, R211). -/

theorem exec_rdonce {l : Line} (stop : HubStop) (hd : s.isDram (l.toNat * 256) = true) :
    exec (.rdonce stop l) s = .next (s.order ⟨.rdOnce, .hub (hubStopNo stop), l.toNat, []⟩) :=
  congrArg Host.Outcome.next (if_pos hd)

theorem exec_wrinv {l : Line} (src : WriteSource) (full : List Byte) (hd : s.isDram (l.toNat * 256) = true) :
    exec (.wrinv src l full) s = .next (s.order ⟨.wrInv, sourceAgent src, l.toNat, lineData full⟩) :=
  congrArg Host.Outcome.next (if_pos hd)

theorem exec_wrinvpart {l : Line} (src : WriteSource) (part : List (BitVec 8 × Byte)) (hd : s.isDram (l.toNat * 256) = true) :
    exec (.wrinvpart src l part) s =
      .next (s.order ⟨.wrInvPart, sourceAgent src, l.toNat, part.map fun p => (p.1.toNat, p.2)⟩) :=
  congrArg Host.Outcome.next (if_pos hd)

end
end Sys2Proof.Machine
end

section
open Sys2Proof Sys2Proof.Machine

/-- Settles O39: a request that is let out is ordered; the tracker and the conflict queue decide where it goes. -/
theorem requestsAreOrdered : Obligations.RequestsAreOrdered := by
  unfold Obligations.RequestsAreOrdered
  intro c thr line stop src full part s l st hdram begun begins pid mine fresh prefetches
  have hd : s.isDram (l * 256) = true := decide_eq_true hdram
  have hok : prefetches → s.prefetchOk c.val pid l 0 = true := by
    rintro ⟨hpage, hst, hfresh, hroom, hon⟩
    exact State.prefetchOk_of_fresh hpage hst hfresh hroom hon hd
  refine ⟨fun hpref hdrops => ?_, fun ht hf => ⟨fun hst hfresh => ⟨?_, ?_⟩, fun hpref hroom hclean => ?_, fun hst hfresh => ?_,
    ?_, ?_, ?_⟩, fun t ht hq => ⟨?_, ?_, ?_⟩⟩
  · exact congrArg Host.Outcome.next (prefReq_of_drops (hok hpref) (State.dropsPref_iff.mpr hdrops))
  · exact congrArg Host.Outcome.next (demandReq_of_miss (by simp) hst hfresh hd ht hf)
  · exact congrArg Host.Outcome.next (demandReq_of_miss (by simp) hst hfresh hd ht hf)
  · have htaken : s.dropsPref l = false := by
      rw [← Bool.not_eq_true, State.dropsPref_iff]
      simp [ht, hroom, hclean]
    exact congrArg Host.Outcome.next (prefReq_of_taken (hok hpref) htaken ht hf)
  · exact congrArg Host.Outcome.next ((coreReq_upgrade hst hfresh hd).trans
      ((State.order_of_trackerFree ⟨.upgrade, .core c.val, l, []⟩ ht hf).trans (State.activate_upgrade hst)))
  · exact (exec_rdonce stop hd).trans (congrArg Host.Outcome.next (State.order_begins (by simp) ht hf))
  · exact (exec_wrinv src full hd).trans (congrArg Host.Outcome.next (State.order_begins (by simp) ht hf))
  · exact (exec_wrinvpart src part hd).trans (congrArg Host.Outcome.next (State.order_begins (by simp) ht hf))
  · exact (exec_rdonce stop hd).trans (congrArg Host.Outcome.next (State.order_waits ht hq))
  · exact (exec_wrinv src full hd).trans (congrArg Host.Outcome.next (State.order_waits ht hq))
  · exact (exec_wrinvpart src part hd).trans (congrArg Host.Outcome.next (State.order_waits ht hq))

end

/-! ## A dirty line that its core must keep (R88, R207)

While a routine has still to write the flag of a descriptor in a line, its core keeps the line: the L2 does not choose it for
replacement. -/

section
namespace Sys2Proof.Machine

/-- A line that its core must keep is not written back (R88). -/
theorem exec_wbdata_of_keeps {c : CoreId} {line : Line} {s : State} (h : s.keeps c.val line.toNat = true) :
    exec (.wbdata c line) s = .next s :=
  congrArg Host.Outcome.next (if_pos h)

/-- The store that sets the flag of a descriptor in line 5, in its store-buffer entry. -/
def flagEntry : SbEntry := ⟨false, 5, [⟨0x500, [1], 0, 0, 0, 0, 0, true⟩], none, 0⟩

/-- Thread 0 has the store still to perform, and its L2 has the line in M. -/
def flagUnwritten : State := { State.reset.setL2 0 5 ⟨.m, false, 0⟩ with
  threads := [(0, { Thread.reset 0 with sb := [flagEntry] })] }

theorem flagUnwritten_keeps : flagUnwritten.keeps 0 5 = true := by decide

theorem flagUnwritten_l2l : (flagUnwritten.l2l 0 5).st = .m := by decide

end Sys2Proof.Machine
end

section
open Sys2Proof Sys2Proof.Machine

/-- Refutes O41: WbData is said to leave every line in M or O in EP, also one that its core must keep. At `flagUnwritten` a
descriptor's flag has still to be written in the line (R88), which stays in M. -/
theorem not_transactionsComplete : ¬ Obligations.TransactionsComplete := by
  unfold Obligations.TransactionsComplete
  intro h
  obtain ⟨-, -, -, -, hwbdata, -⟩ := h 0 5 flagUnwritten (by decide) (by decide) (by decide)
  obtain ⟨u, hu, hst, -⟩ := hwbdata (.inl flagUnwritten_l2l)
  have hsame : flagUnwritten = u := Host.Outcome.next.inj ((exec_wbdata_of_keeps flagUnwritten_keeps).symm.trans hu)
  rw [← hsame] at hst
  exact absurd (flagUnwritten_l2l.symm.trans hst) (by decide)

end

/-! ## Device stores and loads (R226, R227, R238, R240, R245) -/

section
namespace Sys2Proof.Machine

/-! ### The close of an epoch where no record is kept -/

theorem Scion.pump_running (raw : Bool) (x : Scion) : (x.pump raw).running = x.running := by
  unfold Scion.pump
  split <;> rfl

/-- The CLOSE of an epoch changes what Scion holds and nothing else. -/
theorem State.closeQueued_frame (s : State) : ∃ x : Scion, x.running = s.scn.running ∧ s.closeQueued = { s with scn := x } := by
  unfold State.closeQueued
  split
  · exact ⟨s.scn, rfl, rfl⟩
  · split
    · refine ⟨_, ?_, rfl⟩
      exact Scion.pump_running _ _
    · exact ⟨s.scn, rfl, rfl⟩

theorem State.epochCloseNow_of_stopped {s : State} (h : s.scn.running = false) : s.epochCloseNow = s :=
  if_pos (by rw [h]; rfl)

/-- While Scion is not replicating, an epoch may still end; nothing but Scion's own state changes by it. -/
theorem State.queueClose_frame {s : State} (h : s.scn.running = false) : ∃ x : Scion, s.queueClose = { s with scn := x } := by
  obtain ⟨x, hx, hs⟩ := s.closeQueued_frame
  by_cases hc : (s.closeQueued.scn.closing.isNone && s.closeQueued.scn.wantClose) = true
  · have hstopped : s.closeQueued.scn.running = false := (congrArg (fun u => u.scn.running) hs).trans (hx.trans h)
    have hclose : s.queueClose = { s.closeQueued with scn := { s.closeQueued.scn with wantClose := false } } :=
      (if_pos hc).trans (State.epochCloseNow_of_stopped hstopped)
    exact ⟨_, hclose.trans (by rw [hs])⟩
  · exact ⟨x, (if_neg hc).trans hs⟩

/-! ### The MMIO side of a port -/

theorem State.mmioPort_modMmio_self {s : State} (p : Nat) (f : MmioPort → MmioPort) (h : Map.wf MmioPort.reset s.mmio = true) :
    (s.modMmio p f).mmioPort p = f (s.mmioPort p) := Map.get_set_self p _ h

/-- The form in which a thread's store stands at its port. -/
def Store.posted (x : Store) : MmioStore := ⟨x.addr, x.bytes, x.who, x.pid⟩

theorem MmioPort.queueFlush_tracked (p : MmioPort) : p.queueFlush.tracked = p.tracked := by
  simp only [MmioPort.queueFlush]
  split <;> rfl

theorem MmioPort.post_tracked {p : MmioPort} (x : MmioStore) (h : p.lost = false) : (p.post x).tracked = p.tracked ++ [x] := by
  simp only [MmioPort.post, h, Bool.false_eq_true, if_false]
  split
  · exact MmioPort.queueFlush_tracked _
  · rfl

/-- The 192nd tracked store queues a flush read, unless the last one covers it (R238). -/
theorem MmioPort.post_flushes {p : MmioPort} (x : MmioStore) (h : p.lost = false) : (p.post x).flushes =
    if p.tracked.length = 191 ∧ p.flushes.getLast? ≠ some 192 then p.flushes ++ [192] else p.flushes := by
  by_cases hn : p.tracked.length = 191
  · by_cases hl : p.flushes.getLast? = some 192 <;> simp [MmioPort.post, MmioPort.queueFlush, h, hn, hl]
  · simp [MmioPort.post, h, hn]

theorem MmioPort.queueFlush_of_uncovered {p : MmioPort} (hne : p.tracked ≠ []) (hl : p.flushes.getLast? ≠ some p.tracked.length) :
    p.queueFlush = { p with flushes := p.flushes ++ [p.tracked.length] } :=
  if_neg (not_or.mpr ⟨mt List.length_eq_zero_iff.mp hne, hl⟩)

/-- A port whose path has not failed, which holds no store and has a place, in a module that transmits: the next store to it
leaves at once (R20, R238). -/
structure State.PortOpen (s : State) (port : Nat) : Prop where
  transmits : s.transmits = true
  kept : (s.mmioPort port).lost = false
  empty : (s.mmioPort port).held = []
  room : (s.mmioPort port).tracked.length < 256

section
variable {s : State}

theorem State.PortOpen.mmioRoom {port : Nat} (h : s.PortOpen port) : s.mmioRoom port = true := by
  simp [State.mmioRoom, h.empty, h.room]

theorem State.PortOpen.mmioPost {port : Nat} (h : s.PortOpen port) (x : MmioStore) :
    s.mmioPost port x = s.modMmio port (·.post x) := by
  simp [State.mmioPost, State.modMmio, State.mmioFree, h.transmits, h.empty, h.room]

theorem not_isDoorbell_of_isMmio {a : Nat} (h : isMmio a = true) : isDoorbell a = false := by
  simp only [isMmio, isDoorbell, Bool.and_eq_true, decide_eq_true_eq, Bool.and_eq_false_iff, decide_eq_false_iff_not] at *
  omega

theorem State.PortOpen.modThr {port : Nat} (h : s.PortOpen port) (m : Nat) (f : Thread → Thread) : (s.modThr m f).PortOpen port :=
  ⟨h.transmits, h.kept, h.empty, h.room⟩

theorem State.deviceStore_mmio {st : Store} (hm : isMmio st.addr = true) (hrun : s.scn.running = false) (hrole : s.scn.role ≠ 1)
    (hopen : s.PortOpen (Machine.mmioPort st.addr)) :
    s.deviceStore st = s.modMmio (Machine.mmioPort st.addr) (·.post st.posted) := by
  rw [← hopen.mmioPost]
  simp [State.deviceStore, State.mmioSend, Store.posted, hm, hrun, hrole]

/-- An entry has left the thread's store buffer. -/
def Thread.dropEntry (e : SbEntry) (t : Thread) : Thread := { t with sb := t.sb.erase e }

theorem State.deviceEntry_single {m : Nat} {e : SbEntry} {st : Store} (he : e.stores = [st]) :
    s.deviceEntry m e = ((s.modThr m (Thread.dropEntry e)).deviceStore st).queueClose.dozeIfDue := by
  rw [State.deviceEntry, he]
  rfl

theorem State.dozeIfDue_of_not (h : s.power.dozeWait = false) : s.dozeIfDue = s := if_neg (by simp [h])

/-- An MMIO store that its open port takes: its entry is gone and the port has it (R227, R238). -/
theorem State.deviceEntry_mmio {m : Nat} {e : SbEntry} {st : Store} (he : e.stores = [st]) (hm : isMmio st.addr = true)
    (hrun : s.scn.running = false) (hrole : s.scn.role ≠ 1) (hopen : s.PortOpen (Machine.mmioPort st.addr))
    (hdoze : s.power.dozeWait = false) : ∃ x : Scion, s.deviceEntry m e =
      { (s.modThr m (Thread.dropEntry e)).modMmio (Machine.mmioPort st.addr) (·.post st.posted) with scn := x } := by
  have hpost := State.deviceStore_mmio (s := s.modThr m (Thread.dropEntry e)) hm hrun hrole (hopen.modThr m _)
  obtain ⟨x, hx⟩ := State.queueClose_frame (s := (s.modThr m (Thread.dropEntry e)).modMmio
    (Machine.mmioPort st.addr) (·.post st.posted)) hrun
  refine ⟨x, ?_⟩
  rw [State.deviceEntry_single he, hpost, hx]
  exact State.dozeIfDue_of_not hdoze

/-- The oldest store of its page leaves where it has hardened, the buffer drains, and it is an MMIO store whose port takes it. -/
theorem exec_deviceStoreSend_mmio {t : ThreadId} {page : BitVec 36} {e : SbEntry} {st : Store}
    (hfind : (s.thr t.val).sb.find? (fun e => e.device && e.line / 16 == page.toNat) = some e) (he : e.stores = [st])
    (hhard : (s.thr t.val).hardened e = true) (hisl : s.islRuns (t.val / 2) = true) (hm : isMmio st.addr = true)
    (hopen : s.PortOpen (Machine.mmioPort st.addr)) : exec (.deviceStoreSend t page) s = .next (s.deviceEntry t.val e) := by
  show execDeviceStoreSend t page s = _
  simp [execDeviceStoreSend, hfind, he, hhard, hm, State.drains, hisl, hopen.mmioRoom, not_isDoorbell_of_isMmio hm]

/-! ### Flush reads -/

theorem State.releasePort_of_none {ok : Nat → Bool} {n : Nat} (h : s.releaseOne ok n = none) : ∀ k, State.releasePort ok n k s = s
  | 0 => rfl
  | k + 1 => by simp only [State.releasePort, h]

/-- Nothing leaves a port for which nothing is held. -/
theorem State.releaseAt_of_empty {ok : Nat → Bool} {n : Nat} (hstores : (s.mmioPort n).held = []) (hmsgs : ∀ h ∈ s.held, h.port ≠ n)
    (hend : (s.port n).ending = false) : s.releaseAt ok n = s := by
  have hfind : (s.held.find? fun h => h.port == n) = none := by simpa [List.find?_eq_none] using hmsgs
  have hone : s.releaseOne ok n = none := by simp only [State.releaseOne, hfind, hstores]
  rw [State.releaseAt, State.releasePort_of_none hone]
  exact if_neg (by simp [hend])

theorem exec_flushReadTimer {p : PortId} (hne : (s.mmioPort p.val).tracked ≠ []) :
    exec (.flushReadTimer p) s = .next (s.modMmio p.val MmioPort.queueFlush) :=
  congrArg Host.Outcome.next (if_neg (by simpa using hne))

/-- The oldest flush read, which covers `n` stores, has completed (R238): those from before the epochs are counted apart (log 66). -/
def MmioPort.flushed (n : Nat) (rest : List Nat) (x : MmioPort) : MmioPort := { x with
  tracked := x.tracked.drop n, flushes := rest.map (· - n), performed := x.performed + (min n x.tracked.length - x.skip),
  skip := x.skip - min n x.tracked.length }

theorem exec_flushReadComplete {p : PortId} {n : Nat} {rest : List Nat} (hflush : (s.mmioPort p.val).flushes = n :: rest)
    (hstores : (s.mmioPort p.val).held = []) (hmsgs : ∀ h ∈ s.held, h.port ≠ p.val) (hend : (s.port p.val).ending = false)
    (hwf : Map.wf MmioPort.reset s.mmio = true) :
    exec (.flushReadComplete p) s = .next (s.modMmio p.val (MmioPort.flushed n rest)) := by
  have hstores' : ((s.modMmio p.val (MmioPort.flushed n rest)).mmioPort p.val).held = [] := by
    rw [State.mmioPort_modMmio_self _ _ hwf]
    exact hstores
  show execFlushReadComplete p s = _
  rw [execFlushReadComplete, hflush]
  exact congrArg Host.Outcome.next (State.releaseAt_of_empty hstores' hmsgs hend)

/-- The tracked stores of a port are lost, and its path fails (R240). -/
def MmioPort.loseTracked (x : MmioPort) : MmioPort := { x with
  tracked := [], flushes := [], lost := true, skip := x.skip - x.tracked.length }

theorem State.mmioPort_mmioLose {p : Nat} (hwf : Map.wf MmioPort.reset (s.loseStores (s.mmioPort p).tracked).mmio = true) :
    (s.mmioLose p).mmioPort p = ((s.loseStores (s.mmioPort p).tracked).mmioPort p).loseTracked :=
  State.mmioPort_modMmio_self p MmioPort.loseTracked hwf

theorem exec_mmioTimeout {p : PortId} (h : (s.mmioPort p.val).flushes ≠ []) :
    exec (.mmioTimeout p) s = .next ((s.mmioLose p.val).failPort true p.val) :=
  congrArg Host.Outcome.next (if_neg (by simpa using h))

/-! ### Loads -/

theorem fit_of_length {n : Nat} {bs : List Byte} (h : bs.length = n) : fit n bs = bs := by
  simp [fit, ← h]

/-- A load's answer of the bytes `bs` is in the thread. -/
def State.devAnswered (s : State) (m : Nat) (d : DevLoad) (bs : List Byte) : State :=
  s.setThr m { s.thr m with devLoad := none, devVal := some (d.addr, ofBytes bs) }

theorem State.devAnswer_good {m : Nat} {d : DevLoad} {bs : List Byte} (h : (s.thr m).devLoad = some d)
    (hlen : bs.length = loadSize d.op) : s.devAnswer m (some bs) = s.devAnswered m d bs := by
  simp [State.devAnswer, h, fit_of_length hlen, State.devAnswered, State.modThr]

theorem State.devAnswer_none {m : Nat} {d : DevLoad} (h : (s.thr m).devLoad = some d) :
    s.devAnswer m none = (s.devAnswered m d (List.replicate (loadSize d.op) 0xFF)).coreFault
      (m / 2) clsContained 0x0121 (s.thr m).cur.chkPid d.addr 0 (some m) := by
  simp [State.devAnswer, h, State.devAnswered, State.modThr]

/-! ### The buffers of a reset partition -/

theorem storeBefore_of_born {x y : Store × Nat} (h : x.1.born < y.1.born) : storeBefore x y = true := by
  simp [storeBefore, h]

theorem not_storeBefore_of_born {x y : Store × Nat} (h : y.1.born < x.1.born) : storeBefore x y = false := by
  simp [storeBefore, show ¬ x.1.born < y.1.born by omega, show x.1.born ≠ y.1.born by omega]

theorem oldestOf_mem : ∀ {l : List (Store × Nat)} {y}, oldestOf l = some y → y ∈ l
  | [], _, h => nomatch h
  | x :: xs, y, h => by
    simp only [oldestOf] at h
    split at h
    next z hz =>
      obtain rfl := Option.some.inj h
      split
      · exact List.mem_cons_of_mem _ (oldestOf_mem hz)
      · exact List.mem_cons_self
    next => exact Option.some.inj h ▸ List.mem_cons_self

/-- A store born before all the others is the oldest. -/
theorem oldestOf_of_born {old : Store × Nat} : ∀ {l : List (Store × Nat)}, old ∈ l →
    (∀ y ∈ l, y = old ∨ old.1.born < y.1.born) → oldestOf l = some old
  | x :: xs, hmem, hold => by
    obtain ⟨hx, hxs⟩ := List.forall_mem_cons.mp hold
    rw [oldestOf]
    rcases hx with rfl | hlater
    · split
      next y hy =>
        rcases hxs y (oldestOf_mem hy) with rfl | hlater
        · simp
        · simp [not_storeBefore_of_born hlater]
      next => rfl
    · have hin : old ∈ xs := by
        rcases List.mem_cons.mp hmem with rfl | hin
        · exact absurd hlater (Nat.lt_irrefl _)
        · exact hin
      rw [oldestOf_of_born hin hxs]
      simp [storeBefore_of_born hlater]

theorem State.thread_of_mem_buffered {m : Nat} {x : Store × Nat} (h : x ∈ s.buffered m) : x.2 = m := by
  obtain ⟨_, -, rfl⟩ := List.mem_map.mp h
  rfl

/-- The buffers of a reset partition's one thread are emptied, with the record of their oldest store (R245). -/
theorem exec_partitionDrainTimeout {p : Pid} {x : PReset} {m : Nat} {old : Store × Nat}
    (hreset : s.presets.find? (fun x => x.pid == p.val) = some x) (hone : x.threads = [m])
    (hold : oldestOf (s.buffered m) = some old) : exec (.partitionDrainTimeout p) s =
      .next ((s.setThr m { s.thr m with sb := [], cb := [] }).coreFault (m / 2) clsContained 0x0122 p.val old.1.addr 0
        (some m)).queueClose := by
  have hm : old.2 = m := State.thread_of_mem_buffered (oldestOf_mem hold)
  show execPartitionDrainTimeout p s = _
  simp [execPartitionDrainTimeout, hreset, hone, hold, hm, State.modThr]

end
end Sys2Proof.Machine
end

section
open Sys2Proof Sys2Proof.Machine

/-- Settles O42: a store that its port takes, the flush reads that count it, the answers of a load, and the discarded
buffers of a reset partition. -/
theorem deviceAccesses : Obligations.DeviceAccesses := by
  unfold Obligations.DeviceAccesses
  refine ⟨?_, ?_, ?_, ?_⟩
  · intro t page s e st x port hfind he hhard hisl hm hrun hrole htrans hlost hheld hroom hdoze hthr hmmio
    have hopen : s.PortOpen port := ⟨htrans, hlost, hheld, hroom⟩
    obtain ⟨scn, hentry⟩ := State.deviceEntry_mmio (m := t.val) he hm hrun hrole hopen hdoze
    have hport := State.mmioPort_modMmio_self port (·.post st.posted) hmmio
    refine ⟨_, (exec_deviceStoreSend_mmio hfind he hhard hisl hm hopen).trans (congrArg _ hentry), ?_, rfl, ?_, ?_⟩
    · exact congrArg Thread.sb (State.thr_modThr_self t.val (Thread.dropEntry e) hthr)
    · exact (congrArg MmioPort.tracked hport).trans (MmioPort.post_tracked st.posted hlost)
    · exact (congrArg MmioPort.flushes hport).trans (MmioPort.post_flushes st.posted hlost)
  · intro p s x becomes
    refine ⟨fun hne hlast => ?_, fun n rest hflush hheld hmsgs hend hwf => ?_, fun hne hwf => ?_⟩
    · exact (exec_flushReadTimer hne).trans
        (congrArg (fun y => Host.Outcome.next (becomes y)) (MmioPort.queueFlush_of_uncovered hne hlast))
    · exact ⟨_, exec_flushReadComplete hflush hheld hmsgs hend hwf, rfl, rfl, State.mmioPort_modMmio_self p.val _ hwf⟩
    · have hport := State.mmioPort_mmioLose hwf
      exact ⟨_, exec_mmioTimeout hne, congrArg MmioPort.tracked hport, congrArg MmioPort.lost hport, rfl⟩
  · intro t bytes d s hd n x ones
    have hn : n = loadSize d.op := by cases hop : d.op <;> simp [n, hop, loadSize]
    have hones : s.devAnswer t.val none = ones := by rw [State.devAnswer_none hd, ← hn]; rfl
    exact ⟨fun hlen => congrArg Host.Outcome.next (State.devAnswer_good hd (hlen.trans hn)),
      congrArg Host.Outcome.next hones, congrArg Host.Outcome.next hones⟩
  · intro p s x m old hreset hone hmem hold
    exact exec_partitionDrainTimeout hreset hone (oldestOf_of_born hmem hold)

end

/-! ## The address map of a channel (R253) -/

section
namespace Sys2Proof.Machine

/-- The coordinates of a line give its channel-local number back, the low column last (R253). -/
theorem Dimm.decode_spec (d : Dimm) (dpc k : Nat) (hcol : 7 ≤ d.colBits) :
    let x := d.decode dpc k
    let g := 2 ^ d.bgBits
    let b := 2 ^ d.bankBits
    let c := 2 ^ (d.colBits - 7)
    k = (((((((x.row * c + x.col / 4) * d.stack + x.cid) * dpc + x.dimm) * d.ranks + x.rank) * b + (x.bank ^^^ (x.row / g % b))) * g) +
      (x.bg ^^^ (x.row % g))) * 4 + x.col % 4 := by
  intro x g b c
  have hcols : 2 ^ d.colBits / 128 = c := Nat.pow_div hcol (by decide : 0 < 2)
  have hhigh (q : Nat) : (q * 4 + k % 4) / 4 = q := by omega
  have hlow (q : Nat) : (q * 4 + k % 4) % 4 = k % 4 := by omega
  simp only [x, g, b, Dimm.decode, hcols, hhigh, hlow, Nat.xor_assoc, Nat.xor_self, Nat.xor_zero, Nat.div_add_mod']

end Sys2Proof.Machine
end

/-! ## The outer code (R250, R255, R256, R257) -/

section
namespace Sys2Proof.Machine

/-- Is every codeword so far clean or corrected? -/
def Decode.correctable : Decode → Bool
  | .clean | .corrected _ => true
  | .uncorrectable | .beyond => false

theorem Decode.correctable_and (a b : Decode) : (a.and b).correctable = (a.correctable && b.correctable) := by
  cases a <;> cases b <;> rfl

theorem Decode.and_eq_clean {a b : Decode} : a.and b = .clean ↔ a = .clean ∧ b = .clean := by
  cases a <;> cases b <;> simp [Decode.and]

theorem Decode.and_eq_uncorrectable {a b : Decode} : a.and b = .uncorrectable ↔ a = .uncorrectable ∨ b = .uncorrectable := by
  cases a <;> cases b <;> simp [Decode.and]

theorem Decode.exists_corrected {d : Decode} (hc : d.correctable = true) (hne : d ≠ .clean) : ∃ pos, d = .corrected pos := by
  cases d with
  | corrected pos => exact ⟨pos, rfl⟩
  | clean => exact absurd rfl hne
  | uncorrectable | beyond => exact absurd hc (by decide)

theorem foldl_and_correctable : ∀ {l : List Decode} {a : Decode},
    (l.foldl Decode.and a).correctable = true ↔ a.correctable = true ∧ ∀ d ∈ l, d.correctable = true
  | [], a => by simp
  | d :: l, a => by
    rw [List.foldl_cons, foldl_and_correctable, Decode.correctable_and, Bool.and_eq_true, List.forall_mem_cons, and_assoc]

theorem foldl_and_eq_clean : ∀ {l : List Decode} {a : Decode}, l.foldl Decode.and a = .clean ↔ a = .clean ∧ ∀ d ∈ l, d = .clean
  | [], a => by simp
  | d :: l, a => by rw [List.foldl_cons, foldl_and_eq_clean, Decode.and_eq_clean, List.forall_mem_cons, and_assoc]

theorem foldl_and_eq_uncorrectable : ∀ {l : List Decode} {a : Decode},
    l.foldl Decode.and a = .uncorrectable ↔ a = .uncorrectable ∨ .uncorrectable ∈ l
  | [], a => by simp
  | d :: l, a => by
    rw [List.foldl_cons, foldl_and_eq_uncorrectable, Decode.and_eq_uncorrectable, List.mem_cons, or_assoc,
      eq_comm (a := d)]

/-- The device positions of the wrong symbols of one codeword. -/
def wordPositions (bad : List BadSymbol) (burst : Bool) (w : Nat) : List Nat :=
  (bad.filter fun b => b.burst == burst && b.word.toNat == w).map fun b => b.pos.toNat

theorem mem_wordPositions {bad : List BadSymbol} {burst : Bool} {w p : Nat} :
    p ∈ wordPositions bad burst w ↔ ∃ b ∈ bad, (b.burst, b.word.toNat) = (burst, w) ∧ b.pos.toNat = p := by
  simp [wordPositions, and_assoc]

/-- Codewords in a burst (R255, R256). -/
def burstLen (x8 : Bool) : Nat := if x8 then 4 else 8

theorem mem_burstWords {x8 : Bool} {mark : Option Nat} {bad : List BadSymbol} {burst : Bool} {d : Decode} :
    d ∈ burstWords x8 mark bad burst ↔ ∃ w < burstLen x8, codeword x8 mark (wordPositions bad burst w) = d := by
  simp [burstWords, wordPositions, burstLen]

section
variable {x8 : Bool} {mark : Option Nat} {bad : List BadSymbol}

theorem outerCode_correctable : (outerCode x8 mark bad).correctable = true ↔
    ∀ burst, ∀ w < burstLen x8, (codeword x8 mark (wordPositions bad burst w)).correctable = true := by
  simp [outerCode, burstCode, Decode.correctable_and, foldl_and_correctable, mem_burstWords, Bool.forall_bool,
    show Decode.correctable .clean = true from rfl]

theorem outerCode_eq_clean : outerCode x8 mark bad = .clean ↔
    ∀ burst, ∀ w < burstLen x8, codeword x8 mark (wordPositions bad burst w) = .clean := by
  simp [outerCode, burstCode, Decode.and_eq_clean, foldl_and_eq_clean, mem_burstWords, Bool.forall_bool]

theorem outerCode_eq_uncorrectable : outerCode x8 mark bad = .uncorrectable ↔
    ∃ burst, ∃ w < burstLen x8, codeword x8 mark (wordPositions bad burst w) = .uncorrectable := by
  simp [outerCode, burstCode, Decode.and_eq_uncorrectable, foldl_and_eq_uncorrectable, mem_burstWords, Bool.exists_bool]

theorem outerCode_nil : outerCode x8 mark [] = .clean := outerCode_eq_clean.mpr fun _ _ _ => rfl

end

/-- In a rank with no mark, errors in one device position of a codeword are corrected there (R255, R256). -/
theorem codeword_of_one_position {x8 : Bool} {ps : List Nat} {p : Nat} (hp : p ∈ ps) (hall : ∀ q ∈ ps, q = p) :
    codeword x8 none ps = .corrected [p] := by
  have hdups : ps.eraseDups = [p] := by
    cases ps with
    | nil => cases hp
    | cons q qs =>
      obtain ⟨rfl, hqs⟩ := List.forall_mem_cons.mp hall
      have hrest : (qs.filter fun r => !r == q) = [] := by simpa [List.filter_eq_nil_iff] using hqs
      rw [List.eraseDups_cons, hrest, List.eraseDups_nil]
  simp [codeword, hdups]

/-- Errors in two device positions are found and not corrected, with x4 devices (R255). -/
theorem codeword_of_two_positions {p q : Nat} (h : p ≠ q) : codeword false none [p, q] = .uncorrectable := by
  have hdups : [p, q].eraseDups = [p, q] := by simp [List.eraseDups_cons, h.symm]
  simp [codeword, hdups]

/-- Errors of at most one device position in each codeword of a line are corrected. -/
theorem outerCode_corrected {x8 : Bool} {bad : List BadSymbol} (hne : bad ≠ []) (hin : ∀ b ∈ bad, b.word.toNat < burstLen x8)
    (hone : ∀ b ∈ bad, ∀ c ∈ bad, (b.burst, b.word.toNat) = (c.burst, c.word.toNat) → b.pos = c.pos) :
    ∃ pos, outerCode x8 none bad = .corrected pos := by
  have hword (burst : Bool) (w : Nat) (b : BadSymbol) (hb : b ∈ bad) (hw : (b.burst, b.word.toNat) = (burst, w)) :
      codeword x8 none (wordPositions bad burst w) = .corrected [b.pos.toNat] := by
    refine codeword_of_one_position (mem_wordPositions.mpr ⟨b, hb, hw, rfl⟩) fun q hq => ?_
    obtain ⟨c, hc, hcw, rfl⟩ := mem_wordPositions.mp hq
    exact congrArg BitVec.toNat (hone c hc b hb (hcw.trans hw.symm))
  apply Decode.exists_corrected
  · refine outerCode_correctable.mpr fun burst w _ => ?_
    cases hps : wordPositions bad burst w with
    | nil => rfl
    | cons p ps =>
      obtain ⟨b, hb, hw, -⟩ := mem_wordPositions.mp (hps ▸ List.mem_cons_self : p ∈ wordPositions bad burst w)
      rw [← hps, hword burst w b hb hw]
      rfl
  · obtain ⟨b, hb⟩ := List.exists_mem_of_ne_nil bad hne
    intro hclean
    have h := outerCode_eq_clean.mp hclean b.burst b.word.toNat (hin b hb)
    rw [hword _ _ b hb rfl] at h
    cases h

/-- Errors of two device positions in one codeword, with x4 devices, are not corrected. -/
theorem outerCode_uncorrectable {b c : BadSymbol} (hword : (b.burst, b.word.toNat) = (c.burst, c.word.toNat)) (hpos : b.pos ≠ c.pos) :
    outerCode false none [b, c] = .uncorrectable := by
  obtain ⟨hburst, hw⟩ := Prod.mk.inj hword
  have hps : wordPositions [b, c] b.burst b.word.toNat = [b.pos.toNat, c.pos.toNat] := by
    simp [wordPositions, ← hburst, ← hw]
  refine outerCode_eq_uncorrectable.mpr ⟨b.burst, b.word.toNat, b.word.isLt, ?_⟩
  rw [hps]
  exact codeword_of_two_positions (mt BitVec.eq_of_toNat_eq hpos)

end Sys2Proof.Machine
end

/-! ## What a fault leaves of the controllers' state and registers (R461, R467, R471) -/

section
namespace Sys2Proof.Machine

section
variable {s t : State}

theorem FaultFrame.poison (h : FaultFrame s t) : t.poison = s.poison := by obtain ⟨_, _, _, _, _, _, _, _, _, _, rfl⟩ := h; rfl
theorem FaultFrame.mcs (h : FaultFrame s t) : t.mcs = s.mcs := by obtain ⟨_, _, _, _, _, _, _, _, _, _, rfl⟩ := h; rfl
theorem FaultFrame.dramStale (h : FaultFrame s t) : t.dramStale = s.dramStale := by
  obtain ⟨_, _, _, _, _, _, _, _, _, _, rfl⟩ := h; rfl

/-- Where it leaves the registers too, the POT is as it was. -/
theorem FaultFrame.potEntry (h : FaultFrame s t) (hregs : t.regs = s.regs) : t.potEntry = s.potEntry := by
  obtain ⟨_, _, _, _, _, _, _, _, _, _, rfl⟩ := h
  obtain rfl := hregs
  rfl

theorem FaultFrame.joinLost (s : State) : FaultFrame s s.joinLost :=
  .ite ((FaultFrame.endJoin s).trans (.fault _ _ _ _ _ _ _)) (.refl s)

/-- The FAIL record of a mirror error, where the link carries it. -/
theorem FaultFrame.failSent (s : State) (c : Prop) [Decidable c] (k : Nat) : FaultFrame s (if c then s.scnSend (.fail k) else s) :=
  .ite (.scnSend s _) (.refl s)

theorem FaultFrame.mirrorFail (s : State) : FaultFrame s s.mirrorFail := by
  unfold State.mirrorFail
  extract_lets s1
  have h1 : FaultFrame s s1 := .failSent s _ 3
  exact .ite (h1.trans ((show FaultFrame s1 { s1 with egressIdle := true, pins := { s1.pins with pairActive := false } } from
    ⟨_, _, _, _, _, _, _, _, _, _, rfl⟩).trans (.setRole _ 4))) (h1.trans (.joinLost s1))

end

/-- A Standby that fails writes no register (R385). -/
theorem State.mirrorFail_regs {s : State} (h : s.scn.role = 2) : s.mirrorFail.regs = s.regs := by
  unfold State.mirrorFail
  rw [if_pos h]
  change State.regs (if _ then _ else _) = _
  split <;> rfl

/-- From `s` to `t` the register at address `a` stands, and the registers stay canonical. -/
def KeepsRegAt (a : Nat) (s t : State) : Prop :=
  Map.wf regDefault s.regs = true →
    Map.wf regDefault t.regs = true ∧ Map.get regDefault t.regs a = Map.get regDefault s.regs a

section
variable {a : Nat} {s t u : State}

theorem KeepsRegAt.of_regs (h : t.regs = s.regs) : KeepsRegAt a s t := fun hwf => by rw [h]; exact ⟨hwf, rfl⟩

theorem KeepsRegAt.trans (h : KeepsRegAt a s t) (h' : KeepsRegAt a t u) : KeepsRegAt a s u := fun hwf =>
  have ⟨ht, hst⟩ := h hwf
  have ⟨hu, htu⟩ := h' ht
  ⟨hu, htu.trans hst⟩

theorem KeepsRegAt.setReg (s : State) {r : Reg} {ix : List Nat} (v : W64) (ha : a ≠ r.addr ix) : KeepsRegAt a s (s.setReg r ix v) :=
  fun hwf => ⟨Map.wf_set _ v hwf, Map.get_set_ne v hwf ha⟩

theorem KeepsRegAt.ite {c : Prop} [Decidable c] (h : KeepsRegAt a s t) (h' : KeepsRegAt a s u) :
    KeepsRegAt a s (if c then t else u) := by
  split
  · exact h
  · exact h'

theorem KeepsRegAt.capture (s : State) {w x y z : Reg} {ix : List Nat} (f : FaultIn) (hw : a ≠ w.addr ix) (hx : a ≠ x.addr ix)
    (hy : a ≠ y.addr ix) (hz : a ≠ z.addr ix) : KeepsRegAt a s (s.capture w x y z ix f) :=
  (((KeepsRegAt.setReg s _ hw).trans (.setReg _ _ hx)).trans (.setReg _ _ hy)).trans (.setReg _ _ hz)

/-- The records of the blocks, at addresses from 0xFF0003000000 on. -/
theorem KeepsRegAt.blockRecord (s : State) {b : Nat} (f : FaultIn) (hb : b < 128) (ha : 0xFF0004000000 ≤ a) :
    KeepsRegAt a s (s.blockRecord b f) := by
  have hne {r : Reg} (hr : r ∈ [Reg.fltRec, .fltAddr, .fltTsec, .fltTns, .fltInfo, .fltCtl]) : a ≠ r.addr [b] := by
    simp only [List.mem_cons, List.not_mem_nil, or_false] at hr
    rcases hr with rfl | rfl | rfl | rfl | rfl | rfl <;> simp [Reg.addr, Reg.row] <;> omega
  unfold State.blockRecord
  extract_lets old s1 s2
  have h2 : KeepsRegAt a s s2 := (KeepsRegAt.setReg s _ (hne (by simp))).trans (.of_regs rfl)
  exact .ite ((h2.trans (.capture _ f (hne (by simp)) (hne (by simp)) (hne (by simp)) (hne (by simp)))).trans
    (.setReg _ _ (hne (by simp)))) h2

/-- The records of the partitions, at addresses from 0xFF0003020000 on. -/
theorem KeepsRegAt.partRecord (s : State) (p : Nat) {b : Nat} (f : FaultIn) (hb : b < 128) (ha : 0xFF0004000000 ≤ a) :
    KeepsRegAt a s (s.partRecord p b f) := by
  unfold State.partRecord
  split
  · exact .of_regs rfl
  · have hne {r : Reg} (hr : r ∈ [Reg.fltPrec, .fltPaddr, .fltPtsec, .fltPtns, .fltPinfo]) : a ≠ r.addr [p, b] := by
      simp only [List.mem_cons, List.not_mem_nil, or_false] at hr
      rcases hr with rfl | rfl | rfl | rfl | rfl <;> simp [Reg.addr, Reg.row] <;> omega
    extract_lets old s1 s2
    have h2 : KeepsRegAt a s s2 := (KeepsRegAt.setReg s _ (hne (by simp))).trans (.of_regs rfl)
    exact .ite (h2.trans (.capture _ f (hne (by simp)) (hne (by simp)) (hne (by simp)) (hne (by simp)))) h2

theorem KeepsRegAt.fatalReaction (s : State) (b : Nat) (ha : 0xFF0004000000 ≤ a) : KeepsRegAt a s (s.fatalReaction b) := by
  rw [State.fatalReaction_eq]
  refine .ite (.of_regs rfl) ?_
  have hlatch : KeepsRegAt a s (s.fatalLatch b) :=
    (KeepsRegAt.setReg s (r := .fltFatal) (ix := []) _ (by simp [Reg.addr, Reg.row]; omega)).trans (.of_regs rfl)
  exact hlatch.trans (.of_regs (by rw [State.fatalLog_regs, State.fatalStop, State.mapThr_regs, State.fatalLink_regs]))

/-- A fault writes no register above those of the faults. -/
theorem KeepsRegAt.fault (s : State) {b : Nat} (cls code pid addr : Nat) (info : W64) (hb : b < 128) (ha : 0xFF0004000000 ≤ a) :
    KeepsRegAt a s (s.fault b cls code pid addr info) := by
  have h1 (f : FaultIn) : KeepsRegAt a s ((s.blockRecord b f).partRecord f.pid b f) :=
    (KeepsRegAt.blockRecord s f hb ha).trans (.partRecord _ _ f hb ha)
  exact .ite ((h1 _).trans (.fatalReaction _ b ha)) (h1 _)

end
end Sys2Proof.Machine
end

/-! ## Reads of a controller (R251, R255 to R262, R271) -/

section
namespace Sys2Proof.Machine

theorem State.mc_setMc_self {s : State} (n : Nat) (x : Mc) (h : Map.wf Mc.reset s.mcs = true) : (s.setMc n x).mc n = x :=
  Map.get_set_self n x h

theorem State.modMc_rf (s : State) (n : Nat) (f : Mc → Mc) : (s.modMc n f).rf = s.rf := rfl

/-! ### Corrected reads -/

/-- What a correction leaves: memory, the poison marks and the error count of its controller. -/
structure CorrectionFrame (n : Nat) (s t : State) : Prop where
  mem : t.mem = s.mem
  poison : t.poison = s.poison
  mcs : Map.wf Mc.reset s.mcs = true → Map.wf Mc.reset t.mcs = true
  count : KeepsRegAt (Reg.mcErrcnt.addr [n]) s t

section
variable {n : Nat} {s t u : State}

theorem CorrectionFrame.refl (s : State) : CorrectionFrame n s s := ⟨rfl, rfl, id, .of_regs rfl⟩

theorem CorrectionFrame.trans (h : CorrectionFrame n s t) (h' : CorrectionFrame n t u) : CorrectionFrame n s u :=
  ⟨h'.mem.trans h.mem, h'.poison.trans h.poison, h'.mcs ∘ h.mcs, h.count.trans h'.count⟩

theorem CorrectionFrame.setMc (s : State) (x : Mc) : CorrectionFrame n s (s.setMc n x) :=
  ⟨rfl, rfl, Map.wf_set n x, .of_regs rfl⟩

theorem CorrectionFrame.setDevmark (s : State) (v : W64) : CorrectionFrame n s (s.setReg .mcDevmark [n] v) :=
  ⟨rfl, rfl, id, .setReg s v (by simp [Reg.addr, Reg.row])⟩

theorem CorrectionFrame.fault (s : State) (cls code pid addr : Nat) (hn : n < 12) :
    CorrectionFrame n s (s.fault (blkMc n) cls code pid addr) := by
  have h := FaultFrame.fault s (blkMc n) cls code pid addr 0
  refine ⟨h.mem, h.poison, fun hwf => by rwa [h.mcs], .fault s _ _ _ _ _ ?_ ?_⟩
  · simp only [blkMc]
    omega
  · simp [Reg.addr, Reg.row]
    omega

theorem CorrectionFrame.ite {c : Prop} [Decidable c] (h : CorrectionFrame n s t) (h' : CorrectionFrame n s u) :
    CorrectionFrame n s (if c then t else u) := by
  split
  · exact h
  · exact h'

theorem CorrectionFrame.mcPosition (s : State) (rank line pos : Nat) (hn : n < 12) :
    CorrectionFrame n s (s.mcPosition n rank line pos) :=
  .ite (((CorrectionFrame.setMc s _).trans (.setDevmark _ _)).trans (.fault _ _ _ _ _ hn)) (.setMc s _)

/-- A corrected read is counted once; the rest of it leaves the count. -/
theorem CorrectionFrame.mcCorrected (s : State) (rank : Nat) (pos : List Nat) (line : Nat) (hn : n < 12) :
    CorrectionFrame n (s.incRf .mcErrcnt [n] 63 32) (s.mcCorrected n rank pos line) := by
  have hcounted : CorrectionFrame n (s.incRf .mcErrcnt [n] 63 32) (s.mcCounted n rank line) :=
    .ite (.refl _) ((CorrectionFrame.setMc _ _).trans (.fault _ _ _ _ _ hn))
  have hfold : ∀ (ps : List Nat) (u : State), CorrectionFrame n u (ps.foldl (State.mcPosition n rank line) u) := by
    intro ps
    induction ps with
    | nil => exact .refl
    | cons p ps ih => exact fun u => (CorrectionFrame.mcPosition u rank line p hn).trans (ih _)
  exact hcounted.trans (hfold pos _)

end

/-! These rewrite through `State.setReg`: by unfolding alone the kernel would count up to the largest value of the field. -/

@[simp] theorem State.incRf_mem (s : State) (r : Reg) (ix : List Nat) (hi lo : Nat) : (s.incRf r ix hi lo).mem = s.mem := by
  rw [State.incRf, State.setRf_eq, State.setReg_mem]

@[simp] theorem State.incRf_poison (s : State) (r : Reg) (ix : List Nat) (hi lo : Nat) : (s.incRf r ix hi lo).poison = s.poison := by
  rw [State.incRf, State.setRf_eq, State.setReg_poison]

@[simp] theorem State.incRf_mcs (s : State) (r : Reg) (ix : List Nat) (hi lo : Nat) : (s.incRf r ix hi lo).mcs = s.mcs := by
  rw [State.incRf, State.setRf_eq, State.setReg_mcs]

theorem State.regs_wf_incRf {s : State} (r : Reg) (ix : List Nat) (hi lo : Nat) (h : Map.wf regDefault s.regs = true) :
    Map.wf regDefault (s.incRf r ix hi lo).regs = true := by
  rw [State.incRf, State.setRf_eq]
  exact State.regs_wf_setReg _ _ _ h

/-- A counter field that is advanced does not pass its largest value. -/
theorem State.rf_incRf_self {s : State} (r : Reg) (ix : List Nat) {hi lo w : Nat} (h : Map.wf regDefault s.regs = true) (hhi : hi < 64)
    (hw : hi + 1 - lo = w) : (s.incRf r ix hi lo).rf r ix hi lo = min (s.rf r ix hi lo + 1) (2 ^ w - 1) := by
  have hpos := Nat.two_pow_pos w
  rw [State.incRf, State.rf_setRf_self r ix _ h hhi, hw, Nat.mod_eq_of_lt (by omega)]

/-! ### Uncorrectable reads -/

/-- An uncorrectable read in an unprotected granule of a tenant: the line is poisoned (R259). -/
theorem State.mcPoison_owned {s : State} {n line : Nat} (hon : s.rf .potBase [] 0 0 = 1) (hprot : fld (s.potEntry (line * 256)) 57 57 = 0)
    (howned : fld (s.potEntry (line * 256)) 56 54 = potOwned) (hfresh : s.dramStale line = false) : s.mcPoison n line =
      ((s.incRf .mcErrcnt [n] 31 16).setPoison line true).fault (blkMc n) clsContained 0x0303
        (fld (s.potEntry (line * 256)) 63 58) (line * 256) := by
  simp [State.mcPoison, hon, hprot, howned, hfresh, potOwned, potModule, potScrub, potShared]

/-- The same read where Scion has failed a mirror before it: of memory and the poison marks it changes the line's mark alone. -/
theorem State.mcPoison_owned_frame {s v : State} {n line : Nat} (hv : FaultFrame s v) (hregs : v.regs = s.regs)
    (hon : s.rf .potBase [] 0 0 = 1) (hprot : fld (s.potEntry (line * 256)) 57 57 = 0)
    (howned : fld (s.potEntry (line * 256)) 56 54 = potOwned) (hfresh : s.dramStale line = false) :
    (v.mcPoison n line).mem = s.mem ∧ (v.mcPoison n line).poison = Map.set noFlag s.poison line true := by
  have hentry := hv.potEntry hregs
  rw [State.mcPoison_owned (by rwa [State.rf, State.reg, hregs]) (by rwa [hentry]) (by rwa [hentry]) (by rwa [hv.dramStale]),
    ← hv.mem, ← hv.poison]
  have h := FaultFrame.fault ((v.incRf .mcErrcnt [n] 31 16).setPoison line true) (blkMc n) clsContained 0x0303
    (fld (v.potEntry (line * 256)) 63 58) (line * 256) 0
  rw [h.mem, h.poison, State.setPoison_mem, State.setPoison_poison, State.incRf_mem, State.incRf_poison]
  exact ⟨rfl, rfl⟩

/-- An uncorrectable read poisons its line, whatever Scion makes of it (R259, R385, R404). -/
theorem State.mcUncorrectable_owned {s : State} {n line : Nat} (hon : s.rf .potBase [] 0 0 = 1)
    (hprot : fld (s.potEntry (line * 256)) 57 57 = 0) (howned : fld (s.potEntry (line * 256)) 56 54 = potOwned)
    (hfresh : s.dramStale line = false) :
    (s.mcUncorrectable n line).mem = s.mem ∧ (s.mcUncorrectable n line).poison = Map.set noFlag s.poison line true := by
  unfold State.mcUncorrectable
  by_cases hstandby : s.scn.role = 2 ∧ s.scn.takeover.isNone
  · rw [if_pos hstandby, if_pos hstandby]
    exact State.mcPoison_owned_frame (.mirrorFail s) (State.mirrorFail_regs hstandby.1) hon hprot howned hfresh
  · rw [if_neg hstandby, if_neg hstandby]
    obtain ⟨hmem, hpoison⟩ := State.mcPoison_owned_frame (n := n) (.refl s) rfl hon hprot howned hfresh
    have h : FaultFrame (s.mcPoison n line) (if s.scn.running && s.inPriv (line * 256) then
        (s.mcPoison n line).fault blkScion clsFatal 0x0709 0 (line * 256) else s.mcPoison n line) :=
      .ite (.fault _ _ _ _ _ _ _) (.refl _)
    exact ⟨h.mem.trans hmem, h.poison.trans hpoison⟩

/-! ### A read by what the outer code finds -/

section
variable {s : State} {n line : Nat} {bad : List BadSymbol}

theorem State.mcReadLine_of_clean (h : outerCode s.x8 (s.mark n (s.rankOf n line)) bad = .clean) : s.mcReadLine n line bad = s := by
  cases hp : s.poisoned line <;> simp [State.mcReadLine, State.mcDecode, h, hp]

/-- The line of a corrected read is to be scrubbed (R261). -/
def Mc.scrub (line : Nat) (x : Mc) : Mc := { x with scrubs := x.scrubs.filter (· != line) ++ [line] }

theorem State.mcReadLine_of_corrected {pos : List Nat} (hp : s.poisoned line = false)
    (h : outerCode s.x8 (s.mark n (s.rankOf n line)) bad = .corrected pos) :
    s.mcReadLine n line bad = (s.mcCorrected n (s.rankOf n line) pos line).modMc n (Mc.scrub line) := by
  simp only [State.mcReadLine, State.mcDecode, h, hp, Bool.false_eq_true, if_false]
  rfl

theorem State.mcReadLine_of_uncorrectable (hp : s.poisoned line = false)
    (h : outerCode s.x8 (s.mark n (s.rankOf n line)) bad = .uncorrectable) : s.mcReadLine n line bad = s.mcUncorrectable n line := by
  simp [State.mcReadLine, State.mcDecode, h, hp]

end

@[simp] theorem State.fetchedLine_mem (s : State) (line : Nat) : (s.fetchedLine line).mem = s.mem := rfl
@[simp] theorem State.fetchedLine_poisoned (s : State) (line : Nat) : (s.fetchedLine line).poisoned = s.poisoned := rfl
@[simp] theorem State.fetchedLine_poison (s : State) (line : Nat) : (s.fetchedLine line).poison = s.poison := rfl
@[simp] theorem State.fetchedLine_mc (s : State) (line : Nat) : (s.fetchedLine line).mc = s.mc := rfl
@[simp] theorem State.fetchedLine_rf (s : State) (line : Nat) : (s.fetchedLine line).rf = s.rf := rfl

/-- A line that its controller reads in its turn: in DRAM, of that controller, not in its write queue (R251), not poisoned, and
in a rank with no mark. -/
structure State.ReadsDram (s : State) (n line : Nat) : Prop where
  installed : line * 256 < s.dram
  home : s.mcOf (line * 256) = n
  unqueued : line ∉ Map.get noLines s.mcq n
  sound : s.poisoned line = false
  unmarked : s.mark n (s.rankOf n line) = none
  turn : s.readQueue n = [] ∨ (s.readQueue n).head? = some line

section
variable {s : State} {n : McId} {line : Line}

theorem State.readTurn_iff {n line : Nat} : s.readTurn n line = true ↔ s.readQueue n = [] ∨ (s.readQueue n).head? = some line := by
  rw [State.readTurn]
  cases s.readQueue n <;> simp

theorem exec_mcRead (h : s.ReadsDram n.val line.toNat) (bad : List BadSymbol) :
    exec (.mcRead n line bad) s = .next ((s.mcReadLine n.val line.toNat bad).fetchedLine line.toNat) := by
  show execMcRead n line bad s = _
  simp [execMcRead, State.isDram, h.installed, h.home, h.unqueued, State.readTurn_iff.mpr h.turn]

theorem exec_mcRead_clean (h : s.ReadsDram n.val line.toNat) : exec (.mcRead n line []) s = .next (s.fetchedLine line.toNat) := by
  rw [exec_mcRead h, State.mcReadLine_of_clean outerCode_nil]

/-- A read with errors in one device position of each wrong codeword: counted, to be scrubbed, its bytes as they were. -/
theorem exec_mcRead_corrected (h : s.ReadsDram n.val line.toNat) {bad : List BadSymbol} {pos : List Nat}
    (hcode : outerCode s.x8 none bad = .corrected pos) (hmcs : Map.wf Mc.reset s.mcs = true) (hregs : Map.wf regDefault s.regs = true) :
    ∃ u, exec (.mcRead n line bad) s = .next u ∧ line.toNat ∈ (u.mc n.val).scrubs ∧ u.mem = s.mem ∧ u.poison = s.poison ∧
      u.rf .mcErrcnt [n.val] 63 32 = min (s.rf .mcErrcnt [n.val] 63 32 + 1) (2 ^ 32 - 1) := by
  have hread := State.mcReadLine_of_corrected h.sound (h.unmarked.symm ▸ hcode)
  obtain ⟨hmem, hpoison, hwf, hcount⟩ := CorrectionFrame.mcCorrected s (s.rankOf n.val line.toNat) pos line.toNat n.isLt
  have hcounted := congrArg (fld · 63 32) (hcount (State.regs_wf_incRf _ _ _ _ hregs)).2
  refine ⟨_, exec_mcRead h bad, ?_, ?_, ?_, ?_⟩
  · rw [State.fetchedLine_mc, hread, State.modMc_eq, State.mc_setMc_self _ _ (hwf (by rwa [State.incRf_mcs]))]
    simp [Mc.scrub]
  · rw [State.fetchedLine_mem, hread, State.modMc_eq, State.setMc_mem, hmem, State.incRf_mem]
  · rw [State.fetchedLine_poison, hread, State.modMc_eq, State.setMc_poison, hpoison, State.incRf_poison]
  · rw [State.fetchedLine_rf, hread, State.modMc_rf]
    exact hcounted.trans (State.rf_incRf_self _ _ hregs (by decide) rfl)

/-- A read with errors that the outer code cannot correct, in an unprotected granule of a tenant: the line is poisoned. -/
theorem exec_mcRead_uncorrectable (h : s.ReadsDram n.val line.toNat) {bad : List BadSymbol}
    (hcode : outerCode s.x8 none bad = .uncorrectable) (hclean : s.dirtyLine line.toNat = false) (hon : s.rf .potBase [] 0 0 = 1)
    (hprot : fld (s.potEntry (line.toNat * 256)) 57 57 = 0) (howned : fld (s.potEntry (line.toNat * 256)) 56 54 = potOwned)
    (hwf : Map.wf noFlag s.poison = true) :
    ∃ u, exec (.mcRead n line bad) s = .next u ∧ u.poisoned line.toNat = true ∧ u.mem = s.mem := by
  have hread := State.mcReadLine_of_uncorrectable h.sound (h.unmarked.symm ▸ hcode)
  have hfresh : s.dramStale line.toNat = false := by simp [State.dramStale, hclean, h.home, h.unqueued]
  obtain ⟨hmem, hpoison⟩ := State.mcUncorrectable_owned (n := n.val) hon hprot howned hfresh
  refine ⟨_, exec_mcRead h bad, ?_, ?_⟩
  · rw [State.fetchedLine_poisoned, hread, State.poisoned, hpoison]
    exact Map.get_set_self _ true hwf
  · rw [State.fetchedLine_mem, hread, hmem]

/-! ### The patrol, the write queue and the scrubs (R251, R260, R262) -/

/-- A patrol read with no error advances the patrol and changes nothing else. -/
theorem exec_patrolRead_clean (hrefresh : (s.mc n.val).selfRefresh = false) (hpresent : ¬ (s.ways = 6 ∧ n.val % 2 = 1)) :
    exec (.patrolRead n []) s =
      .next (s.setMc n.val { s.mc n.val with patrol := ((s.mc n.val).patrol + 1) % s.chanLines }) := by
  show execPatrolRead n [] s = _
  simp only [execPatrolRead, hrefresh, hpresent, Bool.false_eq_true, or_self, if_false, State.mcReadLine_of_clean outerCode_nil, ite_self]

/-- The oldest line of the write queue of controller `n` has gone to DRAM; the queue drains down to 32 lines (R251). -/
def State.queueDrained (s : State) (n : Nat) : State :=
  ({ s with mcq := Map.set noLines s.mcq n ((Map.get noLines s.mcq n).drop 1) } : State).modMc n fun x =>
    { x with draining := decide (32 < (Map.get noLines s.mcq n).length - 1) }

theorem exec_mcWrite_drains (hdrain : (s.mc n.val).draining = true) (hreads : s.readQueue n.val = []) :
    exec (.mcWrite n) s = .next (s.queueDrained n.val) :=
  congrArg Host.Outcome.next (if_pos (by simp [hdrain, hreads]))

/-- A write that the controller has accepted waits in its queue. -/
theorem State.mem_mcq_mcAccept {line : Nat} (h : Map.wf noLines s.mcq = true) :
    line ∈ Map.get noLines (s.mcAccept line).mcq (s.mcOf (line * 256)) := by
  have hget : Map.get noLines (s.mcAccept line).mcq (s.mcOf (line * 256)) = _ := Map.get_set_self _ _ h
  rw [hget]
  by_cases hq : (Map.get noLines s.mcq (s.mcOf (line * 256))).contains line = true
  · rw [if_pos hq]
    exact List.contains_iff_mem.mp hq
  · rw [if_neg hq]
    simp

theorem exec_scrubWriteback (h : line.toNat ∈ (s.mc n.val).scrubs) :
    exec (.scrubWriteback n line) s = .next (s.mcAccept line.toNat) :=
  congrArg Host.Outcome.next (if_pos (List.contains_iff_mem.mpr h))

theorem exec_scrubWriteback_superseded (h : line.toNat ∉ (s.mc n.val).scrubs) : exec (.scrubWriteback n line) s = .next s :=
  congrArg Host.Outcome.next (if_neg (mt List.contains_iff_mem.mp h))

end
end Sys2Proof.Machine
end

section
open Sys2Proof Sys2Proof.Machine

/-- Settles O43: the outer code decides what a read does, and the coordinates of a line are the digits of its number. -/
theorem memoryControllerTraffic : Obligations.MemoryControllerTraffic := by
  unfold Obligations.MemoryControllerTraffic
  refine ⟨?_, fun d dpc k _ _ _ hcol => d.decode_spec dpc k hcol⟩
  intro n line s hmcs hpoison hregs l here word inLine
  have hreads (h : here) : s.ReadsDram n.val l :=
    have ⟨hdram, hhome, hqueue, hsound, hmark, hturn⟩ := h
    ⟨hdram, hhome, hqueue, hsound, hmark, hturn⟩
  refine ⟨fun h => exec_mcRead_clean (hreads h), fun h bad hne hin hone => ?_, fun h b c hw hpos hx8 hclean hon hprot howned => ?_,
    fun hrefresh hpresent => exec_patrolRead_clean hrefresh hpresent, fun hdrain hqueue hmcq => ?_, fun hscrub hmcq => ?_,
    exec_scrubWriteback_superseded⟩
  · obtain ⟨pos, hcode⟩ := outerCode_corrected hne hin hone
    exact exec_mcRead_corrected (hreads h) hcode hmcs hregs
  · exact exec_mcRead_uncorrectable (hreads h) (hx8 ▸ outerCode_uncorrectable hw hpos) hclean hon hprot howned hpoison
  · exact ⟨_, exec_mcWrite_drains hdrain hqueue, Map.get_set_self n.val _ hmcq, rfl, rfl⟩
  · exact ⟨_, exec_scrubWriteback hscrub, State.mem_mcq_mcAccept hmcq, rfl, rfl⟩

end

/-! ## Upkeep of a channel (R254, R263 to R272) -/

section
namespace Sys2Proof.Machine

theorem State.mc_modMc_self {s : State} (n : Nat) (f : Mc → Mc) (h : Map.wf Mc.reset s.mcs = true) :
    (s.modMc n f).mc n = f (s.mc n) := State.mc_setMc_self n _ h

theorem State.modMc_regs (s : State) (n : Nat) (f : Mc → Mc) : (s.modMc n f).regs = s.regs := rfl

/-- A field within a field that is written: its bits of the value. -/
theorem fld_setFld_within {w : Nat} (x : BitVec w) {hi lo hi' lo' : Nat} (v : Nat) (hw : hi < w) (hlo : lo ≤ lo') (hhi : hi' ≤ hi) :
    fld (setFld x hi lo v) hi' lo' = v / 2 ^ (lo' - lo) % 2 ^ (hi' + 1 - lo') := by
  apply Nat.eq_of_testBit_eq
  intro i
  rw [testBit_fld, getLsbD_setFld, Nat.testBit_mod_two_pow, Nat.testBit_div_two_pow]
  by_cases hb : i < hi' + 1 - lo'
  · rw [if_pos (by omega)]
    simp [hb, show i + lo' < w by omega, show i + lo' - lo = i + (lo' - lo) by omega]
  · simp [hb]

theorem State.rf_setRf_within {s : State} (r : Reg) (ix : List Nat) {hi lo hi' lo' : Nat} (v : Nat) (h : Map.wf regDefault s.regs = true)
    (hw : hi < 64) (hlo : lo ≤ lo') (hhi : hi' ≤ hi) :
    (s.setRf r ix hi lo v).rf r ix hi' lo' = v / 2 ^ (lo' - lo) % 2 ^ (hi' + 1 - lo') := by
  rw [State.rf, State.setRf_eq, State.reg_setReg_self _ _ _ h, fld_setFld_within _ _ hw hlo hhi]

/-- Writing a field of a register depends on the registers alone. -/
theorem State.setRf_regs_congr {s t : State} (r : Reg) (ix : List Nat) (hi lo v : Nat) (h : s.regs = t.regs) :
    (s.setRf r ix hi lo v).regs = (t.setRf r ix hi lo v).regs := by
  simp only [State.setRf_eq, State.setReg_regs, State.reg, h]

section
variable {s : State} {n : McId} {rank : BitVec 2}

/-! ### Refresh and the readings of a rank (R254, R264, R267) -/

theorem State.keepsTime_iff {n : Nat} : s.keepsTime n = true ↔ s.power.state = .run ∧ (s.mc n).selfRefresh = false := by
  simp [State.keepsTime]

theorem exec_refresh_awake (h : (s.mc n.val).selfRefresh = false) : exec (.refresh n rank) s =
    .next (s.setMc n.val { s.mc n.val with refreshed := some rank.toNat, refreshes := (s.mc n.val).refreshes + 1 }) :=
  congrArg (fun x => Host.Outcome.next (s.setMc n.val x)) (if_neg (by simp [h]))

theorem exec_rfm_awake (bank : BitVec 5) (h : (s.mc n.val).selfRefresh = false) :
    exec (.rfm n rank bank) s = .next (s.setMc n.val { s.mc n.val with rfms := (s.mc n.val).rfms + 1 }) :=
  congrArg (fun x => Host.Outcome.next (s.setMc n.val x)) (if_neg (by simp [h]))

theorem exec_dqsIntervalOscillator_of_keepsTime (h : s.keepsTime n.val = true) : exec (.dqsIntervalOscillator n rank) s =
    .next (s.setMc n.val { s.mc n.val with oscs := (s.mc n.val).oscs + 1 }) :=
  congrArg Host.Outcome.next (if_pos h)

theorem State.retraining_eq_some_iff {n r : Nat} :
    s.retraining n = some r ↔ s.rf .mcTrain [n] 7 0 = 3 ∧ s.rf .mcTrain [n] 11 8 = r := by
  simp [State.retraining]

/-- A read centring directly after an all-bank refresh of its rank, which is not in re-training. -/
theorem exec_readCentring_of_refreshed (htime : s.keepsTime n.val = true) (hrefreshed : (s.mc n.val).refreshed = some rank.toNat)
    (hother : s.retraining n.val ≠ some rank.toNat) : exec (.readCentring n rank) s =
      .next (s.setMc n.val { s.mc n.val with refreshed := none, centrings := (s.mc n.val).centrings + 1 }) := by
  show execReadCentring n rank s = _
  simp [execReadCentring, htime, hrefreshed, hother, State.modMc_eq]

theorem exec_ecsRead_above {count : BitVec 32} (row : BitVec 32) (h : s.odv 0x100002 < count.toNat) : exec (.ecsRead n rank count row) s =
    .next (s.fault (blkMc n.val) clsCorrected 0x0306 0 0 (pack [(35, 32, rank.toNat), (31, 0, row.toNat)])) :=
  congrArg Host.Outcome.next (if_pos h)

/-! ### Temperatures (R263, R264) -/

theorem degrees_toNat (v : BitVec 8) : degrees v.toNat = v.toInt := by rw [degrees, BitVec.ofNat_toNat, BitVec.setWidth_eq]

/-- The sensor of a DIMM has answered (R263). -/
def Mc.heard (dimm : Bool) (x : Mc) : Mc := if dimm then { x with silent1 := 0 } else { x with silent0 := 0 }

theorem Mc.heard_halfRate (dimm : Bool) (x : Mc) : (x.heard dimm).halfRate = x.halfRate := by cases dimm <;> rfl
theorem Mc.heard_silent (dimm : Bool) (x : Mc) : (if dimm then (x.heard dimm).silent1 else (x.heard dimm).silent0) = 0 := by
  cases dimm <;> rfl

/-- A DIMM's reading is in MCn.TEMP and its sensor has answered. -/
def State.tempRead (s : State) (n : Nat) (dimm : Bool) (v : Nat) : State :=
  (s.modMc n (Mc.heard dimm)).setRf .mcTemp [n] (curLo dimm + 7) (curLo dimm) v

theorem State.rf_tempRead (dimm : Bool) (v : BitVec 8) {n : Nat} (h : Map.wf regDefault s.regs = true) :
    (s.tempRead n dimm v.toNat).rf .mcTemp [n] (curLo dimm + 7) (curLo dimm) = v.toNat := by
  have hset := State.rf_setRf_self (s := s.modMc n (Mc.heard dimm)) .mcTemp [n] (hi := curLo dimm + 7) (lo := curLo dimm) v.toNat h
    (by cases dimm <;> decide)
  exact hset.trans (Nat.mod_eq_of_lt (by cases dimm <;> exact v.isLt))

/-- Do both DIMMs of a channel read below 90 °C (R264)? -/
def State.coolBoth (s : State) (n : Nat) : Bool :=
  decide (degrees (s.rf .mcTemp [n] 7 0) < 90) && decide (degrees (s.rf .mcTemp [n] 15 8) < 90)

/-- A channel is not cool when one of its DIMMs has just read 90 °C or more. -/
theorem State.coolBoth_tempRead {dimm : Bool} {v : BitVec 8} {n : Nat} (hlo : 90 ≤ v.toInt) (h : Map.wf regDefault s.regs = true) :
    (s.tempRead n dimm v.toNat).coolBoth n = false := by
  have hnow : 90 ≤ degrees ((s.tempRead n dimm v.toNat).rf .mcTemp [n] (curLo dimm + 7) (curLo dimm)) := by
    rwa [State.rf_tempRead dimm v h, degrees_toNat]
  rw [State.coolBoth, Bool.and_eq_false_iff, decide_eq_false_iff_not, decide_eq_false_iff_not]
  cases dimm with
  | false => exact .inl (Int.not_lt.mpr hnow)
  | true => exact .inr (Int.not_lt.mpr hnow)

/-- A sensor's answer, and what it does to the limit of the channel's rate (R263, R264). -/
theorem exec_temperaturePoll_some (dimm : Bool) (v : BitVec 8) : exec (.temperaturePoll n dimm (some v)) s = .next (
    let t := s.tempRead n.val dimm v.toNat
    if decide (95 < degrees v.toNat) && !(t.mc n.val).halfRate then
      (t.modMc n.val fun y => { y with halfRate := true }).fault (blkMc n.val) clsCorrected 0x0307 0 0
    else if t.coolBoth n.val then t.modMc n.val fun y => { y with halfRate := false }
    else t) := rfl

/-- A reading from 90 to 95 °C neither limits the channel to half its rate nor lifts the limit. -/
theorem exec_temperaturePoll_mild {dimm : Bool} {v : BitVec 8} (hlo : 90 ≤ v.toInt) (hhi : v.toInt ≤ 95)
    (hregs : Map.wf regDefault s.regs = true) : exec (.temperaturePoll n dimm (some v)) s = .next (s.tempRead n.val dimm v.toNat) := by
  have hhot : ¬ 95 < v.toInt := Int.not_lt.mpr hhi
  simp [exec_temperaturePoll_some, degrees_toNat, hhot, State.coolBoth_tempRead hlo hregs]

/-! ### Re-training of a rank (R267 to R269) -/

/-- Where MCn.TEMP has the byte of the DIMM that holds a rank: DIMM 1's is the second (R272). -/
theorem State.curLo_dimmOf (s : State) (r : Nat) : curLo (s.dimmOf r) = if s.dpc = 2 ∧ s.ranks / 2 ≤ r then 8 else 0 := by
  simp [curLo, State.dimmOf]

theorem trnLo_eq (dimm : Bool) : trnLo dimm = curLo dimm + 16 := by cases dimm <;> rfl

theorem State.rankTemp_eq {n r lo : Nat} (hlo : curLo (s.dimmOf r) = lo) : s.rankTemp n r = s.rf .mcTemp [n] (lo + 7) lo := by
  rw [State.rankTemp, hlo]

theorem State.rankTrained_regs {n r lo : Nat} (hlo : curLo (s.dimmOf r) = lo) :
    (s.rankTrained n r).regs = (s.setRf .mcTemp [n] (lo + 23) (lo + 16) (s.rf .mcTemp [n] (lo + 7) lo)).regs := by
  rw [State.rankTrained, State.modMc_regs, State.rankTemp_eq hlo, trnLo_eq, hlo]

/-- A rank of a trained channel whose temperature has drifted starts its full re-training. -/
theorem exec_fullRetraining_starts (htime : s.keepsTime n.val = true) (hrank : rank.toNat < s.ranks) (hpresent : s.rf .mcCfg [n.val] 0 0 = 1)
    (htrained : s.rf .mcTrain [n.val] 7 0 = 2) (hdrift : s.rankDrift n.val rank.toNat = true) :
    exec (.fullRetraining n rank) s =
      .next ((s.setRf .mcTrain [n.val] 11 0 (rank.toNat * 256 + 3)).modMc n.val fun x => { x with slices := 0 }) := by
  have hidle : s.retraining n.val = none := by simp [State.retraining, htrained]
  have hretrain : s.retrain n.val rank.toNat =
      (s.setRf .mcTrain [n.val] 11 0 (rank.toNat * 256 + 3)).modMc n.val fun x => { x with slices := 0 } := by
    simp [State.retrain, hdrift, Nat.not_le.mpr hrank, hpresent, htrained, hidle]
  exact congrArg Host.Outcome.next ((if_pos htime).trans hretrain)

/-- The re-training of a rank has ended, and no other follows (R268). -/
def State.retrained (s : State) (n r : Nat) : State :=
  ((s.rankTrained n r).setRf .mcTrain [n] 11 0 2).modMc n fun x => { x with slices := 0 }

/-- The last slice of a re-training, with margin, while no other rank waits: the channel is trained. -/
theorem exec_retrainingSlice_last (htraining : s.rf .mcTrain [n.val] 7 0 = 3) (hawake : (s.mc n.val).selfRefresh = false)
    (hwaiting : (s.mc n.val).waiting = []) (hmcs : Map.wf Mc.reset s.mcs = true) :
    exec (.retrainingSlice n [] true true) s = .next (s.retrained n.val (s.rf .mcTrain [n.val] 11 8)) := by
  have hrank : s.retraining n.val = some (s.rf .mcTrain [n.val] 11 8) := State.retraining_eq_some_iff.mpr ⟨htraining, rfl⟩
  have hnone : ((s.rankTrained n.val (s.rf .mcTrain [n.val] 11 8)).mc n.val).waiting = [] := by
    rw [State.rankTrained, State.mc_modMc_self _ _ (by exact hmcs)]
    exact hwaiting
  show execRetrainingSlice n [] true true s = _
  simp [execRetrainingSlice, hrank, hawake, hnone, State.retrained]

theorem State.retrained_regs {n r lo : Nat} (hlo : curLo (s.dimmOf r) = lo) : (s.retrained n r).regs =
    ((s.setRf .mcTemp [n] (lo + 23) (lo + 16) (s.rf .mcTemp [n] (lo + 7) lo)).setRf .mcTrain [n] 11 0 2).regs :=
  (State.modMc_regs _ _ _).trans (State.setRf_regs_congr _ _ _ _ _ (State.rankTrained_regs hlo))

/-- The temperature of a rank's last full training is its present one. -/
theorem State.trained_retrained {n r : Nat} (hmcs : Map.wf Mc.reset s.mcs = true) (h : Map.wf zeroNat (s.mc n).trained = true) :
    Map.get zeroNat ((s.retrained n r).mc n).trained r = s.rankTemp n r := by
  have hend : (s.retrained n r).mc n = { (s.rankTrained n r).mc n with slices := 0 } :=
    State.mc_modMc_self (s := (s.rankTrained n r).setRf .mcTrain [n] 11 0 2) n _ (Map.wf_set n _ hmcs)
  rw [hend, State.rankTrained, State.mc_modMc_self _ _ (by exact hmcs)]
  exact Map.get_set_self r _ h

/-! ### Start-up training (R265, R270) -/

/-- Training a rank writes MCn.TEMP alone. -/
theorem KeepsRegAt.rankTrained {a : Nat} (s : State) {n : Nat} (r : Nat) (ha : a ≠ Reg.mcTemp.addr [n]) :
    KeepsRegAt a s (s.rankTrained n r) := (KeepsRegAt.setReg s _ ha).trans (.of_regs rfl)

/-- All the ranks of a channel trained at their present temperatures. -/
def State.ranksTrained (s : State) (n : Nat) (ranks : List Nat) : State := ranks.foldl (fun s r => s.rankTrained n r) s

theorem KeepsRegAt.ranksTrained {a n : Nat} (ha : a ≠ Reg.mcTemp.addr [n]) :
    ∀ (ranks : List Nat) (s : State), KeepsRegAt a s (s.ranksTrained n ranks)
  | [], _ => .of_regs rfl
  | r :: ranks, s => (KeepsRegAt.rankTrained s r ha).trans (KeepsRegAt.ranksTrained ha ranks _)

theorem State.ranksTrained_power {n : Nat} : ∀ (ranks : List Nat) (s : State), (s.ranksTrained n ranks).power = s.power
  | [], _ => rfl
  | r :: ranks, s => State.ranksTrained_power ranks (s.rankTrained n r)

/-- MCn.CFG of a trained channel (R272). -/
def State.trainedCfg (s : State) : W64 :=
  pack [(47, 40, if s.dpc = 2 then 0x38 else 0x40), (39, 24, s.dram / s.ways / 2 ^ 30), (15, 12, s.ranks), (9, 8, s.dpc),
    (4, 4, s.x8.toNat), (0, 0, 1)]

theorem State.trainedCfg_en : fld s.trainedCfg 0 0 = 1 := by
  simp only [State.trainedCfg, pack, List.foldl_cons, List.foldl_nil]
  exact fld_setFld_self _ _ (by decide)

/-- A channel in start-up training is present and trained when its training succeeds. -/
theorem exec_channelTrainingComplete_trained (hboot : s.power.boot = .training) (htraining : s.rf .mcTrain [n.val] 7 0 = 1)
    (hpresent : ¬ (s.ways = 6 ∧ n.val % 2 = 1)) : exec (.channelTrainingComplete n true false) s =
      .next (((s.setReg .mcCfg [n.val] s.trainedCfg).setRf .mcTrain [n.val] 11 0 2).ranksTrained n.val (List.range s.ranks)) := by
  show execChannelTrainingComplete n true false s = _
  simp only [execChannelTrainingComplete, hboot, htraining, State.trainChannel, if_neg hpresent]
  rfl

theorem State.rf_of_keepsRegAt {t : State} {r : Reg} {ix : List Nat} (hi lo : Nat) (h : KeepsRegAt (r.addr ix) s t)
    (hregs : Map.wf regDefault s.regs = true) : t.rf r ix hi lo = s.rf r ix hi lo := congrArg (fld · hi lo) (h hregs).2

/-- After start-up training the channel is present and trained: MCn.CFG.EN and MCn.TRAIN.STATE (R272). -/
theorem State.rf_trained {n : Nat} (cfg : W64) (ranks : List Nat) (hregs : Map.wf regDefault s.regs = true) :
    let u := ((s.setReg .mcCfg [n] cfg).setRf .mcTrain [n] 11 0 2).ranksTrained n ranks
    u.rf .mcTrain [n] 7 0 = 2 ∧ u.rf .mcCfg [n] 0 0 = fld cfg 0 0 := by
  have hcfg : Map.wf regDefault (s.setReg .mcCfg [n] cfg).regs = true := State.regs_wf_setReg _ _ _ hregs
  have htrain : Map.wf regDefault ((s.setReg .mcCfg [n] cfg).setRf .mcTrain [n] 11 0 2).regs = true := State.regs_wf_setReg _ _ _ hcfg
  constructor
  · rw [State.rf_of_keepsRegAt 7 0 (KeepsRegAt.ranksTrained (by simp [Reg.addr, Reg.row]) _ _) htrain]
    exact State.rf_setRf_within _ _ _ hcfg (by decide) (by decide) (by decide)
  · rw [State.rf_of_keepsRegAt 0 0 (KeepsRegAt.ranksTrained (by simp [Reg.addr, Reg.row]) _ _) htrain, State.rf, State.setRf_eq,
      State.reg_setReg_ne _ hcfg (by simp [Reg.addr, Reg.row]), State.reg_setReg_self _ _ _ hregs]

/-- The failure of a channel in start-up training ends the start-up with 0x0308 FATAL. -/
theorem exec_channelTrainingComplete_failed (narrow : Bool) (hboot : s.power.boot = .training) (htraining : s.rf .mcTrain [n.val] 7 0 = 1)
    (hpresent : ¬ (s.ways = 6 ∧ n.val % 2 = 1)) : ∃ u : State, exec (.channelTrainingComplete n false narrow) s = .next u ∧
      u.power.boot = .stopped ∧ u.regs = ((s.setRf .mcTrain [n.val] 11 0 4).fault (blkMc n.val) clsFatal 0x0308 0 0).regs := by
  have hfailed : s.trainChannel n.val false narrow = (s.setRf .mcTrain [n.val] 11 0 4).fault (blkMc n.val) clsFatal 0x0308 0 0 :=
    if_neg hpresent
  refine ⟨_, congrArg Host.Outcome.next (if_neg (by simp [hboot, htraining])), rfl, ?_⟩
  rw [← hfailed]
  rfl

/-! ### Lost channels (R270) -/

/-- A CA parity error is recorded, whatever its replays make of it. -/
theorem exec_alertN_replayed {f : BitVec 2} (hpresent : ¬ (s.ways = 6 ∧ n.val % 2 = 1)) (hf : f ≠ 3) :
    exec (.alertN n f) s = .next (s.fault (blkMc n.val) clsCorrected 0x030A 0 0) :=
  congrArg Host.Outcome.next ((if_neg hpresent).trans (if_neg fun h => hf (BitVec.eq_of_toNat_eq h)))

theorem exec_alertN_lost (hpresent : ¬ (s.ways = 6 ∧ n.val % 2 = 1)) :
    exec (.alertN n 3) s = .next ((s.fault (blkMc n.val) clsCorrected 0x030A 0 0).channelLost n.val) :=
  congrArg Host.Outcome.next ((if_neg hpresent).trans (if_pos rfl))

/-- The registers of a channel that is lost (R270, R272). -/
def State.channelOff (s : State) (n : Nat) : State := (s.setRf .mcTrain [n] 11 0 4).setRf .mcCfg [n] 0 0 0

theorem State.channelLost_running {n : Nat} (h : s.power.boot ≠ .training) :
    s.channelLost n = (s.channelOff n).fault (blkMc n) clsFatal 0x030B 0 0 := if_neg h

theorem State.channelLost_training {n : Nat} (h : s.power.boot = .training) : (s.channelLost n).power.boot = .stopped ∧
    (s.channelLost n).regs = ((s.channelOff n).fault (blkMc n) clsFatal 0x0308 0 0).regs := by
  rw [State.channelLost, if_pos h]
  exact ⟨rfl, rfl⟩

end
end Sys2Proof.Machine
end

section
open Sys2Proof Sys2Proof.Machine

/-- Settles O44, by the one state to which each command of a channel's upkeep leads. -/
theorem memoryControllerUpkeep : Obligations.MemoryControllerUpkeep := by
  unfold Obligations.MemoryControllerUpkeep
  intro n rank bank s x r
  refine ⟨fun hawake => ⟨exec_refresh_awake hawake, exec_rfm_awake bank hawake⟩,
    fun hawake hrun => exec_dqsIntervalOscillator_of_keepsTime (State.keepsTime_iff.mpr ⟨hrun, hawake⟩),
    fun hawake hrun hrefreshed hother => exec_readCentring_of_refreshed (State.keepsTime_iff.mpr ⟨hrun, hawake⟩) hrefreshed
      (mt State.retraining_eq_some_iff.mp hother),
    fun count row habove => exec_ecsRead_above row habove, ?_, ?_, ?_, ?_, ?_⟩
  · intro dimm v hlo hhi hregs hmcs
    have hheard : (s.tempRead n.val dimm v.toNat).mc n.val = x.heard dimm := State.mc_modMc_self n.val (Mc.heard dimm) hmcs
    refine ⟨_, exec_temperaturePoll_mild hlo hhi hregs, ?_, ?_, ?_⟩
    · have hread := State.rf_tempRead (n := n.val) dimm v hregs
      cases dimm <;> exact hread
    · rw [hheard, Mc.heard_halfRate]
    · rw [hheard, Mc.heard_silent]
  · intro lo now was hawake hrun hrank hpresent htrained hdrift
    have hrankDrift : s.rankDrift n.val r = true := by
      rw [State.rankDrift, State.rankTemp_eq (s.curLo_dimmOf r)]
      exact decide_eq_true hdrift
    exact ⟨_, exec_fullRetraining_starts (State.keepsTime_iff.mpr ⟨hrun, hawake⟩) hrank hpresent htrained hrankDrift,
      State.modMc_regs _ _ _⟩
  · intro htraining hwaiting hawake hmcs hregs lo
    have hlo := s.curLo_dimmOf (s.rf .mcTrain [n.val] 11 8)
    exact ⟨_, exec_retrainingSlice_last htraining hawake hwaiting hmcs, State.retrained_regs hlo, fun htrained =>
      (State.trained_retrained hmcs htrained).trans (State.rankTemp_eq hlo)⟩
  · intro hboot htraining hpresent hregs
    obtain ⟨htrain, hcfg⟩ := State.rf_trained (n := n.val) s.trainedCfg (List.range s.ranks) hregs
    refine ⟨⟨_, exec_channelTrainingComplete_trained hboot htraining hpresent, htrain, hcfg.trans s.trainedCfg_en, ?_⟩,
      fun narrow => exec_channelTrainingComplete_failed narrow hboot htraining hpresent⟩
    rw [State.ranksTrained_power, State.setRf_eq, State.setReg_power, State.setReg_power]
  · intro hpresent s1 s2
    refine ⟨fun f hf => exec_alertN_replayed hpresent hf, fun hboot => ?_,
      fun hboot => ⟨_, exec_alertN_lost hpresent, State.channelLost_training hboot⟩⟩
    exact (exec_alertN_lost hpresent).trans (congrArg Host.Outcome.next (State.channelLost_running hboot))

end
